-- ==== Sys2Proof/Word.lean ====
section
/-! DEFINITION. The word of the CL-440's link: the byte. Everything else the manual counts is a whole number. -/

namespace Sys2Proof

/-- A byte of the serial link (R161, R172). -/
abbrev Byte := BitVec 8

end Sys2Proof
end

