-- ==== Sys2Proof/Syntax.lean ====
section
/-! DEFINITION. The commands of the CL-440: one constructor of `Instr` for each row of spec/opcode_table.json,
with the operands the row's rule gives it. Request fields stand as they are sent (a number that may be out of range);
the checks of R164 and of the owning chapters are the meaning's. -/

namespace Sys2Proof

/-- A production line, and the lane of the packing station that belongs to it (file 00, Names and numbering). -/
inductive LineId where
  | a | b | c | d
  deriving DecidableEq, Repr, Inhabited

/-- One value for each of the four lines A to D. -/
structure PerLine (α : Type) where
  a : α
  b : α
  c : α
  d : α
  deriving DecidableEq, Repr

/-- One of the 32 sensing channels (R21). -/
abbrev ChannelId := Fin 32

/-- One of the 16 twisting heads (R75). -/
abbrev HeadId := Fin 16

/-- One of the 24 recipe slots (R57): the value is the slot number less 1. -/
abbrev Slot := Fin 24

/-- A strand position of a line's lay, 0 to 12 (R58). -/
abbrev StrandPos := Fin 13

/-- One of the two scan links (R94). -/
inductive ScanLink where
  | k1 | k2
  deriving DecidableEq, Repr, Inhabited

/-- One of the two phases of a sensing channel (R22). -/
inductive Phase where
  | a | b
  deriving DecidableEq, Repr, Inhabited

/-- A change of a channel's levels as the input filter sees it (R22): the channel, the instant of the time base at which the
level changed, and for how many microseconds the new level held. -/
structure ChannelChange where
  channel : ChannelId
  date : Nat
  held : Nat
  deriving DecidableEq, Repr

/-- The levels of the field inputs that the part reads at power-on (R175): GUARD, HOLD REQ, the four COIL READY inputs,
and the two phases of the 32 channels, one bit each. -/
structure Pins where
  guardActive : Bool
  holdReq : Bool
  coilReady : PerLine Bool
  phaseA : BitVec 32
  phaseB : BitVec 32
  deriving DecidableEq, Repr

/-- The consumer named by CHANNEL SET field 3 (R33): a line or a head, with its number as sent. -/
inductive ConsumerArg where
  | line (n : Nat)
  | head (n : Nat)
  deriving DecidableEq, Repr

/-- The fields of CHANNEL SET (R33). -/
structure ChannelSetArgs where
  channel : Nat
  role : Nat
  consumer : ConsumerArg
  invert : Nat
  deriving DecidableEq, Repr

/-- The fields of HEAD SET (R77). -/
structure HeadSetArgs where
  head : Nat
  line : Nat
  position : Nat
  channel : Nat
  countsPerTurn : Nat
  offset : Nat
  zSense : Nat
  deriving DecidableEq, Repr

/-- The fields of LINE SET (R2), numbered 1 to 20 there; `none` is the absent code. -/
structure LineSetArgs where
  line : Nat
  kind : Nat
  haulChannel : Option Nat
  haulPitch : Nat
  wheelChannel : Option Nat
  wheelPitch : Option Nat
  authority : Nat
  slipWindow : Nat
  slipLimit : Nat
  spliceChannel : Option Nat
  spliceOffset : Option Nat
  spliceSpacing : Option Nat
  shaftChannel : Option Nat
  countsPerRev : Option Nat
  scanLink : Option Nat
  boardCount : Option Nat
  knotOffset : Option Nat
  markerPulse : Nat
  cutterPulse : Nat
  leader : Option Nat
  pairTolerance : Nat
  deriving DecidableEq, Repr

/-- The three fields of one strand position of a recipe (R58): twist target, hand, start trim. -/
structure PositionArgs where
  target : Option Nat
  hand : Option Nat
  startTrim : Option Int
  deriving DecidableEq, Repr

/-- The fields of a recipe as RECIPE STORE carries them (R58, R59); `none` is the absent code. -/
structure RecipeArgs where
  name : List Byte
  kind : Nat
  positions : Vector PositionArgs 13
  trimLimit : Nat
  gain : Nat
  slew : Nat
  tolerance : Nat
  window : Nat
  stallLength : Nat
  limitWindows : Nat
  columnsUsed : Option Nat
  gateOpen : Option Nat
  gateClose : Option Nat
  breakThreshold : Option Nat
  meshPitch : Option Nat
  meshTolerance : Option Nat
  stopOnBreak : Option Nat
  targetLength : Nat
  plusTolerance : Nat
  endZone : Nat
  markInterval : Nat
  bandCount : Nat
  deriving DecidableEq, Repr

/-- The commands. A request carries the tag the host chose (R172) and its fields. A channel event carries the change with its
date and its hold, and the new levels of the phases as wired, or the phase that changed. A change of another field input
carries for how many microseconds the new level holds (R15); where that is left out, it holds long enough. -/
inductive Instr where
  -- resets of the whole part
  | powerOn (pins : Pins)
  -- requests that set up the part
  | channelSet (tag : Byte) (f : ChannelSetArgs)
  | channelFree (tag : Byte) (channel : Nat)
  | channelRead (tag : Byte) (channel : Nat)
  | headSet (tag : Byte) (f : HeadSetArgs)
  | headFree (tag : Byte) (head : Nat)
  | lineSet (tag : Byte) (f : LineSetArgs)
  | laneSet (tag : Byte) (lane labelRequired travelLimit : Nat)
  | packSet (tag : Byte) (bandTimeout labelTimeout : Nat)
  | packMode (tag : Byte) (mode : Nat)
  | noticeLevel (tag : Byte) (cls level : Nat)
  -- recipes
  | recipeStore (tag : Byte) (slot : Nat) (f : RecipeArgs)
  | recipeRead (tag : Byte) (slot : Nat)
  | recipeFlush (tag : Byte) (slot : Nat)
  | recipePurge (tag : Byte) (slot : Nat)
  | lineBind (tag : Byte) (line slot : Nat)
  -- runs
  | runStart (tag : Byte) (line : Nat)
  | runEnd (tag : Byte) (line : Nat)
  | lineStop (tag : Byte) (line : Nat)
  | lineResume (tag : Byte) (line : Nat)
  | lineReset (tag : Byte) (line : Nat)
  | cutNow (tag : Byte) (line : Nat)
  -- packing station
  | laneEnable (tag : Byte) (lane : Nat)
  | laneDisable (tag : Byte) (lane : Nat)
  | packSuspend (tag : Byte)
  | packResume (tag : Byte)
  | headClear (tag : Byte)
  -- guard and reset
  | guardArm (tag : Byte)
  | guardClear (tag : Byte)
  | resetAll (tag : Byte)
  | resetTakesEffect
  -- reads
  | status (tag : Byte)
  | lineStatus (tag : Byte) (line : Nat)
  | headStatus (tag : Byte) (head : Nat)
  | snapshot (tag : Byte)
  | spansRead (tag : Byte) (line first : Nat)
  | splicesRead (tag : Byte) (line : Nat)
  | coilPeek (tag : Byte)
  | coilTake (tag : Byte) (line number : Nat)
  | portFlags (tag : Byte)
  | knotStatus (tag : Byte) (line column : Nat)
  | cutStatus (tag : Byte) (line : Nat)
  | packStatus (tag : Byte)
  -- events of the link
  | frameComplete (lastByte : Byte)
  | frameLengthBroken (length : Byte)
  | stopBitError
  | interByteGap
  | frameSent
  -- events of the sensing channels
  | quadratureCount (ch : ChannelChange) (phase : Phase)
  | illegalTransition (ch : ChannelChange)
  | periodSaturation (ch : ChannelId)
  | shaftEdge (ch : ChannelChange) (levelA levelB : Bool)
  | spliceEdge (ch : ChannelChange) (levelA levelB : Bool)
  -- pulses and the scan link
  | markerPulseEnd (line : LineId)
  | boardFrame (link : ScanLink) (bits : BitVec 10)
  | cutterPulseEnd (line : LineId)
  -- guard and packing inputs
  | guardEvent (held : Nat := 2)
  | coilReadyActive (lane : LineId) (held : Nat := 2)
  | coilReadyInactive (lane : LineId) (held : Nat := 2)
  | headAtLane (held : Nat := 2)
  | travelTimeout
  | bandDone (held : Nat := 2)
  | clampSlip (held : Nat := 2)
  | bandTimeout
  | labelDone (held : Nat := 2)
  | labelTimeout
  | holdReqActive (held : Nat := 2)
  | holdReqInactive (held : Nat := 2)
  -- level changes without further effect of their own
  | byteReceived (value : Byte)
  | guardInputChange (active : Bool) (held : Nat := 2)
  | phaseLevelChange (ch : ChannelChange) (levelA levelB : Bool)
  deriving DecidableEq, Repr

end Sys2Proof
end

