-- ==== Sys2Proof/Decode.lean ====
section
/-! DEFINITION. The command a word spells by the bits of spec/opcode_table.json. The table gives no row any bits (every
row's "fields" is empty and none has a "fixed"), so no word spells a command. What the bytes of a request frame spell
is the meaning of FRAME_COMPLETE (Machine/Payload.lean). -/

namespace Sys2Proof

/-- The command that `w` spells by the table's bits: none, as the table gives no row any bits. -/
def decodeTableWord (nbits w : Nat) : Option Instr :=
  match nbits, w with
  | _, _ => none

end Sys2Proof
end

