-- ==== Sys2Proof/Config.lean ====
section
/-! DEFINITION. The free values of the model: constants without a body, of which nothing can be proved.
Assumption log 18 says what they stand for. -/

namespace Sys2Proof

/-- Which order the part took, at the n-th place where several block events fall together inside one step and the
spec says that either may be taken first (R5, R53, R89, R116, R122), or gives no order at all.
A free value: it has no body, so every statement holds for every order. -/
opaque Config.freeOrder : Nat → Nat

end Sys2Proof
end

