-- ==== Sys2Proof/Machine/State.lean ====
section
/-! DEFINITION. The state of the CL-440 as plain data, block by block (file 00, Functional blocks), and the state
right after reset. -/

namespace Sys2Proof

/-- The value held for one line. -/
def PerLine.get {α : Type} (p : PerLine α) : LineId → α
  | .a => p.a
  | .b => p.b
  | .c => p.c
  | .d => p.d

/-- Replace the value held for one line. -/
def PerLine.set {α : Type} (p : PerLine α) (l : LineId) (x : α) : PerLine α :=
  match l with
  | .a => { p with a := x }
  | .b => { p with b := x }
  | .c => { p with c := x }
  | .d => { p with d := x }

/-- The same value for every line. -/
def PerLine.all {α : Type} (x : α) : PerLine α := ⟨x, x, x, x⟩

/-- The four lines in the order A, B, C, D. -/
def LineId.all : List LineId := [.a, .b, .c, .d]

namespace Machine

/-- Why the part would stop. Nothing in the spec stops the part: every error is an effect on its state (a refusal
reply, a port flag, a stop cause, a packing fault), so there is no constructor. Safe: no run ends. -/
inductive Fault where
  deriving DecidableEq, Repr

/-- Why a command has no meaning in the model. -/
inductive Refusal where
  /-- Raised by `exec` for a row of the opcode table that has no meaning yet. Safe: the run stops there. -/
  | notModelled (mnemonic : String)
  deriving DecidableEq, Repr

/-! ## Names shared by the blocks -/

/-- The product kind of a line or recipe (R1, R58). -/
inductive ProductKind where
  | rope | net
  deriving DecidableEq, Repr

/-- The states of a line (R4). -/
inductive LineState where
  | idle | running | stopRequested
  deriving DecidableEq, Repr

/-- The stop causes, in the order of R5. -/
inductive StopCause where
  | guard | host | twineBreak | flyerStall | trimExhausted | sensor | shaftIndex | boardFault | cutHeld | runLimit
  deriving DecidableEq, Repr

/-- A line's stop-cause set (R1): for each cause of R5, whether it is in the set. -/
structure CauseSet where
  guard : Bool
  host : Bool
  twineBreak : Bool
  flyerStall : Bool
  trimExhausted : Bool
  sensor : Bool
  shaftIndex : Bool
  boardFault : Bool
  cutHeld : Bool
  runLimit : Bool
  deriving DecidableEq, Repr

/-- The set without a cause. -/
def CauseSet.empty : CauseSet := ⟨false, false, false, false, false, false, false, false, false, false⟩

/-- The roles of a channel, in the order of R21. -/
inductive Role where
  | free | haul | wheel | flyer | shaft | splice
  deriving DecidableEq, Repr

/-- The consumer of a channel: a line or a twisting head (R21). -/
inductive Consumer where
  | line (l : LineId)
  | head (h : HeadId)
  deriving DecidableEq, Repr

/-- The channel a line's position is taken from (R2 field 6). -/
inductive Authority where
  | haul | wheel
  deriving DecidableEq, Repr

/-- The hand of twist (R58). -/
inductive Hand where
  | s | z
  deriving DecidableEq, Repr

/-- The sign of flyer count that means Z twist (R75). -/
inductive ZSense where
  | plus | minus
  deriving DecidableEq, Repr

/-! ## Sensing Channel Unit -/

/-- An entry of the channel table (R21). The phase reference is also the pair of filtered levels as wired (R35).
The period timer is held as the date of the last qualifying edge on the time base. -/
structure Channel where
  role : Role
  consumer : Option Consumer
  invert : Bool
  count : BitVec 32
  refA : Bool
  refB : Bool
  timerFrom : Option Nat
  lastPeriod : Option Nat
  tally : Nat
  capture : Option Nat
  deriving DecidableEq, Repr

/-! ## Line Controller -/

/-- The configuration of a line: fields 2 to 20 of R2, as stored. -/
structure LineConfig where
  haulChannel : Option ChannelId
  haulPitch : Nat
  wheelChannel : Option ChannelId
  wheelPitch : Option Nat
  authority : Authority
  slipWindow : Nat
  slipLimit : Nat
  spliceChannel : Option ChannelId
  spliceOffset : Option Nat
  spliceSpacing : Option Nat
  shaftChannel : Option ChannelId
  countsPerRev : Option Nat
  scanLink : Option ScanLink
  boardCount : Option Nat
  knotOffset : Option Nat
  markerPulse : Nat
  cutterPulse : Nat
  leader : Option LineId
  pairTolerance : Nat
  deriving DecidableEq, Repr

/-- The defaults of R2. -/
def LineConfig.default : LineConfig where
  haulChannel := none
  haulPitch := 100000
  wheelChannel := none
  wheelPitch := none
  authority := .haul
  slipWindow := 10000
  slipLimit := 20
  spliceChannel := none
  spliceOffset := none
  spliceSpacing := none
  shaftChannel := none
  countsPerRev := none
  scanLink := none
  boardCount := none
  knotOffset := none
  markerPulse := 100
  cutterPulse := 200
  leader := none
  pairTolerance := 0

/-- A line record of the LC (R1). The leader is field 19 of the configuration. -/
structure LineRec where
  kind : ProductKind
  state : LineState
  causes : CauseSet
  bound : Option Slot
  pendingRecipe : Option Slot
  cfg : LineConfig
  reverseClamp : Bool
  warmStart : Bool
  deriving DecidableEq, Repr

/-- The guard (R15, R16): the input (`true` is active), whether monitoring is armed, and the latch. -/
structure Guard where
  inputActive : Bool
  armed : Bool
  latch : Bool
  deriving DecidableEq, Repr

/-! ## Line Position Unit -/

/-- An open slip window (R48, R49): its start and the two signed advances, in nanometres. -/
structure SlipWindow where
  start : Nat
  authAdvance : Int
  otherAdvance : Int
  deriving DecidableEq, Repr

/-- The LPU's fields for a line (R37). The floor is the open coil's start, held by the CA. The marker pulse holds its
end instant while active; the marker output is asserted exactly then (R55). -/
structure PositionRec where
  position : Nat
  slip : Option SlipWindow
  markTarget : Option Nat
  markerPulse : Option Nat
  deriving DecidableEq, Repr

/-! ## Recipe Store -/

/-- What a recipe holds for a strand position that has a twist target (R58). -/
structure PositionSpec where
  target : Nat
  hand : Hand
  startTrim : Int
  deriving DecidableEq, Repr

/-- Fields 49 to 55 of a NET recipe (R58). -/
structure KnotSpec where
  columnsUsed : Nat
  gateOpen : Nat
  gateClose : Nat
  breakThreshold : Nat
  meshPitch : Nat
  meshTolerance : Nat
  stopOnBreak : Bool
  deriving DecidableEq, Repr

/-- A recipe (R58). -/
structure Recipe where
  name : List Byte
  kind : ProductKind
  positions : Vector (Option PositionSpec) 13
  trimLimit : Nat
  gain : Nat
  slew : Nat
  tolerance : Nat
  window : Nat
  stallLength : Nat
  limitWindows : Nat
  knot : Option KnotSpec
  targetLength : Nat
  plusTolerance : Nat
  endZone : Nat
  markInterval : Nat
  bandCount : Nat
  deriving DecidableEq, Repr

/-- The states of a working copy (R66). -/
inductive CopyState where
  | invalid | clean | dirty
  deriving DecidableEq, Repr

/-- A head's working copy (R66). -/
structure WorkingCopy where
  slot : Option Slot
  state : CopyState
  learned : Int
  deriving DecidableEq, Repr

/-! ## Twist Supervisor -/

/-- The settings HEAD SET gives an assigned head (R75, R78). -/
structure HeadSettings where
  line : LineId
  position : StrandPos
  channel : ChannelId
  countsPerTurn : Nat
  offset : Nat
  zSense : ZSense
  deriving DecidableEq, Repr

/-- An open twist window with the stall reference (R75). -/
structure TwistWindow where
  start : Nat
  count : Int
  stallRef : Nat
  deriving DecidableEq, Repr

/-- The kinds of a closed window (R85). -/
inductive WindowKind where
  | normal | backlash | hand
  deriving DecidableEq, Repr

/-- The last window flags (R75). -/
structure WindowFlags where
  kind : WindowKind
  densityClamp : Bool
  corrected : Bool
  deriving DecidableEq, Repr

/-- An entry of the head table (R75). `settings` is absent for an UNASSIGNED head. -/
structure HeadRec where
  settings : Option HeadSettings
  trim : Int
  window : Option TwistWindow
  stall : Bool
  handFault : Bool
  limitCount : Nat
  lastDensity : Option Nat
  lastDeviation : Option Int
  lastFlags : Option WindowFlags
  deriving DecidableEq, Repr

/-! ## Span Recorder -/

/-- The kinds of a fault span (R115), in the order of R172. -/
inductive SpanKind where
  | twist | hand | stall | knot | break | mesh | slip | unseen
  deriving DecidableEq, Repr

/-- The source of a fault span (R115); a column is numbered 1 to 64. -/
inductive SpanSource where
  | head (h : HeadId)
  | column (c : Nat)
  | line
  deriving DecidableEq, Repr

/-- The key of a span (R115): its kind, with BREAK counted as KNOT, and its source. -/
structure SpanKey where
  kind : SpanKind
  source : SpanSource
  deriving DecidableEq, Repr

/-- An entry of a fault span list (R115). -/
structure SpanEntry where
  kind : SpanKind
  source : SpanSource
  start : Nat
  stop : Option Nat
  isOpen : Bool
  worst : Nat
  carried : Bool
  arrival : Nat
  deriving DecidableEq, Repr

/-- The SR's fields for a line (R114). -/
structure SpanRec where
  spans : List SpanEntry
  splices : List Nat
  lostSpans : Nat
  lostSplices : Nat
  lostKeys : List SpanKey
  arrival : Nat
  edition : Nat
  deriving DecidableEq, Repr

/-! ## Coil Assembler -/

/-- A span as a coil record holds it (R115, R140): coordinates in millimetres. -/
structure SpanCopy where
  kind : SpanKind
  source : SpanSource
  start : Nat
  stop : Nat
  worst : Nat
  carried : Bool
  continues : Bool
  deriving DecidableEq, Repr

/-- The flags of a closed coil (R136). -/
structure CoilFlags where
  short : Bool
  overlength : Bool
  cutShifted : Bool
  endSplice : Bool
  endOfRun : Bool
  paired : Bool
  pairMismatch : Bool
  deriving DecidableEq, Repr

/-- A closed coil record (R140). -/
structure CoilRecord where
  line : LineId
  number : Nat
  slot : Slot
  start : Nat
  stop : Nat
  length : Nat
  marks : Nat
  suppressed : Nat
  bandCount : Nat
  flags : CoilFlags
  partner : Option (LineId × Nat)
  splices : List Nat
  lostSplices : Nat
  spans : List SpanCopy
  lostSpans : Nat
  cutTime : Nat
  attempts : Nat
  bandsDone : Nat
  restarts : Nat
  packTime : Option Nat
  deriving DecidableEq, Repr

/-- The open coil (R127). -/
structure OpenCoil where
  slot : Slot
  start : Nat
  marks : Nat
  suppressed : Nat
  deriving DecidableEq, Repr

/-- A cut placement (R131): the target and the placement flags. -/
structure Placement where
  target : Nat
  shifted : Bool
  endSplice : Bool
  deriving DecidableEq, Repr

/-- The cut state with the cut target and placement flags it holds (R127). -/
inductive CutStage where
  | none
  | placed (p : Placement)
  | held (p : Placement)
  deriving DecidableEq, Repr

/-- The CA's fields for a line (R127). The cutter pulse holds its end instant while active; the cutter output is
asserted exactly then (R135). -/
structure CoilRec where
  number : Nat
  coil : Option OpenCoil
  stage : CutStage
  pairedHold : Bool
  cutterPulse : Option Nat
  deriving DecidableEq, Repr

/-- The hold reasons of a cut (R132). -/
structure HoldSet where
  guard : Bool
  queueFull : Bool
  pulse : Bool
  followerQueueFull : Bool
  followerPulse : Bool
  deriving DecidableEq, Repr

/-! ## Knot Supervisor -/

/-- The sync state of a shaft (R93). -/
inductive SyncState where
  | unsynced | synced | lost
  deriving DecidableEq, Repr

/-- The kind of a column's open span (R93). -/
inductive ColumnSpanKind where
  | knot | break
  deriving DecidableEq, Repr

/-- A column history (R93): the consecutive-miss count and the open span with its start. -/
structure ColumnHistory where
  misses : Nat
  span : Option (ColumnSpanKind × Nat)
  deriving DecidableEq, Repr

/-- How a scan ended (R100). -/
inductive ScanOutcome where
  | complete | short | long | overrun
  deriving DecidableEq, Repr

/-- What a board's frame gave in a scan (R105). -/
inductive BoardMark where
  | good | bad | unread
  deriving DecidableEq, Repr

/-- The judgment of a column in a row (R105). -/
inductive ColumnMark where
  | tied | missed | unknown
  deriving DecidableEq, Repr

/-- The last scan result (R105). The numbers of columns of each result are counted from `columns`. -/
structure ScanResult where
  row : Nat
  coordinate : Nat
  outcome : ScanOutcome
  boards : List BoardMark
  endBoard : Option Nat
  columns : List ColumnMark
  deriving DecidableEq, Repr

/-- The KS's fields for a line (R93), and the gate counts taken at the last shaft arrival (R97). -/
structure KnotRec where
  sync : SyncState
  angle : Nat
  gateTaken : Option (Nat × Nat)
  rowIndex : Nat
  lastRowPos : Option Nat
  lastRowCoord : Option Nat
  columns : Vector ColumnHistory 64
  meshSpan : Option Nat
  unseenSpan : Option Nat
  lastScan : Option ScanResult
  deriving DecidableEq, Repr

/-- The power-on values of R93. -/
def KnotRec.powerOn : KnotRec where
  sync := .unsynced
  angle := 0
  gateTaken := none
  rowIndex := 0
  lastRowPos := none
  lastRowCoord := none
  columns := Vector.replicate 64 ⟨0, none⟩
  meshSpan := none
  unseenSpan := none
  lastScan := none

/-- A board frame read in a scan (R101): whether its parity was good, and its eight column bits. -/
structure BoardRead where
  good : Bool
  bits : BitVec 8
  deriving DecidableEq, Repr

/-- A scan in progress (R94): the row's gate-close position and the frames read, board 1 first. The next board to read
is the number of frames read plus 1. -/
structure Scan where
  closePos : Nat
  frames : List BoardRead
  deriving DecidableEq, Repr

/-- The chain states (R94). -/
inductive ChainState where
  | normal | short | long
  deriving DecidableEq, Repr

/-- The KS's fields for a scan link (R94). -/
structure LinkRec where
  gate : Bool
  scan : Option Scan
  parity : Vector Nat 8
  chain : ChainState
  deriving DecidableEq, Repr

/-- The power-on values of R94. -/
def LinkRec.powerOn : LinkRec := ⟨false, none, Vector.replicate 8 0, .normal⟩

/-! ## Packing Arbiter -/

/-- The enable of a lane (R144). -/
inductive LaneEnable where
  | disabled | faulted | enabled
  deriving DecidableEq, Repr

/-- A lane record (R144), with the level of its COIL READY input. -/
structure LaneRec where
  enable : LaneEnable
  labelRequired : Bool
  travelLimit : Nat
  coilReady : Bool
  rearmed : Bool
  disablePending : Bool
  queue : List CoilRecord
  deriving DecidableEq, Repr

/-- The states of the packing head (R148). -/
inductive PackState where
  | free | travel | banding | labelling | suspended | held | guarded | fault
  deriving DecidableEq, Repr

/-- The steps of a service (R148): a band is numbered 1 to 8. -/
inductive PackStep where
  | travel
  | band (k : Nat)
  | label
  deriving DecidableEq, Repr

/-- The grant modes (R148). -/
inductive GrantMode where
  | fixed | rotating
  deriving DecidableEq, Repr

/-- The faults of the station (R154). -/
inductive PackFault where
  | travelTimeout | bandTimeout | slipExcess | labelTimeout
  deriving DecidableEq, Repr

/-- The head record (R148), the timeouts of PACK SET (R145), the level of HOLD REQ, and the arrival step of a travel
made by PACK RESUME (R151). The step timer is held as its end instant. `bandRepeats` is set while the service held in
abeyance or suspended stands at a band that the guard event broke off, which keeps its restarts (R156, R158). -/
structure PackRec where
  state : PackState
  position : Option LineId
  attached : Option LineId
  step : Option PackStep
  arrivalStep : Option PackStep
  restarts : Nat
  bandRepeats : Bool
  abeyance : Option (LineId × PackStep)
  suspendPending : Bool
  holdPending : Bool
  holdReq : Bool
  mode : GrantMode
  rotation : List LineId
  reserved : Nat
  stepTimer : Option Nat
  bandTimeout : Nat
  labelTimeout : Nat
  deriving DecidableEq, Repr

/-! ## Message Link -/

/-- The notice classes, in the order of section 10.4 (code 1 to 11). -/
inductive NoticeClass where
  | coilCut | coilPacked | cutHeld | stopRequested | twineBreak | headFault | scanFault | spanOverflow | suspended
  | recipeApplied | guard
  deriving DecidableEq, Repr

/-- The reasons of SCAN_FAULT (R113). -/
inductive ScanFaultReason where
  | boardFault | chainShort | chainLong
  deriving DecidableEq, Repr

/-- The causes of SUSPENDED (R160). -/
inductive SuspendCause where
  | host | guard
  deriving DecidableEq, Repr

/-- The fields of a notice beside its line or lane and its time stamp (R20, R65, R113, R125, R143, R160). Lengths and
coordinates are in millimetres. -/
inductive NoticeBody where
  | coilCut (number start stop length : Nat) (flags : CoilFlags) (partner : Option (LineId × Nat)) (queued : Nat)
  | coilPacked (number attempts bandsDone restarts packTime completed : Nat)
  | cutHeld (number target position : Nat) (holds : HoldSet)
  | stopRequested (cause : StopCause) (causes : CauseSet)
  | twineBreak (column row start count : Nat) (added : Bool)
  | headFault (fault : PackFault) (step : Option PackStep) (number bandsDone restarts : Nat)
  | scanFault (link : ScanLink) (reason : ScanFaultReason) (board : Option Nat) (row : Nat)
  | spanOverflow (kind : SpanKind) (source : SpanSource) (start position : Nat)
  | spliceOverflow (coordinate position : Nat)
  | suspended (cause : SuspendCause) (attached : Option LineId) (step : Option PackStep)
  | recipeApplied (before : Option Slot) (now : Slot) (number written : Nat) (atRunStart : Bool)
  | guardSet (moved : List LineId)
  | guardCleared
  deriving DecidableEq, Repr

/-- A notice in the queue (R170, R171): the level it was offered at, its line or lane, the time stamp of its event. -/
structure Notice where
  level : Nat
  line : Option LineId
  stamp : Nat
  body : NoticeBody
  deriving DecidableEq, Repr

/-- A frame of the part (R172), less start byte, length and CRC, which follow from it. -/
structure Frame where
  kind : Byte
  tag : Byte
  payload : List Byte
  deriving DecidableEq, Repr

/-- The receiver (R161): HUNT, or FRAME with the bytes taken since the start byte. -/
inductive Receiver where
  | hunt
  | frame (got : List Byte)
  deriving DecidableEq, Repr

/-- A request in the request buffer (R163): its kind and tag. -/
structure Request where
  kind : Byte
  tag : Byte
  deriving DecidableEq, Repr

/-- The port flags (R167). -/
structure PortFlags where
  framing : Bool
  crc : Bool
  unknownKind : Bool
  badTarget : Bool
  overrun : Bool
  deriving DecidableEq, Repr

/-- All port flags clear. -/
def PortFlags.clear : PortFlags := ⟨false, false, false, false, false⟩

/-- The ML's state (R161 to R171). A reply being sent has left the reply queue; its request is still in the buffer. -/
structure Link where
  receiver : Receiver
  rxLast : Nat
  buffer : List Request
  replies : List Frame
  sending : Option Frame
  flags : PortFlags
  levels : Vector Nat 11
  notices : List Notice
  lost : Nat
  deriving DecidableEq, Repr

/-! ## The state -/

/-- The whole state. `pending` is the queue of waiting commands and `choices` the counter of free orders taken; both are
the model's own. `now` is the 1 MHz time base, `epoch` its value where the time stamp is 0 (R168). -/
structure State where
  now : Nat
  epoch : Nat
  link : Link
  guard : Guard
  channels : Vector Channel 32
  lines : PerLine LineRec
  positions : PerLine PositionRec
  slots : Vector (Option Recipe) 24
  copies : Vector WorkingCopy 16
  heads : Vector HeadRec 16
  drivenDuty : Vector Nat 16
  knots : PerLine KnotRec
  linkK1 : LinkRec
  linkK2 : LinkRec
  spanRecs : PerLine SpanRec
  coils : PerLine CoilRec
  lanes : PerLine LaneRec
  pack : PackRec
  completed : List CoilRecord
  choices : Nat
  pending : List Instr
  deriving DecidableEq, Repr

/-! ## Reset -/

/-- The default levels of section 10.4. -/
def defaultLevels : Vector Nat 11 := #v[1, 1, 2, 2, 2, 2, 1, 1, 1, 0, 3]

/-- A channel at power-on (R21), with its phase reference at the levels found. -/
def Channel.powerOn (levelA levelB : Bool) : Channel where
  role := .free
  consumer := none
  invert := false
  count := 0
  refA := levelA
  refB := levelB
  timerFrom := none
  lastPeriod := none
  tally := 0
  capture := none

/-- A head at power-on (R75). -/
def HeadRec.powerOn : HeadRec where
  settings := none
  trim := 0
  window := none
  stall := false
  handFault := false
  limitCount := 0
  lastDensity := none
  lastDeviation := none
  lastFlags := none

/-- A line record at power-on (R1, R2). -/
def LineRec.powerOn : LineRec where
  kind := .rope
  state := .idle
  causes := .empty
  bound := none
  pendingRecipe := none
  cfg := .default
  reverseClamp := false
  warmStart := false

/-- A lane record at power-on (R144): rearmed is set if the input is inactive. -/
def LaneRec.powerOn (coilReady : Bool) : LaneRec where
  enable := .disabled
  labelRequired := false
  travelLimit := 20
  coilReady := coilReady
  rearmed := !coilReady
  disablePending := false
  queue := []

/-- The head record at power-on (R145, R148). HOLD REQ active then is taken as becoming active while the head is FREE:
the head is HELD, position UNKNOWN (R175). -/
def PackRec.powerOn (holdReq : Bool) : PackRec where
  state := if holdReq then .held else .free
  position := none
  attached := none
  step := none
  arrivalStep := none
  restarts := 0
  bandRepeats := false
  abeyance := none
  suspendPending := false
  holdPending := false
  holdReq := holdReq
  mode := .fixed
  rotation := LineId.all
  reserved := 0
  stepTimer := none
  bandTimeout := 10
  labelTimeout := 10

/-- The ML at power-on (R161 to R171). -/
def Link.powerOn : Link where
  receiver := .hunt
  rxLast := 0
  buffer := []
  replies := []
  sending := none
  flags := .clear
  levels := defaultLevels
  notices := []
  lost := 0

/-- Every block at its power-on values with the input levels found (R174, R175). -/
def State.powerUp (pins : Pins) : State where
  now := 0
  epoch := 0
  link := .powerOn
  guard := ⟨pins.guardActive, false, false⟩
  channels := Vector.ofFn fun i => Channel.powerOn (pins.phaseA.getLsbD i.val) (pins.phaseB.getLsbD i.val)
  lines := .all .powerOn
  positions := .all ⟨0, none, none, none⟩
  slots := Vector.replicate 24 none
  copies := Vector.replicate 16 ⟨none, .invalid, 0⟩
  heads := Vector.replicate 16 .powerOn
  drivenDuty := Vector.replicate 16 5000
  knots := .all .powerOn
  linkK1 := .powerOn
  linkK2 := .powerOn
  spanRecs := .all ⟨[], [], 0, 0, [], 0, 0⟩
  coils := .all ⟨1, none, .none, false, none⟩
  lanes := ⟨.powerOn pins.coilReady.a, .powerOn pins.coilReady.b, .powerOn pins.coilReady.c, .powerOn pins.coilReady.d⟩
  pack := .powerOn pins.holdReq
  completed := []
  choices := 0
  pending := []

/-- Every input inactive or low (DESIGN CHOICE, assumption log 7). -/
def quietPins : Pins := ⟨false, false, .all false, 0, 0⟩

/-- The part right after power-on, every input inactive, and no command waiting. -/
def State.reset : State := State.powerUp quietPins

end Machine

end Sys2Proof
end

