-- ==== Sys2Proof/Machine/Ops.lean ====
section
/-! DEFINITION. The named operations on the state: reading and changing one block's record, time, free orders, the
queue of notices, stop causes, and the levels of the outputs. -/

namespace Sys2Proof.Machine

/-! ## Records of the blocks -/

def State.line (s : State) (l : LineId) : LineRec := s.lines.get l
def State.pos (s : State) (l : LineId) : PositionRec := s.positions.get l
def State.knot (s : State) (l : LineId) : KnotRec := s.knots.get l
def State.spanRec (s : State) (l : LineId) : SpanRec := s.spanRecs.get l
def State.coilRec (s : State) (l : LineId) : CoilRec := s.coils.get l
def State.lane (s : State) (l : LineId) : LaneRec := s.lanes.get l
def State.channel (s : State) (ch : ChannelId) : Channel := s.channels.get ch
def State.head (s : State) (h : HeadId) : HeadRec := s.heads.get h
def State.copy (s : State) (h : HeadId) : WorkingCopy := s.copies.get h
def State.recipe (s : State) (n : Slot) : Option Recipe := s.slots.get n
def State.scanLink (s : State) : ScanLink → LinkRec
  | .k1 => s.linkK1
  | .k2 => s.linkK2

def State.modLine (s : State) (l : LineId) (f : LineRec → LineRec) : State :=
  { s with lines := s.lines.set l (f (s.line l)) }
def State.modPos (s : State) (l : LineId) (f : PositionRec → PositionRec) : State :=
  { s with positions := s.positions.set l (f (s.pos l)) }
def State.modKnot (s : State) (l : LineId) (f : KnotRec → KnotRec) : State :=
  { s with knots := s.knots.set l (f (s.knot l)) }
def State.modSpanRec (s : State) (l : LineId) (f : SpanRec → SpanRec) : State :=
  { s with spanRecs := s.spanRecs.set l (f (s.spanRec l)) }
def State.modCoil (s : State) (l : LineId) (f : CoilRec → CoilRec) : State :=
  { s with coils := s.coils.set l (f (s.coilRec l)) }
def State.modLane (s : State) (l : LineId) (f : LaneRec → LaneRec) : State :=
  { s with lanes := s.lanes.set l (f (s.lane l)) }
def State.modChannel (s : State) (ch : ChannelId) (f : Channel → Channel) : State :=
  { s with channels := s.channels.set ch.val (f (s.channel ch)) ch.isLt }
def State.modHead (s : State) (h : HeadId) (f : HeadRec → HeadRec) : State :=
  { s with heads := s.heads.set h.val (f (s.head h)) h.isLt }
def State.setCopy (s : State) (h : HeadId) (c : WorkingCopy) : State :=
  { s with copies := s.copies.set h.val c h.isLt }
def State.setRecipe (s : State) (n : Slot) (r : Option Recipe) : State :=
  { s with slots := s.slots.set n.val r n.isLt }
def State.modScanLink (s : State) (k : ScanLink) (f : LinkRec → LinkRec) : State :=
  match k with
  | .k1 => { s with linkK1 := f s.linkK1 }
  | .k2 => { s with linkK2 := f s.linkK2 }
def State.modLink (s : State) (f : Link → Link) : State := { s with link := f s.link }
def State.modPack (s : State) (f : PackRec → PackRec) : State := { s with pack := f s.pack }

/-- All heads in ascending number. -/
def allHeads : List HeadId := List.finRange 16

/-- All channels in ascending number. -/
def allChannels : List ChannelId := List.finRange 32

/-! ## Lines, leaders and followers -/

/-- A run is open: RUNNING or STOP_REQUESTED (R4). -/
def State.runOpen (s : State) (l : LineId) : Bool := decide ((s.line l).state ≠ .idle)

/-- The follower of a line: the line whose record names it as leader (R1). R3 keeps this to one. -/
def State.follower (s : State) (l : LineId) : Option LineId :=
  LineId.all.find? fun x => (s.line x).cfg.leader == some l

/-- The follower of a line while the follower's run is open (R9, R132, R138). -/
def State.runningFollower (s : State) (l : LineId) : Option LineId :=
  (s.follower l).filter fun x => s.runOpen x

/-- Whether a line names a leader whose run is open (R7, R9, R130, R137). -/
def State.leaderRunning (s : State) (l : LineId) : Bool :=
  match (s.line l).cfg.leader with
  | some x => s.runOpen x
  | none => false

/-- The heads assigned to a line (R75), in ascending number. -/
def State.headsOf (s : State) (l : LineId) : List HeadId :=
  allHeads.filter fun h =>
    match (s.head h).settings with
    | some t => t.line == l
    | none => false

/-- The recipe a line is bound to. -/
def State.boundRecipe (s : State) (l : LineId) : Option Recipe := (s.line l).bound.bind s.recipe

/-- The recipe the open coil was opened under (R127). -/
def State.coilRecipe (s : State) (l : LineId) : Option Recipe := (s.coilRec l).coil.bind fun c => s.recipe c.slot

/-- What the bound recipe holds for nets (R58 fields 49 to 55). -/
def State.knotSpec (s : State) (l : LineId) : Option KnotSpec := (s.boundRecipe l).bind (·.knot)

/-- The open coil's start; 0 without an open coil. The LPU's floor is this value (R37). -/
def State.coilStart (s : State) (l : LineId) : Nat :=
  match (s.coilRec l).coil with
  | some c => c.start
  | none => 0

/-- The line that owns a scan link: of kind NET and naming it in field 14 (R94). -/
def State.linkOwner (s : State) (k : ScanLink) : Option LineId :=
  LineId.all.find? fun l => (s.line l).kind == .net && (s.line l).cfg.scanLink == some k

/-- Nanometres in a millimetre. -/
def nmPerMm : Nat := 1000000

/-- The ceiling of a position: 2^47 - 1 nm (R40). -/
def ceiling : Nat := 140737488355327

/-- A number limited to `-b` to `b`. -/
def clampAbs (b : Nat) (x : Int) : Int := if x < -(b : Int) then -(b : Int) else if (b : Int) < x then b else x

/-! ## Which channel serves which line (R32) -/

/-- The line a channel serves: its entry and the consumer's configuration name each other. -/
def State.servedLine (s : State) (ch : ChannelId) : Option LineId :=
  match (s.channel ch).role, (s.channel ch).consumer with
  | .haul, some (.line l) => if (s.line l).cfg.haulChannel = some ch then some l else none
  | .wheel, some (.line l) => if (s.line l).cfg.wheelChannel = some ch then some l else none
  | .splice, some (.line l) => if (s.line l).cfg.spliceChannel = some ch then some l else none
  | .shaft, some (.line l) =>
    if (s.line l).kind = .net ∧ (s.line l).cfg.shaftChannel = some ch then some l else none
  | .flyer, some (.head h) =>
    match (s.head h).settings with
    | some t => if t.channel = ch then some t.line else none
    | none => none
  | _, _ => none

/-- Whether a channel is a flyer channel that serves the head. -/
def State.servesHead (s : State) (ch : ChannelId) (h : HeadId) : Bool :=
  (s.channel ch).role == .flyer && (s.channel ch).consumer == some (.head h) && (s.servedLine ch).isSome

/-- The consuming line of an entry, tested for IN_USE (section 2.8). -/
def State.consumingLine (s : State) : Option Consumer → Option LineId
  | some (.line l) => some l
  | some (.head h) => (s.head h).settings.map (·.line)
  | none => none

/-- The channels that serve a line or one of its heads. -/
def State.channelsOf (s : State) (l : LineId) : List ChannelId :=
  allChannels.filter fun ch => s.servedLine ch == some l

/-! ## Time (file 00, Time) -/

/-- The time stamp: milliseconds since power-on or RESET ALL, 32 bits wrapping (R168). -/
def State.stamp (s : State) : Nat := (s.now - s.epoch) / 1000 % 4294967296

/-- The duty R81 gives a head's trim output, in hundredths of a percent. -/
def HeadRec.duty (h : HeadRec) : Nat :=
  match h.settings with
  | some _ => (5000 + h.trim.tdiv 2).toNat
  | none => 5000

/-- Move the time base on to an instant. A trim output takes its head's duty at the start of each 1 ms period (R81). -/
def State.advanceTo (s : State) (t : Nat) : State :=
  if t ≤ s.now then s
  else { s with
    now := t
    drivenDuty := if s.now / 1000 < t / 1000 then s.heads.map HeadRec.duty else s.drivenDuty }

/-- One microsecond of the time base passes and no command is there (assumption log 2). -/
def State.tick (s : State) : State := s.advanceTo (s.now + 1)

/-! ## The input filter (R15, R22; file 11, Field connections) -/

/-- Every field input passes the 2 microsecond filter: a new level that returns sooner is ignored, another is taken. -/
def State.ifHeld (s : State) (held : Nat) (take : State → State) : State := if held < 2 then s else take s

/-! ## Free orders (assumption log 18) -/

/-- Put an element at a place of a list. -/
def insertAt {α : Type} : Nat → α → List α → List α
  | 0, x, ys => x :: ys
  | _ + 1, x, [] => [x]
  | n + 1, x, y :: ys => y :: insertAt n x ys

/-- The elements of a list in a free order. A list of at most one element is left as it is. -/
def freelyOrdered {α : Type} (seed : Nat) : List α → List α
  | [] => []
  | [x] => [x]
  | x :: xs => insertAt (Config.freeOrder (seed + xs.length) % (xs.length + 1)) x (freelyOrdered seed xs)

/-- Make the events of a list one after another. The counter of free orders moves past the choices that a free order of
so many events takes. -/
def State.inOrder {α : Type} (s : State) (events : List α) (run : State → α → State) : State :=
  events.foldl run { s with choices := s.choices + (events.length - 1) }

/-- Make the events of a list one after another, in a free order. -/
def State.inAnyOrder {α : Type} (s : State) (events : List α) (run : State → α → State) : State :=
  s.inOrder (freelyOrdered s.choices events) run

/-! ## Notices (R170, R171) -/

/-- The class of a notice. -/
def NoticeBody.cls : NoticeBody → NoticeClass
  | .coilCut .. => .coilCut
  | .coilPacked .. => .coilPacked
  | .cutHeld .. => .cutHeld
  | .stopRequested .. => .stopRequested
  | .twineBreak .. => .twineBreak
  | .headFault .. => .headFault
  | .scanFault .. => .scanFault
  | .spanOverflow .. => .spanOverflow
  | .spliceOverflow .. => .spanOverflow
  | .suspended .. => .suspended
  | .recipeApplied .. => .recipeApplied
  | .guardSet .. => .guard
  | .guardCleared => .guard

/-- A class's place in the table of section 10.4: its code less 1. -/
def NoticeClass.index : NoticeClass → Fin 11
  | .coilCut => 0
  | .coilPacked => 1
  | .cutHeld => 2
  | .stopRequested => 3
  | .twineBreak => 4
  | .headFault => 5
  | .scanFault => 6
  | .spanOverflow => 7
  | .suspended => 8
  | .recipeApplied => 9
  | .guard => 10

/-- The level a class stands at (R170). -/
def State.levelOf (s : State) (c : NoticeClass) : Nat := s.link.levels.get c.index

/-- A notice at its place: after every notice of its level or above (R171). -/
def insertNotice (n : Notice) : List Notice → List Notice
  | [] => [n]
  | m :: ms => if m.level < n.level then n :: m :: ms else m :: insertNotice n ms

/-- A queue of notices after an offer, and how many notices were lost by it (R171). The last notice of the queue is the
newest of its lowest level. -/
def offerToQueue (n : Notice) (q : List Notice) : List Notice × Nat :=
  if q.length < 32 then (insertNotice n q, 0)
  else
    match q.getLast? with
    | some m => if m.level < n.level then (insertNotice n q.dropLast, 1) else (q, 1)
    | none => (insertNotice n q, 0)

/-- A block offers a notice (R170, R171). A class at level 0 is not offered at all. -/
def State.notify (s : State) (line : Option LineId) (body : NoticeBody) : State :=
  if s.levelOf body.cls = 0 then s
  else
    let r := offerToQueue ⟨s.levelOf body.cls, line, s.stamp, body⟩ s.link.notices
    s.modLink fun k => { k with notices := r.1, lost := min 65535 (k.lost + r.2) }

/-! ## Stop causes (R5, R6) -/

def CauseSet.has (c : CauseSet) : StopCause → Bool
  | .guard => c.guard
  | .host => c.host
  | .twineBreak => c.twineBreak
  | .flyerStall => c.flyerStall
  | .trimExhausted => c.trimExhausted
  | .sensor => c.sensor
  | .shaftIndex => c.shaftIndex
  | .boardFault => c.boardFault
  | .cutHeld => c.cutHeld
  | .runLimit => c.runLimit

def CauseSet.put (c : CauseSet) (x : StopCause) (v : Bool) : CauseSet :=
  match x with
  | .guard => { c with guard := v }
  | .host => { c with host := v }
  | .twineBreak => { c with twineBreak := v }
  | .flyerStall => { c with flyerStall := v }
  | .trimExhausted => { c with trimExhausted := v }
  | .sensor => { c with sensor := v }
  | .shaftIndex => { c with shaftIndex := v }
  | .boardFault => { c with boardFault := v }
  | .cutHeld => { c with cutHeld := v }
  | .runLimit => { c with runLimit := v }

def CauseSet.add (c : CauseSet) (x : StopCause) : CauseSet := c.put x true
def CauseSet.drop (c : CauseSet) (x : StopCause) : CauseSet := c.put x false

/-- What LINE RESET and RUN END leave of a set: GUARD, if it was there (R10, R13). -/
def CauseSet.guardOnly (c : CauseSet) : CauseSet := { CauseSet.empty with guard := c.guard }

/-- A block offers a stop cause to a line (R5). -/
def State.offerCause (s : State) (l : LineId) (x : StopCause) : State :=
  match (s.line l).state with
  | .running =>
    let s1 := s.modLine l fun r => { r with state := .stopRequested, causes := r.causes.add x }
    if x = .guard then s1 else s1.notify (some l) (.stopRequested x (s1.line l).causes)
  | .stopRequested => s.modLine l fun r => { r with causes := r.causes.add x }
  | .idle => if x = .guard then s.modLine l fun r => { r with causes := r.causes.add x } else s

/-- The CA removes CUT_HELD from a line's set; if it was the last cause the line returns to RUNNING (R6, R12). -/
def State.removeCutHeld (s : State) (l : LineId) : State :=
  if (s.line l).causes.cutHeld then
    s.modLine l fun r => { r with
      causes := r.causes.drop .cutHeld
      state := if r.state = .stopRequested ∧ r.causes.drop .cutHeld = .empty then .running else r.state }
  else s

/-! ## Outputs (R174) -/

/-- A line-stop output is asserted in STOP_REQUESTED (R4). -/
def State.lineStopOut (s : State) (l : LineId) : Bool := decide ((s.line l).state = .stopRequested)

/-- A marker output is asserted while the pulse is active (R55). -/
def State.markerOut (s : State) (l : LineId) : Bool := (s.pos l).markerPulse.isSome

/-- A cutter output is asserted while the pulse is active (R135). -/
def State.cutterOut (s : State) (l : LineId) : Bool := (s.coilRec l).cutterPulse.isSome

/-- The gate output of a scan link (R97). -/
def State.gateOut (s : State) (k : ScanLink) : Bool := (s.scanLink k).gate

/-- The clock of a scan link runs while a scan runs (section 11.1). -/
def State.clockOut (s : State) (k : ScanLink) : Bool := (s.scanLink k).scan.isSome

/-- TRAVEL is asserted in TRAVEL (R148). -/
def State.travelOut (s : State) : Bool := decide (s.pack.state = .travel)

/-- The lane select outputs name the lane travelled to in TRAVEL (R148). -/
def State.laneSelectOut (s : State) (l : LineId) : Bool := decide (s.pack.state = .travel ∧ s.pack.attached = some l)

/-- STRAP is asserted in BANDING while a band is in progress (R148). -/
def State.strapOut (s : State) : Bool := decide (s.pack.state = .banding)

/-- LABEL is asserted in LABELLING (R148). -/
def State.labelOut (s : State) : Bool := decide (s.pack.state = .labelling)

/-- HOLD GRANT is asserted in HELD (R148). -/
def State.holdGrantOut (s : State) : Bool := decide (s.pack.state = .held)

/-- TX is idle between frames (R174). -/
def State.txIdle (s : State) : Bool := s.link.sending.isNone

end Sys2Proof.Machine
end

