-- ==== Sys2Proof/Machine/Encoding.lean ====
section
/-! DEFINITION. Bytes on the link: the codes of names, the widths of fields (R172, R173), records, notices, frames and
the CRC (R162). -/

namespace Sys2Proof.Machine

/-! ## Numbers (R172, R173): high byte first -/

def enc8 (n : Nat) : List Byte := [BitVec.ofNat 8 n]
def enc16 (n : Nat) : List Byte := [BitVec.ofNat 8 (n / 256), BitVec.ofNat 8 n]
def enc32 (n : Nat) : List Byte :=
  [BitVec.ofNat 8 (n / 16777216), BitVec.ofNat 8 (n / 65536), BitVec.ofNat 8 (n / 256), BitVec.ofNat 8 n]

/-- A signed number of 2 bytes, in two's complement. -/
def encI16 (x : Int) : List Byte := enc16 (BitVec.ofInt 16 x).toNat

/-- The absent code is the highest of the width, or for a signed field the lowest (R173). -/
def encOpt8 (x : Option Nat) : List Byte := enc8 (x.getD 0xFF)
def encOpt16 (x : Option Nat) : List Byte := enc16 (x.getD 0xFFFF)
def encOpt32 (x : Option Nat) : List Byte := enc32 (x.getD 0xFFFFFFFF)
def encOptI16 : Option Int → List Byte
  | some x => encI16 x
  | none => enc16 0x8000

/-- Yes, set, held, asserted, active are 1 (R173). -/
def encBool (b : Bool) : List Byte := enc8 b.toNat

/-- Whole millimetres of a value in nanometres, truncated (R44). -/
def mm (nm : Nat) : Nat := nm / nmPerMm

def encMm (nm : Nat) : List Byte := enc32 (mm nm)
def encOptMm (nm : Option Nat) : List Byte := encOpt32 (nm.map mm)

/-- A list of entries: a count byte, then the entries (R173). -/
def encList {α : Type} (f : α → List Byte) (xs : List α) : List Byte := enc8 xs.length ++ xs.flatMap f

/-- A set of names as a bit field of 1 byte: bit 0 is the first name (R173). -/
def bitField : List Bool → Nat
  | [] => 0
  | b :: bs => b.toNat + 2 * bitField bs

/-- A name: 16 bytes, filled up with 0x00 (R173). -/
def encName (name : List Byte) : List Byte := name ++ List.replicate (16 - name.length) 0

/-! ## Codes of names: 0, 1, 2, … in the order of the defining table (R173) -/

def LineId.code : LineId → Nat
  | .a => 0
  | .b => 1
  | .c => 2
  | .d => 3

/-- A line or lane from its code (R172). -/
def LineId.ofCode : Nat → Option LineId
  | 0 => some .a
  | 1 => some .b
  | 2 => some .c
  | 3 => some .d
  | _ => none

def ProductKind.code : ProductKind → Nat
  | .rope => 0
  | .net => 1

def ProductKind.ofCode : Nat → Option ProductKind
  | 0 => some .rope
  | 1 => some .net
  | _ => none

def LineState.code : LineState → Nat
  | .idle => 0
  | .running => 1
  | .stopRequested => 2

def StopCause.code : StopCause → Nat
  | .guard => 0
  | .host => 1
  | .twineBreak => 2
  | .flyerStall => 3
  | .trimExhausted => 4
  | .sensor => 5
  | .shaftIndex => 6
  | .boardFault => 7
  | .cutHeld => 8
  | .runLimit => 9

def Role.code : Role → Nat
  | .free => 0
  | .haul => 1
  | .wheel => 2
  | .flyer => 3
  | .shaft => 4
  | .splice => 5

/-- The roles CHANNEL SET may give: not FREE (R33). -/
def Role.ofCode : Nat → Option Role
  | 1 => some .haul
  | 2 => some .wheel
  | 3 => some .flyer
  | 4 => some .shaft
  | 5 => some .splice
  | _ => none

def Authority.ofCode : Nat → Option Authority
  | 0 => some .haul
  | 1 => some .wheel
  | _ => none

def ScanLink.code : ScanLink → Nat
  | .k1 => 0
  | .k2 => 1

def ScanLink.ofCode : Nat → Option ScanLink
  | 0 => some .k1
  | 1 => some .k2
  | _ => none

def Hand.code : Hand → Nat
  | .s => 0
  | .z => 1

def Hand.ofCode : Nat → Option Hand
  | 0 => some .s
  | 1 => some .z
  | _ => none

def ZSense.code : ZSense → Nat
  | .plus => 0
  | .minus => 1

def ZSense.ofCode : Nat → Option ZSense
  | 0 => some .plus
  | 1 => some .minus
  | _ => none

/-- A yes-or-no value from its code (R173). -/
def boolOfCode : Nat → Option Bool
  | 0 => some false
  | 1 => some true
  | _ => none

def CopyState.code : CopyState → Nat
  | .invalid => 0
  | .clean => 1
  | .dirty => 2

def WindowKind.code : WindowKind → Nat
  | .normal => 0
  | .backlash => 1
  | .hand => 2

def SyncState.code : SyncState → Nat
  | .unsynced => 0
  | .synced => 1
  | .lost => 2

def ChainState.code : ChainState → Nat
  | .normal => 0
  | .short => 1
  | .long => 2

def ScanOutcome.code : ScanOutcome → Nat
  | .complete => 0
  | .short => 1
  | .long => 2
  | .overrun => 3

def BoardMark.code : BoardMark → Nat
  | .good => 0
  | .bad => 1
  | .unread => 2

def ColumnMark.code : ColumnMark → Nat
  | .tied => 0
  | .missed => 1
  | .unknown => 2

def ColumnSpanKind.code : ColumnSpanKind → Nat
  | .knot => 0
  | .break => 1

/-- The kinds of a span in a span record are coded 1 to 8 (R172). -/
def SpanKind.recordCode : SpanKind → Nat
  | .twist => 1
  | .hand => 2
  | .stall => 3
  | .knot => 4
  | .break => 5
  | .mesh => 6
  | .slip => 7
  | .unseen => 8

/-- The kinds of a span outside a span record: 0, 1, 2, … in the order of R115 (R173). -/
def SpanKind.code : SpanKind → Nat
  | .twist => 0
  | .hand => 1
  | .stall => 2
  | .knot => 3
  | .break => 4
  | .mesh => 5
  | .slip => 6
  | .unseen => 7

def CutStage.code : CutStage → Nat
  | .none => 0
  | .placed _ => 1
  | .held _ => 2

def PackState.code : PackState → Nat
  | .free => 0
  | .travel => 1
  | .banding => 2
  | .labelling => 3
  | .suspended => 4
  | .held => 5
  | .guarded => 6
  | .fault => 7

/-- TRAVEL, the band numbers 1 to 8 and LABEL, in that order (assumption log 14). -/
def PackStep.code : PackStep → Nat
  | .travel => 0
  | .band k => k
  | .label => 9

def GrantMode.code : GrantMode → Nat
  | .fixed => 0
  | .rotating => 1

def GrantMode.ofCode : Nat → Option GrantMode
  | 0 => some .fixed
  | 1 => some .rotating
  | _ => none

def PackFault.code : PackFault → Nat
  | .travelTimeout => 0
  | .bandTimeout => 1
  | .slipExcess => 2
  | .labelTimeout => 3

def ScanFaultReason.code : ScanFaultReason → Nat
  | .boardFault => 0
  | .chainShort => 1
  | .chainLong => 2

def SuspendCause.code : SuspendCause → Nat
  | .host => 0
  | .guard => 1

/-! ## Compound fields -/

def encLine (l : LineId) : List Byte := enc8 (LineId.code l)
def encOptLine (l : Option LineId) : List Byte := encOpt8 (l.map LineId.code)
def encOptStep (p : Option PackStep) : List Byte := encOpt8 (p.map PackStep.code)

/-- A slot number, 1 to 24, or absent. -/
def encOptSlot (n : Option Slot) : List Byte := encOpt8 (n.map fun k => k.val + 1)

/-- A coil identifier: line and coil number (R173). -/
def encCoilId (l : LineId) (n : Nat) : List Byte := encLine l ++ enc32 n

/-- A partner in a coil record: 0xFF and 0 when absent (R172). -/
def encPartner : Option (LineId × Nat) → List Byte
  | some (l, n) => encCoilId l n
  | none => enc8 0xFF ++ enc32 0

/-- A partner outside a coil record: line and number each at its absent code when absent (R173). -/
def encOptCoilId (p : Option (LineId × Nat)) : List Byte := encOptLine (p.map Prod.fst) ++ encOpt32 (p.map Prod.snd)

/-- The stop-cause set: 10 names, 2 bytes (R173). -/
def encCauses (c : CauseSet) : List Byte :=
  enc16 (bitField [c.guard, c.host, c.twineBreak, c.flyerStall, c.trimExhausted, c.sensor, c.shaftIndex, c.boardFault,
    c.cutHeld, c.runLimit])

/-- The flags of a coil record (R172, offset 23). -/
def encCoilFlags (f : CoilFlags) : List Byte :=
  enc8 (bitField [f.short, f.overlength, f.cutShifted, f.endSplice, f.endOfRun, f.paired, f.pairMismatch])

def encPortFlags (f : PortFlags) : List Byte :=
  enc8 (bitField [f.framing, f.crc, f.unknownKind, f.badTarget, f.overrun])

def encHolds (h : HoldSet) : List Byte :=
  enc8 (bitField [h.guard, h.queueFull, h.pulse, h.followerQueueFull, h.followerPulse])

/-- A source: head, column, or the line's code (R172). -/
def encSource (l : LineId) : SpanSource → List Byte
  | .head h => enc8 h.val
  | .column c => enc8 c
  | .line => encLine l

/-- A span record of 13 bytes (R172). -/
def encSpan (l : LineId) (kind : SpanKind) (source : SpanSource) (closed carried continues : Bool) (worst start : Nat)
    (stop : Option Nat) : List Byte :=
  enc8 kind.recordCode ++ encSource l source ++ enc8 (bitField [closed, carried, continues]) ++ enc16 worst ++ enc32 start ++
    encOpt32 stop

/-- An entry of a span list as a span record: coordinates in millimetres truncated (R123, R172). -/
def encEntry (l : LineId) (e : SpanEntry) : List Byte :=
  encSpan l e.kind e.source (!e.isOpen) e.carried false e.worst (mm e.start) (e.stop.map mm)

def encCopy (l : LineId) (c : SpanCopy) : List Byte :=
  encSpan l c.kind c.source true c.carried c.continues c.worst c.start (some c.stop)

/-- A coil record (R172). -/
def encCoilRecord (r : CoilRecord) : List Byte :=
  encCoilId r.line r.number ++ enc8 (r.slot.val + 1) ++ enc32 r.start ++ enc32 r.stop ++ enc32 r.length ++
  enc16 r.marks ++ enc16 r.suppressed ++ enc8 r.bandCount ++ encCoilFlags r.flags ++ encPartner r.partner ++
  enc32 r.cutTime ++ enc8 r.attempts ++ enc8 r.bandsDone ++ enc16 r.restarts ++ encBool r.packTime.isSome ++
  enc32 (r.packTime.getD 0) ++ enc8 r.splices.length ++ enc16 r.lostSplices ++ enc8 r.spans.length ++
  enc16 r.lostSpans ++ r.splices.flatMap enc32 ++ r.spans.flatMap (encCopy r.line)

/-- The lines moved, as a set of names: a bit field of 1 byte, bit 0 line A (R173; assumption log 14). -/
def encLineSet (ls : List LineId) : List Byte := enc8 (bitField (LineId.all.map fun l => decide (l ∈ ls)))

/-- A notice class's fields from offset 7 on, in the order its chapter lists them (R173, assumption logs 13 and 55). -/
def NoticeBody.encode : NoticeBody → Option LineId → List Byte
  | .coilCut number start stop length flags partner queued, line =>
    encOptLine line ++ enc32 number ++ enc32 start ++ enc32 stop ++ enc32 length ++ encCoilFlags flags ++
      encOptCoilId partner ++ enc8 queued
  | .coilPacked number attempts bandsDone restarts packTime completed, line =>
    encOptLine line ++ enc32 number ++ enc16 attempts ++ enc8 bandsDone ++ enc32 restarts ++ enc32 packTime ++
      enc8 completed
  | .cutHeld number target position holds, _ => enc32 number ++ enc32 target ++ enc32 position ++ encHolds holds
  | .stopRequested cause causes, _ => enc8 cause.code ++ encCauses causes
  | .twineBreak column row start count added, _ =>
    enc8 column ++ enc32 row ++ enc32 start ++ enc8 count ++ encBool added
  | .headFault fault step number bandsDone restarts, line =>
    enc8 fault.code ++ encOptStep step ++ encOptLine line ++ enc32 number ++ enc8 bandsDone ++ enc8 restarts
  | .scanFault link reason board row, _ => enc8 (ScanLink.code link) ++ enc8 reason.code ++ encOpt8 board ++ enc32 row
  | .spanOverflow kind source start position, line =>
    enc8 0 ++ enc8 kind.code ++ encSource (line.getD .a) source ++ enc32 start ++ enc32 position
  | .spliceOverflow coordinate position, _ => enc8 1 ++ enc32 coordinate ++ enc32 position
  | .suspended cause attached step, _ => enc8 cause.code ++ encOptLine attached ++ encOptStep step
  | .recipeApplied before now number written atRunStart, _ =>
    encOptSlot before ++ encOptSlot (some now) ++ enc32 number ++ enc8 written ++ encBool atRunStart
  | .guardSet moved, _ => encBool true ++ encLineSet moved
  | .guardCleared, _ => encBool false

/-- A notice as a frame: kind 0xF0, tag 0 (R172). -/
def Notice.toFrame (n : Notice) : Frame where
  kind := 0xF0
  tag := 0
  payload := enc8 (n.body.cls.index.val + 1) ++ enc8 n.level ++ encOptLine n.line ++ enc32 n.stamp ++
    n.body.encode n.line

/-! ## Frames (R162, R172) -/

/-- One bit of the CRC: x^16 + x^12 + x^5 + 1, most significant bit first. -/
def crcBit (c : BitVec 16) : BitVec 16 :=
  if c.msb then (c <<< 1) ^^^ 0x1021#16 else c <<< 1

/-- A byte enters the CRC. -/
def crcByte (c : BitVec 16) (b : Byte) : BitVec 16 :=
  crcBit (crcBit (crcBit (crcBit (crcBit (crcBit (crcBit (crcBit (c ^^^ (b.setWidth 16 <<< 8)))))))))

/-- The CRC over bytes, initial value 0xFFFF, no final inversion (R162). -/
def crc16 (bytes : List Byte) : BitVec 16 := bytes.foldl crcByte 0xFFFF#16

/-- The bytes of a frame that the CRC covers: length, kind, tag, payload. -/
def Frame.body (f : Frame) : List Byte := enc8 f.payload.length ++ [f.kind, f.tag] ++ f.payload

/-- A whole frame as sent (R172). -/
def Frame.bytes (f : Frame) : List Byte := [0xA5#8] ++ f.body ++ enc16 (crc16 f.body).toNat

end Sys2Proof.Machine
end

