-- ==== Sys2Proof/Machine/Replies.lean ====
section
/-! DEFINITION. The Message Link's part in every request: the request buffer, replies and refusals, and the
transmitter's choice of the next frame (R163 to R166, R169). -/

namespace Sys2Proof.Machine

/-- The refusal reasons (R164). -/
inductive Reason where
  | badKind | badTarget | badValue | badState | inUse | full | empty | guarded
  deriving DecidableEq, Repr

/-- The reason codes (R172). -/
def Reason.code : Reason → Nat
  | .badKind => 1
  | .badTarget => 2
  | .badValue => 3
  | .badState => 4
  | .inUse => 5
  | .full => 6
  | .empty => 7
  | .guarded => 8

/-- What a refusal carries: the reason and the field number, 0 where none applies (R172). -/
structure Denial where
  reason : Reason
  field : Nat
  deriving DecidableEq, Repr

/-- What the owning block makes of a request: a refusal, which changes no state (R165), or the state after it with the
payload of the acceptance. -/
abbrev Result := Except Denial (State × List Byte)

def refuse (r : Reason) : Result := .error ⟨r, 0⟩
def badField (n : Nat) : Result := .error ⟨.badValue, n⟩
def accept (s : State) (payload : List Byte) : Result := .ok (s, payload)

/-- The kind of the acceptance of RESET ALL: 0x2F plus 0x80 (R172). -/
def resetAcceptance : Byte := 0xAF#8

/-- RESET ALL has been handled and its acceptance is not yet sent: it is queued or being sent (R169). -/
def Link.resetPending (k : Link) : Bool :=
  k.replies.any (fun f => f.kind == resetAcceptance) || (k.sending.map (·.kind)) == some resetAcceptance

/-- The port flag a refusal sets, if any (R164, R165). -/
def PortFlags.afterDenial (f : PortFlags) : Reason → PortFlags
  | .badKind => { f with unknownKind := true }
  | .badTarget => { f with badTarget := true }
  | _ => f

/-- The reply to a request: an acceptance has the kind plus 0x80, a refusal 0xFF (R172). -/
def acceptance (kind tag : Byte) (payload : List Byte) : Frame := ⟨kind + 0x80#8, tag, payload⟩
def refusal (tag : Byte) (d : Denial) : Frame := ⟨0xFF#8, tag, enc8 d.reason.code ++ enc8 d.field⟩

/-- Queue a reply (R164, R166). -/
def State.queueReply (s : State) (f : Frame) : State := s.modLink fun k => { k with replies := k.replies ++ [f] }

/-- The ML takes a request: no RESET ALL acceptance waits (R169), and the request buffer has room (R163). -/
def Link.takesRequest (k : Link) : Bool := !k.resetPending && decide (k.buffer.length < 2)

/-- The request enters the request buffer (R163). -/
def State.entered (s : State) (kind tag : Byte) : State := s.modLink fun k => { k with buffer := k.buffer ++ [⟨kind, tag⟩] }

/-- A refusal is queued, and no other state changes but the port flag it names (R164, R165). -/
def State.refused (s : State) (tag : Byte) (d : Denial) : State :=
  (s.modLink fun k => { k with flags := k.flags.afterDenial d.reason }).queueReply (refusal tag d)

/-- A request that is in the buffer is handled: one reply (R164). -/
def State.answer (s : State) (kind tag : Byte) (handle : State → Result) : State :=
  match handle s with
  | .ok (s', payload) => s'.queueReply (acceptance kind tag payload)
  | .error d => s.refused tag d

/-- A well-formed request reaches the request buffer (R163) and is handled at once, every request before it having been
handled (R164). While a RESET ALL acceptance waits, it is discarded (R169); with 2 requests in the buffer it is dropped
with OVERRUN. -/
def State.serve (s : State) (kind tag : Byte) (handle : State → Result) : State :=
  if s.link.takesRequest then (s.entered kind tag).answer kind tag handle
  else if s.link.resetPending then s
  else s.modLink fun k => { k with flags := { k.flags with overrun := true } }

/-- An idle transmitter chooses the next frame: the oldest reply, else the first notice (R166). -/
def State.chooseFrame (s : State) : State :=
  match s.link.sending with
  | some _ => s
  | none =>
    match s.link.replies with
    | f :: fs => s.modLink fun k => { k with sending := some f, replies := fs }
    | [] =>
      match s.link.notices with
      | n :: ns => s.modLink fun k => { k with sending := some n.toFrame, notices := ns }
      | [] => s

/-- An acceptance is queued, and an idle transmitter takes it (R164, R166). -/
def State.acceptedAs (s : State) (kind tag : Byte) (payload : List Byte) : State :=
  (s.queueReply (acceptance kind tag payload)).chooseFrame

/-- The end of every command: a whole step is done, and an idle transmitter chooses (R166, assumption log 16). -/
def done (s : State) : Host.Outcome State Fault Refusal := .next s.chooseFrame

/-- A request command, from its kind, its tag and what its owning block makes of it. -/
def request (kind tag : Byte) (handle : State → Result) (s : State) : Host.Outcome State Fault Refusal :=
  done (s.serve kind tag handle)

/-! ## Targets (R164 check 3) -/

/-- A line or lane letter in range, or BAD_TARGET. -/
def withLine (n : Nat) (k : LineId → Result) : Result :=
  match LineId.ofCode n with
  | some l => k l
  | none => refuse .badTarget

/-- A head number in range, or BAD_TARGET. -/
def withHead (n : Nat) (k : HeadId → Result) : Result := if h : n < 16 then k ⟨n, h⟩ else refuse .badTarget

/-- A channel number in range, or BAD_TARGET. -/
def withChannel (n : Nat) (k : ChannelId → Result) : Result := if h : n < 32 then k ⟨n, h⟩ else refuse .badTarget

/-- A slot number 1 to 24, or BAD_TARGET. -/
def withSlot (n : Nat) (k : Slot → Result) : Result :=
  if h : 1 ≤ n ∧ n ≤ 24 then k ⟨n - 1, by omega⟩ else refuse .badTarget

/-- A channel number that may be absent: in range or absent (R164 check 3). -/
def channelInRange : Option Nat → Bool
  | some n => decide (n < 32)
  | none => true

/-- A channel number as a channel; absent where it is absent or out of range. -/
def toChannel : Option Nat → Option ChannelId
  | some n => if h : n < 32 then some ⟨n, h⟩ else none
  | none => none

/-! ## Checks of fields in ascending field number -/

/-- The number of the first field whose check fails. -/
def firstFailure : List (Nat × Bool) → Option Nat
  | [] => none
  | (n, good) :: rest => if good then firstFailure rest else some n

/-- A number in a range that includes both ends. -/
def inRange (lo hi n : Nat) : Bool := decide (lo ≤ n ∧ n ≤ hi)

/-- A field that must be present and in its range. -/
def presentIn (lo hi : Nat) : Option Nat → Bool
  | some n => inRange lo hi n
  | none => false

end Sys2Proof.Machine
end

