-- ==== Sys2Proof/Machine/Recorder.lean ====
section
/-! DEFINITION. The Span Recorder (spec/07): submissions, splices, and the take at a cut. -/

namespace Sys2Proof.Machine

/-- A span's kind for its key: KNOT and BREAK are one (R115). -/
def SpanKind.base : SpanKind → SpanKind
  | .break => .knot
  | k => k

def SpanEntry.key (e : SpanEntry) : SpanKey := ⟨e.kind.base, e.source⟩

/-- Whether an entry is the OPEN entry of a key. -/
def SpanEntry.holds (e : SpanEntry) (k : SpanKey) : Bool := e.isOpen && e.key == k

/-- The five kinds of submission, with the coordinates and the worst value they carry (section 7.3). -/
inductive Submission where
  | openOrExtend (start stop worst : Nat)
  | openSpan (start : Nat) (stop : Option Nat) (worst : Nat)
  | extend (stop worst : Nat)
  | upgrade
  | close (stop : Nat)
  deriving DecidableEq, Repr

/-- The edition counts each event that changes a list, 16 bits wrapping (R114). -/
def SpanRec.bump (r : SpanRec) : SpanRec := { r with edition := (r.edition + 1) % 65536 }

/-- An entry extended: a submitted end, raised to the entry's start (R117), and the larger worst value (R116). -/
def SpanEntry.extended (e : SpanEntry) (stop : Option Nat) (worst : Nat) : SpanEntry :=
  { e with
    stop := match stop with
      | some x => some (max x e.start)
      | none => e.stop
    worst := max e.worst worst }

/-- A KNOT entry becomes BREAK in place (R116). -/
def SpanEntry.upgraded (e : SpanEntry) : SpanEntry := { e with kind := if e.kind = .knot then .break else e.kind }

/-- An entry closed at an end, raised to its start (R116, R117). -/
def SpanEntry.closed (e : SpanEntry) (stop : Nat) : SpanEntry := { e with stop := some (max stop e.start), isOpen := false }

/-- Change the OPEN entry of a key; no entry moves (R118). -/
def SpanRec.onOpen (r : SpanRec) (k : SpanKey) (f : SpanEntry → SpanEntry) : SpanRec :=
  SpanRec.bump { r with spans := r.spans.map fun e => if e.holds k then f e else e }

/-- A new entry at its place: start ascending, then arrival (R118). -/
def insertEntry (n : SpanEntry) : List SpanEntry → List SpanEntry
  | [] => [n]
  | e :: es =>
    if e.start < n.start ∨ (e.start = n.start ∧ e.arrival ≤ n.arrival) then e :: insertEntry n es else n :: e :: es

/-- The list placed in order anew (R118, R121). -/
def orderEntries : List SpanEntry → List SpanEntry
  | [] => []
  | e :: es => insertEntry e (orderEntries es)

/-- An opening that finds neither an OPEN entry of its key nor the key lost: stored, or with 48 entries counted and the
key lost, with a notice at the first loss (R116, R117, R119, R125). -/
def State.storeSpan (s : State) (l : LineId) (kind : SpanKind) (source : SpanSource) (start : Nat) (stop : Option Nat)
    (worst : Nat) : State :=
  let from' := max start (s.coilStart l)
  let r := s.spanRec l
  if 48 ≤ r.spans.length then
    let s1 := s.modSpanRec l fun r =>
      { r with lostSpans := min 65535 (r.lostSpans + 1), lostKeys := r.lostKeys ++ [⟨kind.base, source⟩] }
    if r.lostSpans = 0 then
      s1.notify (some l) (.spanOverflow kind source (mm from') (mm (s.pos l).position))
    else s1
  else
    s.modSpanRec l fun r => SpanRec.bump { r with
      spans := insertEntry ⟨kind, source, from', stop.map (max · from'), true, worst, decide (start < s.coilStart l),
        r.arrival⟩ r.spans
      arrival := r.arrival + 1 }

/-- A submission to the SR (R116): for a line with a run open, on the key as it is found. -/
def State.submit (s : State) (l : LineId) (kind : SpanKind) (source : SpanSource) (x : Submission) : State :=
  let key : SpanKey := ⟨kind.base, source⟩
  if s.runOpen l = false then s
  else if (s.spanRec l).spans.any (·.holds key) then
    match x with
    | .openOrExtend _ stop worst => s.modSpanRec l (·.onOpen key (·.extended (some stop) worst))
    | .openSpan _ stop worst => s.modSpanRec l (·.onOpen key (·.extended stop worst))
    | .extend stop worst => s.modSpanRec l (·.onOpen key (·.extended (some stop) worst))
    | .upgrade =>
      if (s.spanRec l).spans.any (fun e => e.holds key && e.kind == .knot) then
        s.modSpanRec l (·.onOpen key SpanEntry.upgraded)
      else s
    | .close stop => s.modSpanRec l (·.onOpen key (·.closed stop))
  else if (s.spanRec l).lostKeys.contains key then
    match x with
    | .close _ => s.modSpanRec l fun r => { r with lostKeys := r.lostKeys.filter (· != key) }
    | _ => s
  else
    match x with
    | .openOrExtend start stop worst => s.storeSpan l kind source start (some stop) worst
    | .openSpan start stop worst => s.storeSpan l kind source start stop worst
    | _ => s

/-! ## Splices (R120) -/

/-- A coordinate at its place in ascending order. -/
def insertSplice (x : Nat) : List Nat → List Nat
  | [] => [x]
  | y :: ys => if x < y then x :: y :: ys else y :: insertSplice x ys

/-- The distance of two coordinates, taken without sign. -/
def distance (x y : Nat) : Nat := (x - y) + (y - x)

/-- A splice coordinate reaches the SR (R120): already held, added, or counted with a notice at the first loss. -/
def State.submitSplice (s : State) (l : LineId) (x : Nat) : State :=
  let r := s.spanRec l
  if s.runOpen l = false then s
  else if r.splices.any (fun y => decide (distance x y < ((s.line l).cfg.spliceSpacing.getD 0) * nmPerMm)) then s
  else if r.splices.contains x then s
  else if r.splices.length < 16 then
    s.modSpanRec l fun r => SpanRec.bump { r with splices := insertSplice x r.splices }
  else
    let s1 := s.modSpanRec l fun r => { r with lostSplices := min 65535 (r.lostSplices + 1) }
    if r.lostSplices = 0 then s1.notify (some l) (.spliceOverflow (mm x) (mm (s.pos l).position)) else s1

/-! ## The take at a cut (R121, R122) -/

/-- The copy an entry gives to the record of a coil cut at `c`, if it starts below `c` (R121). -/
def SpanEntry.copyAt (e : SpanEntry) (c : Nat) : Option SpanCopy :=
  if c ≤ e.start then none
  else
    match e.isOpen, e.stop with
    | false, some x =>
      if x ≤ c then some ⟨e.kind, e.source, mm e.start, mm x, e.worst, e.carried, false⟩
      else some ⟨e.kind, e.source, mm e.start, mm c, e.worst, e.carried, true⟩
    | _, _ => some ⟨e.kind, e.source, mm e.start, mm c, e.worst, e.carried, true⟩

/-- What stays of an entry in the list after a cut at `c` (R121). -/
def SpanEntry.restAt (e : SpanEntry) (c : Nat) : Option SpanEntry :=
  if c ≤ e.start then some e
  else
    match e.isOpen, e.stop with
    | false, some x => if x ≤ c then none else some { e with start := c, carried := true }
    | _, stop => some { e with start := c, carried := true, stop := stop.map (max · c) }

/-- What the SR hands to a record: copies, their unrecorded count, splices in millimetres, and their unrecorded count. -/
structure Take where
  spans : List SpanCopy
  lostSpans : Nat
  splices : List Nat
  lostSplices : Nat
  deriving DecidableEq, Repr

/-- The take at coordinate `c`: the record keeps the first 12 copies and the first 8 splices (R121, R122). -/
def SpanRec.take (r : SpanRec) (c : Nat) : Take :=
  let copies := r.spans.filterMap (·.copyAt c)
  let below := r.splices.filter (· < c)
  { spans := copies.take 12
    lostSpans := min 65535 ((copies.length - 12) + r.lostSpans)
    splices := (below.take 8).map mm
    lostSplices := min 65535 ((below.length - 8) + r.lostSplices) }

/-- The recorder after a take at `c` (R121, R122). -/
def SpanRec.afterTake (r : SpanRec) (c : Nat) : SpanRec :=
  SpanRec.bump { r with
    spans := orderEntries (r.spans.filterMap (·.restAt c))
    splices := r.splices.filter (c ≤ ·)
    lostSpans := 0
    lostSplices := 0 }

/-- The lists, tallies and lost keys emptied: at RUN START, RUN END and LINE RESET (R114). -/
def SpanRec.emptied (r : SpanRec) : SpanRec :=
  SpanRec.bump { r with spans := [], splices := [], lostSpans := 0, lostSplices := 0, lostKeys := [] }

end Sys2Proof.Machine
end

