-- ==== Sys2Proof/Machine/Copies.lean ====
section
/-! DEFINITION. The Recipe Store's working copies (section 4.5): re-marking, write-back, loads and invalidation. -/

namespace Sys2Proof.Machine

/-- A valid copy is CLEAN or DIRTY (R66). -/
def WorkingCopy.valid (c : WorkingCopy) : Bool := c.state != .invalid

/-- A valid copy of a slot. -/
def WorkingCopy.copies (c : WorkingCopy) (n : Slot) : Bool := c.valid && c.slot == some n

/-- The copy after invalidation (R66, R73). -/
def WorkingCopy.invalidated : WorkingCopy := ⟨none, .invalid, 0⟩

/-- What a recipe holds for the strand position of a head (R58). -/
def Recipe.specFor (r : Recipe) (t : HeadSettings) : Option PositionSpec := r.positions.get t.position

/-- The start trim a slot holds for a head's strand position (R67, R68). -/
def State.startTrim (s : State) (n : Slot) (h : HeadId) : Option Int :=
  match s.recipe n, (s.head h).settings with
  | some r, some t => (r.specFor t).map (·.startTrim)
  | _, _ => none

/-- A copy re-marked: CLEAN if its learned trim equals the start trim of its slot, DIRTY if not (R67). -/
def State.remark (s : State) (h : HeadId) : State :=
  let c := s.copy h
  match c.valid, c.slot with
  | true, some n =>
    s.setCopy h { c with state := if s.startTrim n h = some c.learned then .clean else .dirty }
  | _, _ => s

/-- Every valid copy of a slot is re-marked (R67). -/
def State.remarkSlot (s : State) (n : Slot) : State :=
  (allHeads.filter fun h => (s.copy h).copies n).foldl State.remark s

/-- Write a learned trim into the start trim of a strand position (R69). -/
def Recipe.withStartTrim (r : Recipe) (p : StrandPos) (x : Int) : Recipe :=
  match r.positions.get p with
  | some q => { r with positions := r.positions.set p.val (some { q with startTrim := x }) p.isLt }
  | none => r

/-- A head's copy writes its learned trim into its slot (R69). -/
def State.writeBack (s : State) (h : HeadId) : State :=
  match (s.copy h).slot, (s.head h).settings with
  | some n, some t =>
    match s.recipe n with
    | some r => s.setRecipe n (some (r.withStartTrim t.position (s.copy h).learned))
    | none => s
  | _, _ => s

/-- The heads among `hs` whose copies write back when they are loaded with the slot `target h`: valid, DIRTY and of
another slot (R69). -/
def State.evicted (s : State) (target : HeadId → Option Slot) (hs : List HeadId) : List HeadId :=
  hs.filter fun h =>
    match target h with
    | some n => (s.copy h).state == .dirty && (s.copy h).slot != some n
    | none => false

/-- The write-backs of heads in the order given, then every slot written re-marked (R69, R70). -/
def State.writeBackAll (s : State) (hs : List HeadId) : State :=
  (hs.filterMap fun h => (s.copy h).slot).foldl State.remarkSlot (hs.foldl State.writeBack s)

/-- Whether a load of a slot is a hit for a head (R68). -/
def State.isHit (s : State) (n : Slot) (h : HeadId) : Bool := (s.copy h).copies n

/-- A head is loaded from a slot: the copy kept on a hit, or set from the start trim on a miss, then clamped to the trim
limit and re-marked, and the head's trim set to it (R68, R81). -/
def State.load (s : State) (n : Slot) (h : HeadId) : State :=
  let limit := match s.recipe n with
    | some r => r.trimLimit
    | none => 0
  let base := if s.isHit n h then (s.copy h).learned else (s.startTrim n h).getD 0
  let trim := clampAbs limit base
  ((s.setCopy h ⟨some n, .clean, trim⟩).remark h).modHead h fun r => { r with trim := trim }

/-- Eviction write-backs, re-marking, and then the loads, each in ascending head number (R64, R69). -/
def State.evictAndLoad (s : State) (target : HeadId → Option Slot) (hs : List HeadId) : State :=
  hs.foldl (fun s h => match target h with
    | some n => s.load n h
    | none => s) (s.writeBackAll (s.evicted target hs))

/-- A copy is invalidated without write-back (R73). -/
def State.invalidate (s : State) (h : HeadId) : State := s.setCopy h .invalidated

/-- The heads that hold a valid copy of a slot. -/
def State.holdersOf (s : State) (n : Slot) : List HeadId := allHeads.filter fun h => (s.copy h).copies n

/-- The heads that hold a valid DIRTY copy of a slot. -/
def State.dirtyHolders (s : State) (n : Slot) : List HeadId :=
  (s.holdersOf n).filter fun h => (s.copy h).state == .dirty

/-- Whether a slot is the bound or the pending recipe of a line with a run open (R59, R72). -/
def State.slotInUse (s : State) (n : Slot) : Bool :=
  LineId.all.any fun l => s.runOpen l && ((s.line l).bound == some n || (s.line l).pendingRecipe == some n)

end Sys2Proof.Machine
end

