-- ==== Sys2Proof/Machine/Cutting.lean ====
section
/-! DEFINITION. The Coil Assembler (spec/08), with what a cut does in the other blocks: the grant of the packing head
(R147, R150), the application of pending recipes (R64, R83, R111) and the mark target (R53). -/

namespace Sys2Proof.Machine

/-! ## The grant (R147, R150) -/

/-- The lane of the head's present service: attached, or held in abeyance under the guard (R144). -/
def State.serves (s : State) (l : LineId) : Bool :=
  s.pack.attached == some l || (s.pack.abeyance.map (·.1)) == some l

/-- A free slot of the completed coil list: neither filled nor reserved (R147). -/
def State.listHasSlot (s : State) : Bool := decide (s.completed.length + s.pack.reserved < 16)

/-- The conditions of a request but the free slot of the completed coil list (R144, R147). -/
def State.readyToRequest (s : State) (l : LineId) : Bool :=
  (s.lane l).enable == .enabled && !(s.lane l).queue.isEmpty && (s.lane l).coilReady && (s.lane l).rearmed &&
    !s.serves l

/-- A lane requests the head (R147). -/
def State.requests (s : State) (l : LineId) : Bool := s.readyToRequest l && s.listHasSlot

/-- Start the step timer at a number of seconds (R151 to R153). -/
def State.secondsFromNow (s : State) (n : Nat) : Nat := s.now + n * 1000000

/-- The start of a band (R152), with restarts in band as the entering rule gives it. -/
def State.startBand (s : State) (k restarts : Nat) : State :=
  s.modPack fun p => { p with
    state := .banding, step := some (.band k), arrivalStep := none, restarts := restarts, bandRepeats := false
    stepTimer := some (s.secondsFromNow p.bandTimeout) }

/-- The start of labelling (R153). -/
def State.startLabel (s : State) : State :=
  s.modPack fun p => { p with
    state := .labelling, step := some .label, arrivalStep := none
    stepTimer := some (s.secondsFromNow p.labelTimeout) }

/-- The head enters TRAVEL to the attached lane, to enter a step at arrival (R151). -/
def State.startTravel (s : State) (l : LineId) (arrival : PackStep) : State :=
  s.modPack fun p => { p with
    state := .travel, attached := some l, step := some .travel, arrivalStep := some arrival
    stepTimer := some (s.secondsFromNow (s.lane l).travelLimit) }

/-- Change the front record of a lane queue. -/
def LaneRec.onFront (r : LaneRec) (f : CoilRecord → CoilRecord) : LaneRec :=
  match r.queue with
  | x :: xs => { r with queue := f x :: xs }
  | [] => r

/-- The head is given over to manual work (R157). -/
def State.enterHeld (s : State) : State :=
  s.modPack fun p => { p with state := .held, position := none, holdPending := false }

/-- The grant is made to a lane (R150). -/
def State.grantTo (s : State) (l : LineId) : State :=
  let s1 := s.modLane l (·.onFront fun r => { r with attempts := min 255 (r.attempts + 1), bandsDone := 0 })
  let s2 := s1.modPack fun p => { p with
    reserved := 1, attached := some l, bandRepeats := false
    rotation := if p.mode = .rotating then p.rotation.erase l ++ [l] else p.rotation }
  if s.pack.position = some l then s2.startBand 1 0 else s2.startTravel l (.band 1)

/-- The lane a grant chooses: the first requesting lane of the order its mode gives (R150). -/
def State.chooseLane (s : State) : Option LineId :=
  match s.pack.mode with
  | .fixed => LineId.all.find? s.requests
  | .rotating => s.pack.rotation.find? s.requests

/-- A grant is evaluated (R150). -/
def State.evaluateGrant (s : State) : State :=
  if s.pack.state ≠ .free then s
  else if s.pack.holdReq then s.enterHeld
  else match s.chooseLane with
    | some l => s.grantTo l
    | none => s

/-! ## Placing and holding (R129 to R133) -/

/-- The nominal cut point C of the open coil (R129). -/
def State.nominalCut (s : State) (l : LineId) (r : Recipe) : Nat := s.coilStart l + r.targetLength * nmPerMm

/-- The limit coordinate of the open coil (R129). -/
def State.limitCoordinate (s : State) (l : LineId) (r : Recipe) : Nat :=
  s.coilStart l + (r.targetLength + r.plusTolerance) * nmPerMm

/-- Whether some splice lies less than E from a coordinate (R131, R136). -/
def conflicts (splices : List Nat) (endZone : Nat) (p : Nat) : Bool :=
  splices.any fun x => decide (distance x p < endZone)

/-- The placement at nominal point `c` with the known splices (R131). The splices are held in ascending order, so the
first candidate that qualifies is the smallest. -/
def placementFor (splices : List Nat) (c plusTolerance endZone : Nat) : Placement :=
  if conflicts splices endZone c = false then ⟨c, false, false⟩
  else
    let candidates := (splices.map (· + endZone)).filter (c ≤ ·)
    match candidates.find? fun p => !conflicts splices endZone p && decide (p ≤ c + plusTolerance) with
    | some p => ⟨p, true, false⟩
    | none => ⟨c, false, true⟩

/-- The hold reasons present for a cut of a line (R132). -/
def State.holds (s : State) (l : LineId) : HoldSet where
  guard := s.guard.latch
  queueFull := decide (3 ≤ (s.lane l).queue.length)
  pulse := (s.coilRec l).cutterPulse.isSome
  followerQueueFull := match s.runningFollower l with
    | some f => decide (3 ≤ (s.lane f).queue.length)
    | none => false
  followerPulse := match s.runningFollower l with
    | some f => (s.coilRec f).cutterPulse.isSome
    | none => false

/-- Whether any hold reason is present. -/
def HoldSet.any (h : HoldSet) : Bool := h.guard || h.queueFull || h.pulse || h.followerQueueFull || h.followerPulse

/-- A line places its own cuts unless it names a leader whose run is open (R130). -/
def State.placesOwnCuts (s : State) (l : LineId) : Bool := !s.leaderRunning l

/-! ## Performing a cut (R134 to R139) -/

/-- What a cut of a line is performed for: a placement that fell due, CUT NOW, or the final cut of RUN END. -/
inductive CutReason where
  | placement (p : Placement)
  | onRequest
  | endOfRun
  deriving DecidableEq, Repr

/-- The placement of the cut, if it is performed at one (R136). -/
def CutReason.placement? : CutReason → Option Placement
  | .placement p => some p
  | _ => none

/-- The pitch of the line's authority channel (R38). -/
def LineConfig.authorityPitch (c : LineConfig) : Nat :=
  match c.authority with
  | .haul => c.haulPitch
  | .wheel => c.wheelPitch.getD 0

/-- The flags of a coil cut at `c` (R136). `own` says the cut is the line's own, not that of its leader. -/
def State.cutFlags (s : State) (l : LineId) (coil : OpenCoil) (r : Recipe) (why : CutReason) (own paired mismatch : Bool) :
    CoilFlags :=
  let c := (s.pos l).position
  let placed := if own then why.placement? else none
  { short := own && why == .onRequest && decide (c - coil.start < r.targetLength * nmPerMm)
    overlength := decide (s.limitCoordinate l r + (s.line l).cfg.authorityPitch ≤ c)
    cutShifted := (placed.map (·.shifted)).getD false
    endSplice := (placed.map (·.endSplice)).getD false || conflicts (s.spanRec l).splices (r.endZone * nmPerMm) c
    endOfRun := why == .endOfRun
    paired := paired
    pairMismatch := mismatch }

/-- Step 1 of a cut: the cutter output is asserted for the cutter pulse length (R135). -/
def State.assertCutter (s : State) (l : LineId) : State :=
  s.modCoil l fun k => { k with cutterPulse := some (s.now + (s.line l).cfg.cutterPulse * 1000) }

/-- The record a cut closes (R134 steps 2 to 4, R140). -/
def State.closedRecord (s : State) (l : LineId) (coil : OpenCoil) (r : Recipe) (why : CutReason) (own : Bool)
    (partner : Option (LineId × Nat)) (mismatch : Bool) : CoilRecord :=
  let c := (s.pos l).position
  let t := (s.spanRec l).take c
  { line := l
    number := (s.coilRec l).number
    slot := coil.slot
    start := mm coil.start
    stop := mm c
    length := mm (c - coil.start)
    marks := coil.marks
    suppressed := coil.suppressed
    bandCount := r.bandCount
    flags := s.cutFlags l coil r why own partner.isSome mismatch
    partner := partner
    splices := t.splices
    lostSplices := t.lostSplices
    spans := t.spans
    lostSpans := t.lostSpans
    cutTime := s.stamp
    attempts := 0
    bandsDone := 0
    restarts := 0
    packTime := none }

/-- Steps 2 to 5: the record is closed with what the SR takes into it, and appended to the lane queue (R134). -/
def State.closeCoil (s : State) (l : LineId) (why : CutReason) (own : Bool) (partner : Option (LineId × Nat))
    (mismatch : Bool) : State :=
  match (s.coilRec l).coil, s.coilRecipe l with
  | some coil, some r =>
    let record := s.closedRecord l coil r why own partner mismatch
    (s.modSpanRec l (·.afterTake (s.pos l).position)).modLane l fun q => { q with queue := q.queue ++ [record] }
  | _, _ => s

/-- The coil number advanced: 4,294,967,295 is followed by 1 (R128). -/
def nextNumber (n : Nat) : Nat := if 4294967295 ≤ n then 1 else n + 1

/-- Step 6: the next coil opens at the cut (R134). Its recipe slot is set once step 7 is done. -/
def State.openNextCoil (s : State) (l : LineId) : State :=
  s.modCoil l fun k => { k with
    number := nextNumber k.number
    coil := k.coil.map fun c => { c with start := (s.pos l).position, marks := 0, suppressed := 0 }
    stage := .none }

/-- The histories of columns above the new recipe's columns used are settled (R111). -/
def State.settleColumns (s : State) (l : LineId) (used : Nat) : State :=
  let s1 := (List.range 64).foldl (fun s c =>
    match (s.knot l).columns[c]?, (s.knot l).lastRowCoord with
    | some ⟨_, some (kind, start)⟩, some x =>
      if used ≤ c then
        s.submit l (match kind with
          | .knot => .knot
          | .break => .break) (.column (c + 1)) (.close (max x start))
      else s
    | _, _ => s) s
  s1.modKnot l fun k => { k with
    columns := k.columns.mapIdx fun i h => if used ≤ i then ⟨0, none⟩ else h }

/-- A line's pending recipe becomes its bound recipe (R64 steps 3 and 4), with what that changes in the TS (R83) and the
KS (R111). `written` is the number of copies its eviction wrote back. -/
def State.bindPending (s : State) (l : LineId) (written : Nat) (atRunStart : Bool) : State :=
  match (s.line l).pendingRecipe with
  | none => s
  | some n =>
    let before := (s.line l).bound
    let s1 := s.modLine l fun r => { r with bound := some n, pendingRecipe := none }
    let s2 := (s1.headsOf l).foldl (fun s h => s.modHead h fun r => { r with limitCount := 0 }) s1
    let s3 := match (s2.line l).kind, s2.knotSpec l with
      | .net, some k => s2.settleColumns l k.columnsUsed
      | _, _ => s2
    s3.notify (some l) (.recipeApplied before n (s3.coilRec l).number written atRunStart)

/-- The slot a head is loaded from when the pending recipes of lines are applied. -/
def State.pendingTarget (s : State) (ls : List LineId) (h : HeadId) : Option Slot :=
  match (s.head h).settings with
  | some t => if t.line ∈ ls then (s.line t.line).pendingRecipe else none
  | none => none

/-- Step 7: the pending recipes of the lines that cut are applied: write-backs in ascending head number across the
lines, then the loads, then each line's change of bound recipe (R64, R69, R138). -/
def State.applyPending (s : State) (ls : List LineId) : State :=
  let target := s.pendingTarget ls
  let written := fun l => (s.evicted target (s.headsOf l)).length
  let s1 := s.evictAndLoad target (allHeads.filter fun h => (target h).isSome)
  ls.foldl (fun s l => s.bindPending l (written l) false) s1

/-- The mark target of a coil that starts at `start` under a recipe (R53). -/
def markTargetFrom (start : Nat) (r : Option Recipe) : Option Nat :=
  match r with
  | some r => if r.markInterval = 0 then none else some (start + r.markInterval * nmPerMm)
  | none => none

/-- The new coil's recipe slot is the slot bound after step 7, and the mark target follows (R134 steps 7 and 8). -/
def State.settleCoil (s : State) (l : LineId) : State :=
  let s1 := s.modCoil l fun k => { k with coil := k.coil.map fun c => { c with slot := ((s.line l).bound).getD c.slot } }
  s1.modPos l fun p => { p with markTarget := markTargetFrom (s1.coilStart l) (s1.coilRecipe l) }

/-- CUT_HELD is removed from the line's set, and from the follower's if its paired hold is set, which is cleared
(R133, R134 step 9). -/
def State.releasePair (s : State) (l : LineId) : State :=
  let s1 := s.removeCutHeld l
  match s1.follower l with
  | some f =>
    if (s1.coilRec f).pairedHold then (s1.removeCutHeld f).modCoil f fun k => { k with pairedHold := false } else s1
  | none => s1

/-- COIL_CUT for the record a line's cut closed: the last record of its lane queue (R143). -/
def State.notifyCut (s : State) (l : LineId) : State :=
  match (s.lane l).queue.getLast? with
  | some r => s.notify (some l) (.coilCut r.number r.start r.stop r.length r.flags r.partner (s.lane l).queue.length)
  | none => s

/-- The KS at RUN END (R93): spans absent, the rest kept. -/
def KnotRec.atRunEnd (k : KnotRec) : KnotRec :=
  { k with columns := k.columns.map fun c => { c with span := none }, meshSpan := none, unseenSpan := none }

/-- The link of a NET line, whose scan is abandoned and whose gate is released (R104). -/
def State.abandonScan (s : State) (l : LineId) : State :=
  match (s.line l).kind, (s.line l).cfg.scanLink with
  | .net, some k => s.modScanLink k fun r => { r with gate := false, scan := none }
  | _, _ => s

/-- The head at the end of its line's run (R75, R83). -/
def HeadRec.atRunEnd (r : HeadRec) : HeadRec := { r with window := none, stall := false, handFault := false, limitCount := 0 }

/-- A line's run ends (R10): every block's part. -/
def State.endRun (s : State) (l : LineId) : State :=
  let s1 := s.abandonScan l
  let s2 := match (s1.line l).kind with
    | .net => s1.modKnot l KnotRec.atRunEnd
    | .rope => s1
  let s3 := (s2.headsOf l).foldl (fun s h => s.modHead h HeadRec.atRunEnd) s2
  let s4 := s3.modSpanRec l SpanRec.emptied
  let s5 := s4.modPos l fun p => { p with slip := none, markTarget := none }
  let s6 := s5.modCoil l fun k => { k with coil := none, stage := .none, pairedHold := false }
  s6.modLine l fun r => { r with state := .idle, causes := r.causes.guardOnly }

/-- The coil length of a line at its present position, in nanometres. -/
def State.coilLength (s : State) (l : LineId) : Nat := (s.pos l).position - s.coilStart l

/-- Whether the two lengths of a pair differ by more than the follower's pair tolerance (R139). -/
def State.pairMismatch (s : State) (l f : LineId) : Bool :=
  decide ((s.line f).cfg.pairTolerance * nmPerMm < distance (s.coilLength l) (s.coilLength f))

/-- A cut of a line, and of its follower whose run is open, in one event (R134, R138). -/
def State.performCut (s : State) (l : LineId) (why : CutReason) : State :=
  let f := s.runningFollower l
  let both := l :: f.toList
  let mismatch := match f with
    | some f => s.pairMismatch l f
    | none => false
  let idOf := fun x => (x, (s.coilRec x).number)
  let s1 := both.foldl State.assertCutter s
  let s2 := s1.closeCoil l why true (f.map idOf) mismatch
  let s3 := match f with
    | some x => s2.closeCoil x why false (some (idOf l)) mismatch
    | none => s2
  match why with
  | .endOfRun =>
    let s4 := both.foldl (fun s x => s.modCoil x fun k => { k with number := nextNumber k.number }) s3
    let s5 := both.foldl State.notifyCut (s4.releasePair l)
    (both.foldl State.endRun s5).evaluateGrant
  | _ =>
    let s4 := both.foldl State.openNextCoil s3
    let s5 := both.foldl State.settleCoil (s4.applyPending both)
    (both.foldl State.notifyCut (s5.releasePair l)).evaluateGrant

/-- A due cut with a hold reason becomes HELD: the notice, and CUT_HELD offered to the line and to a follower whose run
is open, whose paired hold is set (R132, R143; order of the notices: assumption log 23). -/
def State.holdCut (s : State) (l : LineId) (p : Placement) : State :=
  let s1 := s.modCoil l fun k => { k with stage := .held p }
  let s2 := s1.notify (some l)
    (.cutHeld (s.coilRec l).number (mm p.target) (mm (s.pos l).position) (s.holds l))
  let s3 := s2.offerCause l .cutHeld
  match s.runningFollower l with
  | some f => (s3.offerCause f .cutHeld).modCoil f fun k => { k with pairedHold := true }
  | none => s3

/-- A placed cut is tested for falling due (R132). -/
def State.testDue (s : State) (l : LineId) (p : Placement) : State :=
  if p.target ≤ (s.pos l).position then
    if (s.holds l).any then s.holdCut l p else s.performCut l (.placement p)
  else s

/-- The CA's test after a count that changed the position (R130, R132). -/
def State.testCut (s : State) (l : LineId) : State :=
  match (s.coilRec l).stage with
  | .none =>
    match (s.coilRec l).coil, s.coilRecipe l with
    | some _, some r =>
      if s.placesOwnCuts l ∧ s.nominalCut l r ≤ (s.pos l).position then
        let p := placementFor (s.spanRec l).splices (s.nominalCut l r) (r.plusTolerance * nmPerMm) (r.endZone * nmPerMm)
        (s.modCoil l fun k => { k with stage := .placed p }).testDue l p
      else s
    | _, _ => s
  | .placed p => s.testDue l p
  | .held _ => s

/-- A line's own cut is HELD (R127). -/
def State.holdsCut (s : State) (l : LineId) : Bool :=
  match (s.coilRec l).stage with
  | .held _ => true
  | _ => false

/-- A held cut is tested again after an event that can remove a reason (R133). -/
def State.retest (s : State) (l : LineId) : State :=
  match (s.coilRec l).stage with
  | .held p =>
    if (s.holds l).any then s
    else if p.target ≤ (s.pos l).position then s.performCut l (.placement p)
    else (s.modCoil l fun k => { k with stage := .placed p }).releasePair l
  | _ => s

/-- The held cuts that an event of a line can release: its own and its leader's (R133). -/
def State.retestAround (s : State) (l : LineId) : State :=
  match (s.line l).cfg.leader with
  | some x => (s.retest l).retest x
  | none => s.retest l

end Sys2Proof.Machine
end

