-- ==== Sys2Proof/Machine/Twist.lean ====
section
/-! DEFINITION. The Twist Supervisor's measurements (spec/05): twist windows, trim correction, stall, flyer counts. -/

namespace Sys2Proof.Machine

/-- The product coordinate of a position seen at a head's flyer (R42). -/
def HeadSettings.coordinate (t : HeadSettings) (p : Nat) : Nat := p + t.offset * nmPerMm

/-- The hand a net flyer count shows through the Z sense; none for a count of 0 (R85). -/
def ZSense.handOf (z : ZSense) (n : Int) : Option Hand :=
  if n = 0 then none
  else match z with
    | .plus => if 0 < n then some .z else some .s
    | .minus => if n < 0 then some .z else some .s

/-- The hand step (R85): the kind of a window with net count `n`. -/
def windowKind (z : ZSense) (recipeHand : Hand) (countsPerTurn : Nat) (n : Int) : WindowKind :=
  if z.handOf n = none ∨ z.handOf n = some recipeHand then .normal
  else if n.natAbs ≤ 2 * countsPerTurn then .backlash
  else .hand

/-- The density before its limit, in centiturns per metre: a half rounds up (R86). -/
def rawDensity (count countsPerTurn length : Nat) : Nat :=
  (count * 100000000000 + countsPerTurn * length / 2) / (countsPerTurn * length)

/-- The density step (R86): the measured density and DENSITY_CLAMP. -/
def density (count countsPerTurn length : Nat) : Nat × Bool :=
  if 65535 < rawDensity count countsPerTurn length then (65535, true)
  else (rawDensity count countsPerTurn length, false)

/-- The deviation step (R87), in permille of the target. -/
def twistDeviation (target measured : Nat) : Int :=
  clampAbs 999 ((((target : Int) - measured) * 1000).tdiv target)

/-- The correction step's change of trim, after slew (R88). -/
def correction (deviation : Int) (gain slew : Nat) : Int := clampAbs slew ((deviation * gain * 10).tdiv 256)

/-- Whether a head's twist window closes at the line's position (R84). -/
def State.windowDue (s : State) (l : LineId) (h : HeadId) : Bool :=
  match (s.head h).window, s.boundRecipe l with
  | some w, some r => decide (r.window * nmPerMm ≤ (s.pos l).position - w.start)
  | _, _ => false

/-- The next window opens at the close of one (R84). The stall reference runs on. -/
def HeadRec.reopened (r : HeadRec) (at' : Nat) : HeadRec :=
  { r with window := r.window.map fun w => { w with start := at', count := 0 } }

/-- A HAND window (R85): its span, the hand condition, and no judgment. -/
def State.closeHandWindow (s : State) (l : LineId) (h : HeadId) (t : HeadSettings) (w : TwistWindow) : State :=
  let p1 := (s.pos l).position
  let s1 := s.submit l .hand (.head h) (.openOrExtend (t.coordinate w.start) (t.coordinate p1) 0)
  s1.modHead h fun r => { r with handFault := true, lastFlags := some ⟨.hand, false, false⟩ }

/-- The correction and limit steps (R88, R89): the trim, the working copy, the limit count and TRIM_EXHAUSTED. -/
def State.correctTrim (s : State) (l : LineId) (h : HeadId) (r : Recipe) (deviation : Int) (outside : Bool) : State :=
  let trim := clampAbs r.trimLimit ((s.head h).trim + correction deviation r.gain r.slew)
  let count := if trim.natAbs = r.trimLimit ∧ outside then min r.limitWindows ((s.head h).limitCount + 1) else 0
  let s1 := s.modHead h fun x => { x with
    trim := trim, limitCount := count
    lastFlags := x.lastFlags.map fun f => { f with corrected := true } }
  let s2 := if (s1.copy h).valid then (s1.setCopy h { s1.copy h with learned := trim }).remark h else s1
  if count = r.limitWindows then s2.offerCause l .trimExhausted else s2

/-- A NORMAL or BACKLASH window (R85 to R89). `n` is the count taken. -/
def State.closeJudgedWindow (s : State) (l : LineId) (h : HeadId) (t : HeadSettings) (w : TwistWindow) (r : Recipe)
    (target : Nat) (kind : WindowKind) (n : Nat) : State :=
  let p1 := (s.pos l).position
  let start := t.coordinate w.start
  let s1 := if (s.head h).handFault then
      (s.submit l .hand (.head h) (.close start)).modHead h fun x => { x with handFault := false }
    else s
  let d := density n t.countsPerTurn (p1 - w.start)
  let dev := twistDeviation target d.1
  let outside := decide (r.tolerance < dev.natAbs)
  let s2 := s1.modHead h fun x => { x with
    lastDensity := some d.1, lastDeviation := some dev, lastFlags := some ⟨kind, d.2, false⟩ }
  let s3 := if outside then s2.submit l .twist (.head h) (.openOrExtend start (t.coordinate p1) dev.natAbs)
    else s2.submit l .twist (.head h) (.close start)
  if s.guard.latch ∨ r.gain = 0 then s3 else s3.correctTrim l h r dev outside

/-- A head's twist window is tested after a count that changed the position, and at its close judged and the next one
opened (R84). -/
def State.testWindow (s : State) (l : LineId) (h : HeadId) : State :=
  if s.windowDue l h = false then s
  else
    match (s.head h).window, (s.head h).settings, s.boundRecipe l with
    | some w, some t, some r =>
      let s1 := match r.specFor t with
        | some q =>
          match windowKind t.zSense q.hand t.countsPerTurn w.count with
          | .hand => s.closeHandWindow l h t w
          | .backlash => s.closeJudgedWindow l h t w r q.target .backlash 0
          | .normal => s.closeJudgedWindow l h t w r q.target .normal w.count.natAbs
        | none => s
      s1.modHead h (·.reopened (s.pos l).position)
    | _, _, _ => s

/-- Whether the stall test of a head finds the stall length reached (R90). -/
def State.stallDue (s : State) (l : LineId) (h : HeadId) : Bool :=
  match (s.head h).window, s.boundRecipe l with
  | some w, some r => !(s.head h).stall && decide (r.stallLength * nmPerMm ≤ (s.pos l).position - w.stallRef)
  | _, _ => false

/-- The stall test of a head after a count that changed the position (R90). -/
def State.testStall (s : State) (l : LineId) (h : HeadId) : State :=
  if s.stallDue l h = false then s
  else
    match (s.head h).window, (s.head h).settings with
    | some w, some t =>
      let s1 := s.modHead h fun r => { r with stall := true }
      let s2 := s1.submit l .stall (.head h) (.openSpan (t.coordinate w.stallRef) none 0)
      s2.offerCause l .flyerStall
    | _, _ => s

/-- A flyer count taken for a head whose line has a run open (R80, R91). -/
def State.flyerCount (s : State) (h : HeadId) (sign : Int) : State :=
  match (s.head h).settings with
  | some t =>
    if s.runOpen t.line then
      let p := (s.pos t.line).position
      let s1 := if (s.head h).stall then
          (s.submit t.line .stall (.head h) (.close (t.coordinate p))).modHead h fun r => { r with stall := false }
        else s
      s1.modHead h fun r => { r with window := r.window.map fun w => { w with count := w.count + sign, stallRef := p } }
    else s
  | none => s

/-- The states a head reports (R76). -/
inductive HeadState where
  | unassigned | idle | stalled | handFault | limited | tracking
  deriving DecidableEq, Repr

def HeadState.code : HeadState → Nat
  | .unassigned => 0
  | .idle => 1
  | .stalled => 2
  | .handFault => 3
  | .limited => 4
  | .tracking => 5

/-- Whether a head's limit count stands at the limit windows K of its line's bound recipe (R76, R89). -/
def State.atLimit (s : State) (l : LineId) (h : HeadId) : Bool :=
  match s.boundRecipe l with
  | some r => (s.head h).limitCount == r.limitWindows
  | none => false

/-- The state a head reports: the first row of R76 that applies. -/
def State.headState (s : State) (h : HeadId) : HeadState :=
  match (s.head h).settings with
  | none => .unassigned
  | some t =>
    if (s.line t.line).state = .idle then .idle
    else if (s.head h).stall then .stalled
    else if (s.head h).handFault then .handFault
    else if s.atLimit t.line h then .limited
    else .tracking

/-- The flyer speed in turns per minute (R82). -/
def State.flyerSpeed (s : State) (h : HeadId) : Option Nat :=
  match (s.head h).settings with
  | some t =>
    if s.servesHead t.channel h then
      match (s.channel t.channel).lastPeriod with
      | some p => if 10000000 ≤ p then some 0 else some (240000000 / (p * t.countsPerTurn))
      | none => none
    else none
  | none => none

end Sys2Proof.Machine
end

