-- ==== Sys2Proof/Machine/Position.lean ====
section
/-! DEFINITION. The Line Position Unit (spec/03): counts of the authority and of the other channel, the slip check and
length marks, with the events that a change of position brings about in the other blocks. -/

namespace Sys2Proof.Machine

/-- The role of a line's authority channel (R38). -/
def Authority.role : Authority → Role
  | .haul => .haul
  | .wheel => .wheel

/-- The pitch of a count of the haul or wheel channel (R38, R47). -/
def LineConfig.pitchOf (c : LineConfig) : Role → Nat
  | .wheel => c.wheelPitch.getD 0
  | _ => c.haulPitch

/-- The bound of an advance (R49). -/
def addAdvance (x y : Int) : Int := clampAbs ceiling (x + y)

/-- The slip of a window, in permille (R50). -/
def slipOf (auth other : Int) : Int := clampAbs 999 (((auth - other) * 1000).tdiv auth)

/-- Whether the slip window's authority advance has reached the slip window length (R49). -/
def State.slipDue (s : State) (l : LineId) : Bool :=
  match (s.pos l).slip with
  | some w => decide (((s.line l).cfg.slipWindow * nmPerMm : Nat) ≤ w.authAdvance)
  | none => false

/-- The slip window is tested after a count of the authority channel, judged at its close, and the next one opened
(R48 to R51). -/
def State.testSlip (s : State) (l : LineId) : State :=
  match (s.pos l).slip with
  | some w =>
    if s.slipDue l then
      let slip := slipOf w.authAdvance w.otherAdvance
      let p := (s.pos l).position
      let s1 := if (s.line l).cfg.slipLimit < slip.natAbs then
          s.submit l .slip .line (.openOrExtend w.start p slip.natAbs)
        else s.submit l .slip .line (.close w.start)
      s1.modPos l fun r => { r with slip := some ⟨p, 0, 0⟩ }
    else s
  | none => s

/-- Whether a mark is due (R54). -/
def State.markDue (s : State) (l : LineId) : Bool :=
  match (s.pos l).markTarget with
  | some t => decide (t ≤ (s.pos l).position)
  | none => false

/-- The mark target is tested after a count that changed the position: a due mark is fired, or suppressed under the
guard latch, and the target advances by M (R54 to R56). -/
def State.testMark (s : State) (l : LineId) : State :=
  match (s.pos l).markTarget, s.coilRecipe l with
  | some t, some r =>
    if s.markDue l then
      let s1 := s.modPos l fun p => { p with markTarget := some (t + r.markInterval * nmPerMm) }
      if s.guard.latch then
        s1.modCoil l fun k => { k with coil := k.coil.map fun c => { c with suppressed := min 65535 (c.suppressed + 1) } }
      else
        (s1.modCoil l fun k => { k with coil := k.coil.map fun c => { c with marks := min 65535 (c.marks + 1) } }).modPos l
          fun p => { p with markerPulse := some (s.now + (s.line l).cfg.markerPulse * 1000) }
    else s
  | _, _ => s

/-- Whether the CA's test of a line would place a cut or find one due (R130, R132). -/
def State.cutPending (s : State) (l : LineId) : Bool :=
  match (s.coilRec l).stage with
  | .none =>
    match (s.coilRec l).coil, s.coilRecipe l with
    | some _, some r => s.placesOwnCuts l && decide (s.nominalCut l r ≤ (s.pos l).position)
    | _, _ => false
  | .placed p => decide (p.target ≤ (s.pos l).position)
  | .held _ => false

/-- The events that can fall on one count of a line's authority channel, after the position has changed. -/
inductive CountEvent where
  | runLimit
  | slip
  | mark
  | window (h : HeadId)
  | stall (h : HeadId)
  | cut
  deriving DecidableEq, Repr

/-- One of those events. -/
def State.countEvent (l : LineId) (s : State) : CountEvent → State
  | .runLimit => s.offerCause l .runLimit
  | .slip => s.testSlip l
  | .mark => s.testMark l
  | .window h => s.testWindow l h
  | .stall h => s.testStall l h
  | .cut => s.testCut l

/-- The events of the LPU itself. -/
def CountEvent.ofLpu : CountEvent → Bool
  | .runLimit | .slip | .mark => true
  | .window _ | .stall _ | .cut => false

/-- The events of the LPU, whatever places they have got among those of the other blocks, taken in a given order. -/
def inLpuOrder : List CountEvent → List CountEvent → List CountEvent
  | [], _ => []
  | e :: es, [] => e :: es
  | e :: es, x :: xs => if e.ofLpu then x :: inLpuOrder es xs else e :: inLpuOrder es (x :: xs)

/-- The events that fall on a count: those due now, and, where a due cut brings a new recipe, the tests of every head,
which that recipe can make due. Those of the LPU stand in the order R38 gives them. -/
def State.countEvents (s : State) (l : LineId) (clamped moved : Bool) : List CountEvent :=
  let recipeChange := s.cutPending l && (s.line l).pendingRecipe.isSome
  (if clamped then [.runLimit] else []) ++
  (if s.slipDue l then [.slip] else []) ++
  (if moved then
    (if s.markDue l then [.mark] else []) ++
    ((s.headsOf l).filter fun h => s.windowDue l h || recipeChange).map .window ++
    ((s.headsOf l).filter fun h => s.stallDue l h || recipeChange).map .stall ++
    (if s.cutPending l then [.cut] else [])
  else [])

/-- The position after a count (R39, R40), and whether it was clamped at the floor and at the ceiling. -/
def movedPosition (floor pitch position : Nat) (forward : Bool) : Nat × Bool × Bool :=
  if forward then
    if position + pitch ≤ ceiling then (position + pitch, false, false) else (ceiling, false, true)
  else
    if floor + pitch ≤ position then (position - pitch, false, false) else (floor, true, false)

/-- The signed pitch of a count. -/
def signedPitch (pitch : Nat) (forward : Bool) : Int := if forward then (pitch : Int) else -(pitch : Int)

/-- A count of the authority channel of a line whose run is open (R38 to R40, R49): the position, the authority
advance, and then what falls due on the count. The LPU offers RUN_LIMIT, tests the slip window and then the mark target,
and the events of the other blocks fall among these in a free order (assumption log 18). -/
def State.authorityCount (s : State) (l : LineId) (pitch : Nat) (forward : Bool) : State :=
  let before := (s.pos l).position
  let m := movedPosition (s.coilStart l) pitch before forward
  let s1 := s.modPos l fun p => { p with
    position := m.1
    slip := p.slip.map fun w => { w with authAdvance := addAdvance w.authAdvance (signedPitch pitch forward) } }
  let s2 := if m.2.1 then s1.modLine l fun r => { r with reverseClamp := true } else s1
  let events := s2.countEvents l m.2.2 (m.1 != before)
  s2.inOrder (inLpuOrder (freelyOrdered s2.choices events) (events.filter CountEvent.ofLpu)) (State.countEvent l)

/-- A count of the other channel feeds the slip window alone (R38, R49). -/
def State.otherCount (s : State) (l : LineId) (pitch : Nat) (forward : Bool) : State :=
  s.modPos l fun p => { p with
    slip := p.slip.map fun w => { w with otherAdvance := addAdvance w.otherAdvance (signedPitch pitch forward) } }

/-- A count handed to the LPU by a HAUL or WHEEL channel that serves the line (R38). -/
def State.lineCount (s : State) (l : LineId) (role : Role) (forward : Bool) : State :=
  if s.runOpen l then
    let c := (s.line l).cfg
    if role = c.authority.role then s.authorityCount l (c.pitchOf role) forward
    else s.otherCount l (c.pitchOf role) forward
  else s

/-- An accepted splice capture (R43): the coordinate goes to the SR. -/
def State.spliceCaptured (s : State) (l : LineId) (position : Nat) : State :=
  s.submitSplice l (position + ((s.line l).cfg.spliceOffset.getD 0) * nmPerMm)

end Sys2Proof.Machine
end

