-- ==== Sys2Proof/Machine/Knot.lean ====
section
/-! DEFINITION. The Knot Supervisor (spec/06): shaft arrivals, the gate, the scan link and the judgment of rows. -/

namespace Sys2Proof.Machine

/-! ## Frames of the boards (R99, R101) -/

/-- The number of ones among the lowest `n` bits. -/
def onesBelow (w : BitVec 10) : Nat → Nat
  | 0 => 0
  | n + 1 => (w.getLsbD n).toNat + onesBelow w n

/-- Good parity: bits 1 to 9 hold an odd number of ones (R99, R101). Bit 1 of the manual is bit 0 of the word. -/
def parityGood (w : BitVec 10) : Bool := onesBelow w 9 % 2 == 1

/-- The END bit: bit 10 (R99). -/
def endBit (w : BitVec 10) : Bool := w.getLsbD 9

/-- The columns of a frame: bits 1 to 8 (R99). -/
def columnBits (w : BitVec 10) : BitVec 8 := w.setWidth 8

/-- The judgment of column number `c + 1` from the frames read (R105 step 4): board ⌈(c + 1) / 8⌉. -/
def judgeColumn (frames : List BoardRead) (overrun : Bool) (c : Nat) : ColumnMark :=
  if overrun then .unknown
  else match frames[c / 8]? with
    | some b => if b.good then (if b.bits.getLsbD (c % 8) then .tied else .missed) else .unknown
    | none => .unknown

/-! ## Judging a row (R105 to R110) -/

/-- Change the history of column number `c + 1`. -/
def KnotRec.onColumn (k : KnotRec) (c : Nat) (f : ColumnHistory → ColumnHistory) : KnotRec :=
  { k with columns := k.columns.mapIdx fun i h => if i = c then f h else h }

/-- The history of column number `c + 1`. -/
def KnotRec.column (k : KnotRec) (c : Nat) : ColumnHistory := (k.columns[c]?).getD ⟨0, none⟩

/-- The span kind of a column's open span. -/
def ColumnSpanKind.kind : ColumnSpanKind → SpanKind
  | .knot => .knot
  | .break => .break

/-- A column judged TIED at a coordinate (R106). -/
def State.columnTied (s : State) (l : LineId) (c coord : Nat) : State :=
  let s1 := match ((s.knot l).column c).span with
    | some (k, start) => s.submit l k.kind (.column (c + 1)) (.close (max coord start))
    | none => s
  s1.modKnot l (·.onColumn c fun _ => ⟨0, none⟩)

/-- A column judged MISSED at a coordinate (R107, R108; order of the notices: assumption log 23). -/
def State.columnMissed (s : State) (l : LineId) (k : KnotSpec) (c coord : Nat) : State :=
  let h := (s.knot l).column c
  let count := min 15 (h.misses + 1)
  let span : ColumnSpanKind × Nat := h.span.getD (.knot, coord)
  let s1 := match h.span with
    | none => s.submit l .knot (.column (c + 1)) (.openSpan coord (some coord) count)
    | some (kind, start) => s.submit l kind.kind (.column (c + 1)) (.extend (max coord start) count)
  let s2 := s1.modKnot l (·.onColumn c fun _ => ⟨count, some span⟩)
  if count < k.breakThreshold then s2
  else
    let s3 := match span.1 with
      | .knot =>
        let s4 := s2.submit l .break (.column (c + 1)) .upgrade
        let s5 := s4.modKnot l (·.onColumn c fun _ => ⟨count, some (.break, span.2)⟩)
        s5.notify (some l) (.twineBreak (c + 1) (s5.knot l).rowIndex (mm span.2) count
          (k.stopOnBreak && !(s5.line l).causes.twineBreak))
      | .break => s2
    if k.stopOnBreak then s3.offerCause l .twineBreak else s3

/-- A column of a row handled by its judgment (R106 to R108). -/
def State.judgedColumn (s : State) (l : LineId) (k : KnotSpec) (c coord : Nat) : ColumnMark → State
  | .tied => s.columnTied l c coord
  | .missed => s.columnMissed l k c coord
  | .unknown => s

/-- The UNSEEN step of a row's judgment (R109). -/
def State.judgeUnseen (s : State) (l : LineId) (overrun : Bool) (lo hi : Nat) : State :=
  match overrun, (s.knot l).unseenSpan with
  | true, none =>
    (s.submit l .unseen .line (.openOrExtend lo hi 0)).modKnot l fun k => { k with unseenSpan := some lo }
  | true, some start => s.submit l .unseen .line (.extend (max hi start) 0)
  | false, some start =>
    (s.submit l .unseen .line (.close (max lo start))).modKnot l fun k => { k with unseenSpan := none }
  | false, none => s

/-- The deviation of a row's pitch from the mesh pitch, in permille (R110). -/
def meshDeviation (pitch : Int) (meshPitch : Nat) : Int :=
  clampAbs 999 (((pitch - (meshPitch * nmPerMm : Nat)) * 1000).tdiv (meshPitch * nmPerMm : Nat))

/-- The mesh step of a row's judgment: no check for the first row of a run (R110). -/
def State.judgeMesh (s : State) (l : LineId) (spec : KnotSpec) (closePos lo hi : Nat) : State :=
  match (s.knot l).lastRowPos with
  | none => s
  | some last =>
    let dev := (meshDeviation ((closePos : Int) - last) spec.meshPitch).natAbs
    match decide (spec.meshTolerance < dev), (s.knot l).meshSpan with
    | true, none =>
      (s.submit l .mesh .line (.openOrExtend lo hi dev)).modKnot l fun k => { k with meshSpan := some lo }
    | true, some start => s.submit l .mesh .line (.extend (max hi start) dev)
    | false, some start =>
      (s.submit l .mesh .line (.close (max lo start))).modKnot l fun k => { k with meshSpan := none }
    | false, none => s

/-- What a board's frame gave (R105). -/
def boardMark (frames : List BoardRead) (i : Nat) : BoardMark :=
  match frames[i]? with
  | some b => if b.good then .good else .bad
  | none => .unread

/-- The coordinate of a row: the gate-close position plus the knot offset, raised to the open coil's start (R105). -/
def State.rowCoordinate (s : State) (l : LineId) (closePos : Nat) : Nat :=
  max (closePos + ((s.line l).cfg.knotOffset.getD 0) * nmPerMm) (s.coilStart l)

/-- The judgment of a row, its seven steps in order (R105). -/
def State.judgeRow (s : State) (l : LineId) (scan : Scan) (outcome : ScanOutcome) (endBoard : Option Nat) : State :=
  match s.knotSpec l with
  | none => s
  | some spec =>
    let overrun := decide (outcome = .overrun)
    let s1 := s.modKnot l fun k => { k with rowIndex := (k.rowIndex + 1) % 4294967296 }
    let coord := s1.rowCoordinate l scan.closePos
    let last := ((s1.knot l).lastRowCoord).getD coord
    let lo := min last coord
    let hi := max last coord
    let marks := (List.range spec.columnsUsed).map (judgeColumn scan.frames overrun)
    let s2 := marks.zipIdx.foldl (fun s m => s.judgedColumn l spec m.2 coord m.1) s1
    let s3 := s2.judgeUnseen l overrun lo hi
    let s4 := s3.judgeMesh l spec scan.closePos lo hi
    s4.modKnot l fun k => { k with
      lastRowPos := some scan.closePos
      lastRowCoord := some coord
      lastScan := some
        { row := k.rowIndex
          coordinate := coord
          outcome := outcome
          boards := (List.range ((s.line l).cfg.boardCount.getD 0)).map (boardMark scan.frames)
          endBoard := endBoard
          columns := marks } }

/-! ## The gate (R97, R98) -/

/-- The gate counts of a line: open and close (R97). -/
def gateCounts (spec : KnotSpec) (countsPerRev : Nat) : Nat × Nat :=
  let o := spec.gateOpen * countsPerRev / 360
  let c := spec.gateClose * countsPerRev / 360
  if o = c then (o, o + 1) else (o, c)

/-- The gate counts under the bound recipe, if the line has one: absent also while the bound slot holds a ROPE recipe, which
has no gate angles (assumption log 53). -/
def State.gateCountsOf (s : State) (l : LineId) : Option (Nat × Nat) :=
  match s.knotSpec l, (s.line l).cfg.countsPerRev with
  | some k, some n => some (gateCounts k n)
  | _, _ => none

/-- The gate counts in force: those taken at the last shaft arrival, which a recipe applied at a cut leaves until the next
one, and before the first arrival of a run those of the bound recipe; absent without a bound recipe (R97, R112; assumption
log 47). -/
def State.gateInForce (s : State) (l : LineId) : Option (Nat × Nat) :=
  (s.gateCountsOf l).map (s.knot l).gateTaken.getD

/-- The gate level of a line: high when SYNCED and the angle is from the open count to below the close count (R97). -/
def State.gateLevel (s : State) (l : LineId) : Bool :=
  match s.gateInForce l with
  | some g => (s.knot l).sync == .synced && decide (g.1 ≤ (s.knot l).angle ∧ (s.knot l).angle < g.2)
  | none => false

/-- The gate is evaluated after a shaft arrival (R98): an opening overruns a scan in progress (R103), a close begins a
scan (R100). -/
def State.evaluateGate (s : State) (l : LineId) : State :=
  match (s.line l).cfg.scanLink with
  | none => s
  | some k =>
    match s.gateLevel l, (s.scanLink k).gate with
    | true, false =>
      let s1 := match (s.scanLink k).scan with
        | some scan => (s.modScanLink k fun r => { r with scan := none }).judgeRow l scan .overrun none
        | none => s
      s1.modScanLink k fun r => { r with gate := true }
    | false, true =>
      s.modScanLink k fun r => { r with gate := false, scan := some ⟨(s.pos l).position, []⟩ }
    | _, _ => s

/-- The gate counts are taken from the bound recipe at each shaft arrival (R97). -/
def State.takeGate (s : State) (l : LineId) : State := s.modKnot l fun k => { k with gateTaken := s.gateCountsOf l }

/-- A shaft arrival taken for a line: a count, an index, or both (R95, R96). -/
def State.shaftArrival (s : State) (l : LineId) (index : Bool) : State :=
  let limit := 2 * ((s.line l).cfg.countsPerRev.getD 0)
  let s1 := s.takeGate l
  if index then
    (s1.modKnot l fun k => { k with angle := 0, sync := .synced }).evaluateGate l
  else if (s.knot l).sync = .lost then s1.evaluateGate l
  else if limit ≤ (s.knot l).angle + 1 then
    ((s1.modKnot l fun k => { k with angle := limit, sync := .lost }).evaluateGate l).offerCause l .shaftIndex
  else (s1.modKnot l fun k => { k with angle := k.angle + 1 }).evaluateGate l

/-! ## Board frames (R100 to R102) -/

/-- The parity check of board `b + 1` as its frame completes (R101; order of the notices: assumption log 23). -/
def State.checkParity (s : State) (k : ScanLink) (l : LineId) (b : Nat) (good : Bool) : State :=
  if good then s.modScanLink k fun r => { r with parity := r.parity.mapIdx fun i n => if i = b then 0 else n }
  else
    let count := min 255 (((s.scanLink k).parity[b]?).getD 0 + 1)
    let s1 := s.modScanLink k fun r => { r with parity := r.parity.mapIdx fun i n => if i = b then count else n }
    let s2 := if count = 3 then s1.notify (some l) (.scanFault k .boardFault (some (b + 1)) (s1.knot l).rowIndex) else s1
    if 3 ≤ count then s2.offerCause l .boardFault else s2

/-- The chain state a scan's outcome gives (R100). -/
def ScanOutcome.chain : ScanOutcome → Option ChainState
  | .complete => some .normal
  | .short => some .short
  | .long => some .long
  | .overrun => none

/-- The chain state is set at the end of a scan, with a notice when it changes to SHORT or LONG (R102). A SCAN_FAULT of reason
CHAIN_LONG names no board, and its board field has the absent code (R113; assumption log 48). -/
def State.setChain (s : State) (k : ScanLink) (l : LineId) (outcome : ScanOutcome) (endBoard : Option Nat) : State :=
  match outcome.chain with
  | none => s
  | some c =>
    let s1 := s.modScanLink k fun r => { r with chain := c }
    if (s.scanLink k).chain = c then s1
    else match c with
      | .normal => s1
      | .short => s1.notify (some l) (.scanFault k .chainShort endBoard (s1.knot l).rowIndex)
      | .long => s1.notify (some l) (.scanFault k .chainLong none (s1.knot l).rowIndex)

/-- The two things done at the end of a scan. -/
inductive ScanEndEvent where
  | judge
  | chain
  deriving DecidableEq, Repr

/-- A scan ends complete, short or long (R100): the link's scan goes idle, the row is judged and the chain state set.
Where the chain state changes to SHORT or LONG, with its notice, no rule says which of the two comes first: a free
order (assumption log 19). -/
def State.endScan (s : State) (k : ScanLink) (l : LineId) (scan : Scan) (outcome : ScanOutcome) (endBoard : Option Nat) :
    State :=
  let s1 := s.modScanLink k fun r => { r with scan := none }
  if outcome = .complete ∨ outcome.chain = some (s.scanLink k).chain then
    (s1.judgeRow l scan outcome endBoard).setChain k l outcome endBoard
  else s1.inAnyOrder [ScanEndEvent.judge, ScanEndEvent.chain] fun s e =>
    match e with
    | .judge => s.judgeRow l scan outcome endBoard
    | .chain => s.setChain k l outcome endBoard

/-- A board's ten-bit frame completes on a scan link (R99 to R101). Without a scan in progress no frame is clocked. -/
def State.boardFrame (s : State) (k : ScanLink) (bits : BitVec 10) : State :=
  match (s.scanLink k).scan, s.linkOwner k with
  | some scan, some l =>
    let b := scan.frames.length
    let last := decide ((s.line l).cfg.boardCount.getD 0 ≤ b + 1)
    let read : Scan := { scan with frames := scan.frames ++ [⟨parityGood bits, columnBits bits⟩] }
    let s1 := (s.modScanLink k fun r => { r with scan := some read }).checkParity k l b (parityGood bits)
    match last, endBit bits with
    | true, true => s1.endScan k l read .complete (some (b + 1))
    | true, false => s1.endScan k l read .long none
    | false, true => s1.endScan k l read .short (some (b + 1))
    | false, false => s1
  | _, _ => s

/-- BOARD_FRAME (R101). -/
def execBoardFrame (link : ScanLink) (bits : BitVec 10) (s : State) : Host.Outcome State Fault Refusal :=
  done (s.boardFrame link bits)

end Sys2Proof.Machine
end

