-- ==== Sys2Proof/Machine/Channels.lean ====
section
/-! DEFINITION. The Sensing Channel Unit (spec/02): level changes of the channels, periods, and the requests of the
channel table. -/

namespace Sys2Proof.Machine

/-! ## Decoding (R22 to R31) -/

/-- Whether a one-step change of a phase goes along the forward cycle 00, 10, 11, 01 (R24). `a` and `b` are the
reference levels before it. -/
def forwardStep (a b : Bool) : Phase → Bool
  | .a => !a != b
  | .b => !b == a

/-- The period timer's value at a date: microseconds since the last qualifying edge, held at 10,000,000 (R27). An edge comes
at least 1 microsecond after the one before it (R22; assumption log 9). -/
def timerValue (date from' : Nat) : Nat := max 1 (min 10000000 (date - from'))

/-- A qualifying edge with its date (R27, R28). -/
def Channel.qualifyingEdge (c : Channel) (date : Nat) : Channel :=
  match c.timerFrom with
  | some f => { c with lastPeriod := some (timerValue date f), timerFrom := some date }
  | none => { c with timerFrom := some date }

/-- Periods are measured on phase A of a HAUL or FLYER channel, at its rising changes as wired (R27). -/
def Channel.timed (c : Channel) (date : Nat) (levelA : Bool) : Channel :=
  if (c.role = .haul ∨ c.role = .flyer) ∧ c.refA = false ∧ levelA = true then c.qualifyingEdge date else c

/-- The new levels become the phase reference (R21, R24, R25). -/
def Channel.withLevels (c : Channel) (levelA levelB : Bool) : Channel := { c with refA := levelA, refB := levelB }

/-- A count handed on is applied by its consumer: the LPU for HAUL and WHEEL, the TS for FLYER (R23, R38, R80). -/
def State.handCount (s : State) (ch : ChannelId) (forward : Bool) : State :=
  match (s.channel ch).role, s.servedLine ch with
  | .haul, some l => s.lineCount l .haul forward
  | .wheel, some l => s.lineCount l .wheel forward
  | .flyer, some _ =>
    match (s.channel ch).consumer with
    | some (.head h) => s.flyerCount h (if forward then 1 else -1)
    | _ => s
  | _, _ => s

/-- A one-step transition of a channel in quadrature: one count, in the direction of the phase order and the invert
setting (R24). -/
def State.quadratureStep (s : State) (ch : ChannelId) (date : Nat) (phase : Phase) : State :=
  let c := s.channel ch
  let forward := forwardStep c.refA c.refB phase != c.invert
  let a := match phase with
    | .a => !c.refA
    | .b => c.refA
  let b := match phase with
    | .a => c.refB
    | .b => !c.refB
  let s1 := s.modChannel ch fun c =>
    ((c.timed date a).withLevels a b |> fun c => { c with count := if forward then c.count + 1 else c.count - 1 })
  s1.handCount ch forward

/-- A transition of both phases of a channel in quadrature (R25). -/
def State.illegalStep (s : State) (ch : ChannelId) (date : Nat) : State :=
  let s1 := s.modChannel ch fun c =>
    ((c.timed date (!c.refA)).withLevels (!c.refA) (!c.refB) |> fun c => { c with tally := min 32 (c.tally + 1) })
  match decide ((s1.channel ch).tally = 32), s1.servedLine ch with
  | true, some l => s1.offerCause l .sensor
  | _, _ => s1

/-- Whether a change of a level is a rising edge, read through invert (R30, R31). -/
def risingEdge (invert before after : Bool) : Bool := before != after && after != invert

/-- A level change of a SHAFT channel: its rising edges are a count, an index, or both in one arrival (R30). The KS
takes the arrival of a channel that serves a line with a run open (R95). -/
def State.shaftStep (s : State) (ch : ChannelId) (a b : Bool) : State :=
  let c := s.channel ch
  let count := risingEdge c.invert c.refA a
  let index := risingEdge c.invert c.refB b
  let s1 := s.modChannel ch fun c => { c.withLevels a b with count := if count then c.count + 1 else c.count }
  if count || index then
    match s1.servedLine ch with
    | some l => if s1.runOpen l then s1.shaftArrival l index else s1
    | none => s1
  else s1

/-- The spacing test of an edge at a position (R31). -/
def spacingPasses (capture : Option Nat) (position spacing : Nat) : Bool :=
  match capture with
  | none => true
  | some x => decide (spacing * nmPerMm ≤ distance position x)

/-- A level change of a SPLICE channel: a rising edge of A is counted, and captured if its line runs and the spacing
test passes (R31). -/
def State.spliceStep (s : State) (ch : ChannelId) (a b : Bool) : State :=
  let c := s.channel ch
  let edge := risingEdge c.invert c.refA a
  let s1 := s.modChannel ch fun c => { c.withLevels a b with count := if edge then c.count + 1 else c.count }
  match edge, s1.servedLine ch with
  | true, some l =>
    let p := (s1.pos l).position
    if s1.runOpen l && spacingPasses c.capture p ((s1.line l).cfg.spliceSpacing.getD 0) then
      (s1.modChannel ch fun c => { c with capture := some p }).spliceCaptured l p
    else s1
  | _, _ => s1

/-- The input filter (R22): a level that returns in less than 2 microseconds is ignored with both its edges; a change that
holds is accepted once it has held for 2, and the time base moves on to that instant if it lies ahead (assumption log 4). -/
def State.filtered (s : State) (w : ChannelChange) (take : State → State) : State :=
  s.ifHeld w.held fun s => take (s.advanceTo (w.date + 2))

/-- An accepted change of a channel's levels, with its date, is decoded as its role says (R22, R23). Levels equal to the
reference are no change. -/
def State.takeLevels (s : State) (ch : ChannelId) (date : Nat) (a b : Bool) : State :=
  let c := s.channel ch
  match c.role with
  | .free => s.modChannel ch (·.withLevels a b)
  | .shaft => s.shaftStep ch a b
  | .splice => s.spliceStep ch a b
  | .haul | .wheel | .flyer =>
    match c.refA != a, c.refB != b with
    | true, true => s.illegalStep ch date
    | true, false => s.quadratureStep ch date .a
    | false, true => s.quadratureStep ch date .b
    | false, false => s

/-! ## Events -/

/-- QUADRATURE_COUNT: one phase of a channel changes (R24). -/
def execQuadratureCount (w : ChannelChange) (phase : Phase) (s : State) : Host.Outcome State Fault Refusal :=
  let c := s.channel w.channel
  done (s.filtered w fun s =>
    match phase with
    | .a => s.takeLevels w.channel w.date (!c.refA) c.refB
    | .b => s.takeLevels w.channel w.date c.refA (!c.refB))

/-- ILLEGAL_TRANSITION: both phases of a channel change with one date (R25). -/
def execIllegalTransition (w : ChannelChange) (s : State) : Host.Outcome State Fault Refusal :=
  let c := s.channel w.channel
  done (s.filtered w fun s => s.takeLevels w.channel w.date (!c.refA) (!c.refB))

/-- PERIOD_SATURATION: the period timer reaches 10,000,000 microseconds (R28). A channel without a timer has no
saturation. -/
def execPeriodSaturation (ch : ChannelId) (s : State) : Host.Outcome State Fault Refusal :=
  match (s.channel ch).timerFrom with
  | some f => done ((s.advanceTo (f + 10000000)).modChannel ch fun c => { c with lastPeriod := some 10000000 })
  | none => done s

/-- SHAFT_EDGE: a rising edge of the count or index phase of a SHAFT channel (R30). -/
def execShaftEdge (w : ChannelChange) (levelA levelB : Bool) (s : State) : Host.Outcome State Fault Refusal :=
  done (s.filtered w fun s => s.takeLevels w.channel w.date levelA levelB)

/-- SPLICE_EDGE: a rising edge of phase A of a SPLICE channel (R31). -/
def execSpliceEdge (w : ChannelChange) (levelA levelB : Bool) (s : State) : Host.Outcome State Fault Refusal :=
  done (s.filtered w fun s => s.takeLevels w.channel w.date levelA levelB)

/-- PHASE_LEVEL_CHANGE: levels change without a count, index or capture (R21, R22). -/
def execPhaseLevelChange (w : ChannelChange) (levelA levelB : Bool) (s : State) : Host.Outcome State Fault Refusal :=
  done (s.filtered w fun s => s.takeLevels w.channel w.date levelA levelB)

/-! ## Requests (R33 to R35) -/

/-- The target check of a consumer (R33 check 1). -/
def consumerNamed : ConsumerArg → Option Consumer
  | .line n => (LineId.ofCode n).map .line
  | .head n => if h : n < 16 then some (.head ⟨n, h⟩) else none

/-- Whether a consumer is of the sort its role takes (R33 check 3). -/
def Role.takes : Role → Consumer → Bool
  | .flyer, .head _ => true
  | .flyer, .line _ => false
  | _, .line _ => true
  | _, .head _ => false

/-- A line with a run open, if there is one (R33 check 4). -/
def State.busy (s : State) (l : Option LineId) : Bool :=
  match l with
  | some x => s.runOpen x
  | none => false

/-- A channel's fields at the start of an assignment (R21, R33): the phase reference is the levels present. -/
def Channel.assigned (c : Channel) (role : Role) (consumer : Option Consumer) (invert : Bool) : Channel :=
  { c with
    role := role
    consumer := consumer
    invert := invert
    count := 0
    timerFrom := none
    lastPeriod := none
    tally := 0
    capture := none }

/-- A consumer's code: a line 0 to 3, a head 0 to 15, or absent (R172, R173). -/
def encConsumer : Option Consumer → List Byte
  | some (.line l) => encLine l
  | some (.head h) => enc8 h.val
  | none => enc8 0xFF

/-- Whether a channel serves a line, and which (R32). -/
def encServed (l : Option LineId) : List Byte := encBool l.isSome ++ encOptLine l

/-- What the SCU makes of CHANNEL SET (R33). An invert code above 1 fails field 4 after check 3 and before check 4
(assumption log 42). -/
def State.channelSet (s : State) (f : ChannelSetArgs) : Result :=
  withChannel f.channel fun ch =>
    match consumerNamed f.consumer with
    | none => refuse .badTarget
    | some who =>
      match Role.ofCode f.role with
      | none => badField 2
      | some role =>
        if role.takes who = false then badField 3
        else match boolOfCode f.invert with
          | none => badField 4
          | some invert =>
            if s.busy (s.consumingLine (s.channel ch).consumer) ∨ s.busy (s.consumingLine (some who)) then refuse .inUse
            else
              let s1 := s.modChannel ch (·.assigned role (some who) invert)
              accept s1 (enc8 ch.val ++ enc8 role.code ++ encConsumer (some who) ++ encBool invert ++
                encServed (s1.servedLine ch))

/-- What the SCU makes of CHANNEL FREE (R34). -/
def State.channelFree (s : State) (channel : Nat) : Result :=
  withChannel channel fun ch =>
    if s.busy (s.consumingLine (s.channel ch).consumer) then refuse .inUse
    else accept (s.modChannel ch (·.assigned .free none false))
      (enc32 (s.channel ch).count.toNat ++ enc8 (s.channel ch).tally)

/-- Whether the period timer is held at saturation (R28, R35). -/
def State.timerSaturated (s : State) (ch : ChannelId) : Bool :=
  match (s.channel ch).timerFrom with
  | some f => decide (10000000 ≤ s.now - f)
  | none => false

/-- What the SCU makes of CHANNEL READ (R35). -/
def State.channelRead (s : State) (channel : Nat) : Result :=
  withChannel channel fun ch =>
    let c := s.channel ch
    accept (s.modChannel ch fun c => { c with tally := 0 })
      (enc8 c.role.code ++ encConsumer c.consumer ++ encBool c.invert ++ enc32 c.count.toNat ++ encOpt32 c.lastPeriod ++
        encBool (s.timerSaturated ch) ++ enc8 c.tally ++ encOptMm c.capture ++ encBool c.refA ++ encBool c.refB ++
        encServed (s.servedLine ch))

/-- CHANNEL_SET (R33), kind 0x01. -/
def execChannelSet (tag : Byte) (f : ChannelSetArgs) (s : State) : Host.Outcome State Fault Refusal :=
  request 0x01 tag (·.channelSet f) s

/-- CHANNEL_FREE (R34), kind 0x02. -/
def execChannelFree (tag : Byte) (channel : Nat) (s : State) : Host.Outcome State Fault Refusal :=
  request 0x02 tag (·.channelFree channel) s

/-- CHANNEL_READ (R35), kind 0x03. -/
def execChannelRead (tag : Byte) (channel : Nat) (s : State) : Host.Outcome State Fault Refusal :=
  request 0x03 tag (·.channelRead channel) s

end Sys2Proof.Machine
end

