-- ==== Sys2Proof/Machine/Heads.lean ====
section
/-! DEFINITION. The requests of the head table: HEAD SET, HEAD FREE, HEAD STATUS (spec/05). -/

namespace Sys2Proof.Machine

/-- Another head is assigned to the line at the strand position (R77 check 3). -/
def State.positionTaken (s : State) (h : HeadId) (l : LineId) (p : Nat) : Bool :=
  (s.headsOf l).any fun x =>
    x != h && match (s.head x).settings with
      | some t => t.position.val == p
      | none => false

/-- The first field of HEAD SET that is out of range (R77 checks 2 and 3), given that no other head of the line sits at
the position. -/
def headSetFailure (f : HeadSetArgs) (taken : Bool) : Option Nat :=
  firstFailure [(3, inRange 0 12 f.position), (5, inRange 1 1024 f.countsPerTurn), (6, inRange 0 200000 f.offset),
    (7, (ZSense.ofCode f.zSense).isSome), (3, !taken)]

/-- Whether an accepted HEAD SET keeps the head's line and strand position (R78). -/
def HeadRec.keepsPlace (r : HeadRec) (l : LineId) (p : StrandPos) : Bool :=
  match r.settings with
  | some t => t.line == l && t.position == p
  | none => false

/-- A head whose line or position changes (R78): last-window fields, conditions and limit count cleared. -/
def HeadRec.cleared (r : HeadRec) : HeadRec :=
  { r with
    stall := false
    handFault := false
    limitCount := 0
    lastDensity := none
    lastDeviation := none
    lastFlags := none }

/-- What the TS makes of HEAD SET (R77, R78). -/
def State.headSet (s : State) (f : HeadSetArgs) : Result :=
  withHead f.head fun h => withLine f.line fun l => withChannel f.channel fun ch =>
    match headSetFailure f (s.positionTaken h l f.position) with
    | some n => badField n
    | none =>
      if hp : f.position < 13 then
        match ZSense.ofCode f.zSense with
        | none => badField 7
        | some z =>
          if s.busy ((s.head h).settings.map (·.line)) ∨ s.runOpen l then refuse .inUse
          else
            let t : HeadSettings := ⟨l, ⟨f.position, hp⟩, ch, f.countsPerTurn, f.offset, z⟩
            let keeps := (s.head h).keepsPlace l ⟨f.position, hp⟩
            let s1 := s.modHead h fun r => { (if keeps then r else r.cleared) with settings := some t }
            let s2 := if keeps then s1 else s1.invalidate h
            accept s2 (enc8 h.val ++ encLine l ++ enc8 f.position ++ enc8 ch.val ++ enc16 f.countsPerTurn ++
              enc32 f.offset ++ enc8 z.code ++ encI16 (s2.head h).trim ++ enc8 (s2.copy h).state.code ++
              encBool (s2.servesHead ch h))
      else badField 3

/-- What the TS makes of HEAD FREE (R79). -/
def State.headFree (s : State) (head : Nat) : Result :=
  withHead head fun h =>
    if s.busy ((s.head h).settings.map (·.line)) then refuse .inUse
    else
      let payload := encI16 (s.head h).trim ++ encI16 (s.copy h).learned ++ enc8 (s.copy h).state.code
      match (s.head h).settings with
      | none => accept s payload
      | some _ =>
        accept ((s.modHead h fun r => { r.cleared with settings := none, window := none }).invalidate h) payload

/-- The settings part of HEAD STATUS (R82). -/
def encHeadSettings : Option HeadSettings → List Byte
  | some t => encLine t.line ++ enc8 t.position.val ++ enc8 t.channel.val ++ enc16 t.countsPerTurn ++ enc32 t.offset ++
      enc8 t.zSense.code
  | none => enc8 0xFF ++ enc8 0xFF ++ enc8 0xFF ++ enc16 0xFFFF ++ enc32 0xFFFFFFFF ++ enc8 0xFF

/-- The last window flags (R82): the kind and the two flags, a byte each (assumption log 14). -/
def encWindowFlags : Option WindowFlags → List Byte
  | some f => enc8 f.kind.code ++ encBool f.densityClamp ++ encBool f.corrected
  | none => enc8 0xFF ++ enc8 0xFF ++ enc8 0xFF

/-- The position of a head's line, if the head is assigned. -/
def State.headPosition (s : State) (h : HeadId) : Option Nat := (s.head h).settings.map fun t => (s.pos t.line).position

/-- A signed difference in whole millimetres, truncated toward zero (R82). -/
def mmOf (nm : Int) : Int := nm.tdiv nmPerMm

/-- A signed number of 4 bytes, absent as the lowest code (R173). -/
def encOptI32 : Option Int → List Byte
  | some x => enc32 (BitVec.ofInt 32 x).toNat
  | none => enc32 0x80000000

/-- Window progress: the advance p - p0 and n; absent without an open window (R82). -/
def State.encWindowProgress (s : State) (h : HeadId) : List Byte :=
  match (s.head h).window, s.headPosition h with
  | some w, some p => encOptI32 (some (mmOf ((p : Int) - w.start))) ++ encOptI32 (some w.count)
  | _, _ => encOptI32 none ++ encOptI32 none

/-- Stall distance: position less stall reference; absent while the line is IDLE (R82). -/
def State.encStallDistance (s : State) (h : HeadId) : List Byte :=
  match (s.head h).window, s.headPosition h with
  | some w, some p => encOptI32 (some (mmOf ((p : Int) - w.stallRef)))
  | _, _ => encOptI32 none

/-- What the TS makes of HEAD STATUS (R82). -/
def State.headStatus (s : State) (head : Nat) : Result :=
  withHead head fun h =>
    let r := s.head h
    let c := s.copy h
    accept s (enc8 (s.headState h).code ++ encBool r.stall ++ encBool r.handFault ++ enc8 r.limitCount ++
      encHeadSettings r.settings ++ encI16 r.trim ++ enc16 r.duty ++ encOptSlot c.slot ++ enc8 c.state.code ++
      encI16 c.learned ++ encOpt32 r.lastDensity ++ encOptI16 r.lastDeviation ++ encWindowFlags r.lastFlags ++
      s.encWindowProgress h ++ s.encStallDistance h ++ encOpt32 (s.flyerSpeed h))

/-- HEAD_SET (R77, R78), kind 0x04. -/
def execHeadSet (tag : Byte) (f : HeadSetArgs) (s : State) : Host.Outcome State Fault Refusal :=
  request 0x04 tag (·.headSet f) s

/-- HEAD_FREE (R79), kind 0x05. -/
def execHeadFree (tag : Byte) (head : Nat) (s : State) : Host.Outcome State Fault Refusal :=
  request 0x05 tag (·.headFree head) s

/-- HEAD_STATUS (R82), kind 0x32. -/
def execHeadStatus (tag : Byte) (head : Nat) (s : State) : Host.Outcome State Fault Refusal :=
  request 0x32 tag (·.headStatus head) s

end Sys2Proof.Machine
end

