-- ==== Sys2Proof/Machine/Lines.lean ====
section
/-! DEFINITION. The Line Controller's commands (spec/01): configuring a line, runs, stops, reads, and the cut requests
and pulse ends of the line's other blocks (spec/03, spec/08). -/

namespace Sys2Proof.Machine

/-! ## LINE SET (R2, R3) -/

/-- Every channel and line number LINE SET carries is in range or absent (R2, R164 check 3). The absent code passes in
field 12 too (assumption log 21). -/
def LineSetArgs.targetsInRange (f : LineSetArgs) : Bool :=
  channelInRange f.haulChannel && channelInRange f.wheelChannel && channelInRange f.spliceChannel &&
    channelInRange f.shaftChannel && (match f.leader with
      | some n => decide (n < 4)
      | none => true)

/-- The leader field 19 names. -/
def LineSetArgs.leaderLine (f : LineSetArgs) : Option LineId := f.leader.bind LineId.ofCode

/-- Field 1 of LINE SET is NET. -/
def LineSetArgs.isNet (f : LineSetArgs) : Bool := f.kind == ProductKind.net.code

/-- A line other than `l` names `x` as leader (R3). -/
def State.namedByOther (s : State) (l x : LineId) : Bool :=
  LineId.all.any fun y => y != l && (s.line y).cfg.leader == some x

/-- A leader field 19 of line `l` may name (R3). -/
def State.leaderAllowed (s : State) (l : LineId) (net : Bool) (x : LineId) : Bool :=
  !net && x != l && (s.line x).cfg.leader.isNone && (s.line x).kind == .rope && !s.namedByOther l x &&
    !s.namedByOther l l

/-- A channel number is named, and none of the others is the same one (R2). -/
def differs (n : Option Nat) (others : List (Option Nat)) : Bool := n.isNone || !others.contains n

/-- The first field of LINE SET that fails its check (R2, R3). -/
def State.lineSetFailure (s : State) (l : LineId) (f : LineSetArgs) : Option Nat :=
  let net := LineSetArgs.isNet f
  let wheel := f.wheelChannel.isSome
  let splice := f.spliceChannel.isSome
  firstFailure [
    (1, (ProductKind.ofCode f.kind).isSome && !(net && s.namedByOther l l)),
    (3, inRange 1000 2000000 f.haulPitch),
    (4, differs f.wheelChannel [f.haulChannel]),
    (5, !wheel || presentIn 1000 2000000 f.wheelPitch),
    (6, (Authority.ofCode f.authority).isSome && (wheel || Authority.ofCode f.authority != some .wheel)),
    (7, inRange 1000 50000 f.slipWindow),
    (8, inRange 1 200 f.slipLimit),
    (9, differs f.spliceChannel [f.haulChannel, f.wheelChannel]),
    (10, !splice || presentIn 0 200000 f.spliceOffset),
    (11, !splice || presentIn 100 5000 f.spliceSpacing),
    (12, !net || (f.shaftChannel.isSome && differs f.shaftChannel [f.haulChannel, f.wheelChannel, f.spliceChannel])),
    (13, !net || presentIn 36 8192 f.countsPerRev),
    (14, !net || presentIn 0 1 f.scanLink),
    (15, !net || presentIn 1 8 f.boardCount),
    (16, !net || presentIn 0 200000 f.knotOffset),
    (17, inRange 10 2000 f.markerPulse),
    (18, inRange 50 2000 f.cutterPulse),
    (19, match LineSetArgs.leaderLine f with
      | some x => s.leaderAllowed l net x
      | none => true),
    (20, f.leader.isNone || inRange 0 10000 f.pairTolerance)]

/-- The kind an accepted LINE SET stores. -/
def LineSetArgs.kindStored (f : LineSetArgs) : ProductKind := if LineSetArgs.isNet f then .net else .rope

/-- The configuration an accepted LINE SET stores: dependent fields are absent where R2 says so. -/
def LineSetArgs.config (f : LineSetArgs) : LineConfig where
  haulChannel := toChannel f.haulChannel
  haulPitch := f.haulPitch
  wheelChannel := toChannel f.wheelChannel
  wheelPitch := if f.wheelChannel.isSome then f.wheelPitch else none
  authority := (Authority.ofCode f.authority).getD .haul
  slipWindow := f.slipWindow
  slipLimit := f.slipLimit
  spliceChannel := toChannel f.spliceChannel
  spliceOffset := if f.spliceChannel.isSome then f.spliceOffset else none
  spliceSpacing := if f.spliceChannel.isSome then f.spliceSpacing else none
  shaftChannel := if LineSetArgs.isNet f then toChannel f.shaftChannel else none
  countsPerRev := if LineSetArgs.isNet f then f.countsPerRev else none
  scanLink := if LineSetArgs.isNet f then f.scanLink.bind ScanLink.ofCode else none
  boardCount := if LineSetArgs.isNet f then f.boardCount else none
  knotOffset := if LineSetArgs.isNet f then f.knotOffset else none
  markerPulse := f.markerPulse
  cutterPulse := f.cutterPulse
  leader := LineSetArgs.leaderLine f
  pairTolerance := if f.leader.isSome then f.pairTolerance else 0

/-- Another NET line names the scan link (R3). -/
def State.scanLinkTaken (s : State) (l : LineId) (k : Option ScanLink) : Bool :=
  k.isSome && LineId.all.any fun y => y != l && (s.line y).kind == .net && (s.line y).cfg.scanLink == k

/-- A line record takes a kind and a configuration. The KS's fields of a ROPE line are at their power-on values (R93). -/
def State.configure (s : State) (l : LineId) (kind : ProductKind) (cfg : LineConfig) : State :=
  let s1 := s.modLine l fun r => { r with kind := kind, cfg := cfg }
  match kind with
  | .net => s1
  | .rope => s1.modKnot l fun _ => .powerOn

/-- What the LC makes of LINE SET (R2, R3). -/
def State.lineSet (s : State) (f : LineSetArgs) : Result :=
  withLine f.line fun l =>
    if LineSetArgs.targetsInRange f = false then refuse .badTarget
    else if s.runOpen l then refuse .badState
    else match s.lineSetFailure l f with
      | some n => badField n
      | none =>
        if LineSetArgs.isNet f ∧ s.scanLinkTaken l (LineSetArgs.config f).scanLink then refuse .inUse
        else accept (s.configure l (LineSetArgs.kindStored f) (LineSetArgs.config f)) []

/-- LINE_SET (R2, R3), kind 0x06. -/
def execLineSet (tag : Byte) (f : LineSetArgs) (s : State) : Host.Outcome State Fault Refusal :=
  request 0x06 tag (·.lineSet f) s

/-! ## Checks a recipe meets against a line (R7, R63) -/

/-- Every head assigned to the line sits at a strand position with a twist target (R7 check 7). -/
def State.headsHaveTargets (s : State) (l : LineId) (r : Recipe) : Bool :=
  (s.headsOf l).all fun h =>
    match (s.head h).settings with
    | some t => (r.specFor t).isSome
    | none => true

/-- For a NET line, the columns used do not exceed 8 times the board count (R7 check 8). -/
def State.columnsFit (s : State) (l : LineId) (r : Recipe) : Bool :=
  match (s.line l).kind, r.knot with
  | .net, some k => decide (k.columnsUsed ≤ 8 * (s.line l).cfg.boardCount.getD 0)
  | _, _ => true

/-- The splice reach check (R7 check 9). -/
def State.spliceReaches (s : State) (l : LineId) (r : Recipe) : Bool :=
  (s.line l).cfg.spliceChannel.isNone ||
    decide (r.endZone + r.plusTolerance ≤ (s.line l).cfg.spliceOffset.getD 0)

/-- The checks of a recipe that RUN START and LINE BIND share, in their order (R7 checks 7 to 9, R63 case 6). -/
def State.recipeUnfit (s : State) (l : LineId) (r : Recipe) : Option Denial :=
  if s.headsHaveTargets l r = false then some ⟨.badState, 0⟩
  else if s.columnsFit l r = false then some ⟨.badValue, 49⟩
  else if s.spliceReaches l r = false then some ⟨.badValue, 10⟩
  else none

/-- What the RS makes of LINE BIND (R63). -/
def State.lineBind (s : State) (line slot : Nat) : Result :=
  withLine line fun l => withSlot slot fun n =>
    let reply := fun (s : State) => accept s (encOptSlot (s.line l).bound ++ encOptSlot (s.line l).pendingRecipe)
    match s.recipe n with
    | none => refuse .empty
    | some r =>
      if r.kind ≠ (s.line l).kind then badField 2
      else if s.runOpen l = false then
        reply (s.modLine l fun x => { x with bound := some n, pendingRecipe := none })
      else if (s.line l).bound = some n then reply (s.modLine l fun x => { x with pendingRecipe := none })
      else match s.recipeUnfit l r with
        | some d => .error d
        | none => reply (s.modLine l fun x => { x with pendingRecipe := some n })

/-- LINE_BIND (R63), kind 0x14. -/
def execLineBind (tag : Byte) (line slot : Nat) (s : State) : Host.Outcome State Fault Refusal :=
  request 0x14 tag (·.lineBind line slot) s

/-! ## RUN START (R7, R8) -/

/-- The slot the run will use: the pending recipe if there is one, else the bound one (R7). -/
def LineRec.runSlot (r : LineRec) : Option Slot := r.pendingRecipe.or r.bound

/-- A channel is assigned to the line in a role (R2, R32): the configuration names it, and its entry the line. -/
def State.assignedTo (s : State) (l : LineId) (role : Role) (ch : Option ChannelId) : Bool :=
  match ch with
  | some c => (s.channel c).role == role && (s.channel c).consumer == some (.line l)
  | none => false

/-- The haul channel, and each of the others that is named, is assigned to the line (R7 check 5). -/
def State.channelsAssigned (s : State) (l : LineId) : Bool :=
  let c := (s.line l).cfg
  s.assignedTo l .haul c.haulChannel && (c.wheelChannel.isNone || s.assignedTo l .wheel c.wheelChannel) &&
    (c.spliceChannel.isNone || s.assignedTo l .splice c.spliceChannel) &&
    (c.shaftChannel.isNone || s.assignedTo l .shaft c.shaftChannel)

/-- The refusal of RUN START under a run recipe, if a check fails (R7 checks 4 to 9). -/
def State.runUnfit (s : State) (l : LineId) (r : Recipe) : Option Denial :=
  if s.leaderRunning l then some ⟨.badState, 0⟩
  else if s.channelsAssigned l = false then some ⟨.badState, 0⟩
  else if (s.line l).kind = .rope ∧ (s.headsOf l).isEmpty then some ⟨.badState, 0⟩
  else s.recipeUnfit l r

/-- A head at RUN START (R83); its trim was set by the load. -/
def HeadRec.atRunStart (r : HeadRec) : HeadRec :=
  { r.cleared with window := some ⟨0, 0, 0⟩ }

/-- The SCU's part in RUN START (R29, R31, R36). -/
def Channel.atRunStart (c : Channel) : Channel :=
  { c with
    timerFrom := none
    lastPeriod := none
    capture := if c.role = .splice then none else c.capture }

/-- The KS's part in RUN START of a NET line (R93, R94). -/
def State.knotRunStart (s : State) (l : LineId) : State :=
  match (s.line l).kind with
  | .rope => s
  | .net =>
    let s1 := s.modKnot l fun _ => .powerOn
    match (s1.line l).cfg.scanLink with
    | some k => s1.modScanLink k fun r => { r with gate := false, scan := none, chain := .normal }
    | none => s1

/-- A cut placement, and a held cut with CUT_HELD, are dropped: a follower's at its leader's RUN START (R130). -/
def State.dropPlacement (s : State) (l : LineId) : State :=
  match (s.coilRec l).stage with
  | .none => s
  | .placed _ => s.modCoil l fun k => { k with stage := .none }
  | .held _ => (s.modCoil l fun k => { k with stage := .none }).removeCutHeld l

/-- An accepted RUN START opens the run, as one event (R8). -/
def State.openRun (s : State) (l : LineId) (n : Slot) (r : Recipe) : State :=
  let heads := s.headsOf l
  let warm := !heads.isEmpty && heads.all (s.isHit n)
  let target := fun (_ : HeadId) => some n
  let written := (s.evicted target heads).length
  let s1 := (s.evictAndLoad target heads).bindPending l written true
  let s2 := heads.foldl (fun s h => s.modHead h HeadRec.atRunStart) s1
  let s3 := s2.knotRunStart l
  let s4 := (s3.channelsOf l).foldl (fun s c => s.modChannel c Channel.atRunStart) s3
  let s5 := s4.modSpanRec l fun r => { r.emptied with arrival := 0 }
  let s6 := s5.modCoil l fun k => { k with coil := some ⟨n, 0, 0, 0⟩, stage := .none, pairedHold := false }
  let s7 := s6.modPos l fun p => { p with
    position := 0
    slip := if (s6.line l).cfg.wheelChannel.isSome then some ⟨0, 0, 0⟩ else none
    markTarget := markTargetFrom 0 (some r) }
  let s8 := s7.modLine l fun x => { x with
    state := .running
    causes := .empty
    reverseClamp := false
    warmStart := warm }
  match s8.follower l with
  | some f => s8.dropPlacement f
  | none => s8

/-- What the LC makes of RUN START (R7, R8). -/
def State.runStart (s : State) (line : Nat) : Result :=
  withLine line fun l =>
    if s.runOpen l then refuse .badState
    else if s.guard.latch then refuse .guarded
    else match (s.line l).runSlot with
      | none => refuse .badState
      | some n =>
        match s.recipe n with
        | none => refuse .badState
        | some r =>
          if r.kind ≠ (s.line l).kind then refuse .badState
          else match s.runUnfit l r with
            | some d => .error d
            | none =>
              let s1 := s.openRun l n r
              accept s1 (enc32 (s1.coilRec l).number ++ encBool (s1.line l).warmStart)

/-- RUN_START (R7, R8), kind 0x20. -/
def execRunStart (tag : Byte) (line : Nat) (s : State) : Host.Outcome State Fault Refusal :=
  request 0x20 tag (·.runStart line) s

/-! ## RUN END and CUT NOW (R9, R10, R137) -/

/-- The refusal of a cut asked for by RUN END or CUT NOW, whose checks are the same in the same order (R9, R137). -/
def State.cutRefusal (s : State) (l : LineId) : Option Reason :=
  let h := s.holds l
  if s.runOpen l = false then some .badState
  else if s.leaderRunning l then some .badState
  else if h.guard then some .guarded
  else if h.queueFull || h.followerQueueFull then some .full
  else if h.pulse || h.followerPulse then some .badState
  else none

/-- The lines a cut of a line closes a record of: its own and that of a follower whose run is open (R138). -/
def State.cutLines (s : State) (l : LineId) : List LineId := l :: (s.runningFollower l).toList

/-- The records the cut of the given lines has just closed: each the last of its lane queue. -/
def State.justClosed (s : State) (ls : List LineId) : List CoilRecord := ls.filterMap fun l => (s.lane l).queue.getLast?

/-- What the LC makes of RUN END (R9, R10). -/
def State.runEnd (s : State) (line : Nat) : Result :=
  withLine line fun l =>
    match s.cutRefusal l with
    | some r => refuse r
    | none =>
      let s1 := s.performCut l .endOfRun
      accept s1 (encList (fun r => encCoilId r.line r.number) (s1.justClosed (s.cutLines l)))

/-- What the CA makes of CUT NOW (R137). -/
def State.cutNow (s : State) (line : Nat) : Result :=
  withLine line fun l =>
    match s.cutRefusal l with
    | some r => refuse r
    | none =>
      let s1 := s.performCut l .onRequest
      accept s1 (encList (fun r => encCoilId r.line r.number ++ enc32 r.length ++ encCoilFlags r.flags)
        (s1.justClosed (s.cutLines l)))

/-- RUN_END (R9, R10), kind 0x21. -/
def execRunEnd (tag : Byte) (line : Nat) (s : State) : Host.Outcome State Fault Refusal :=
  request 0x21 tag (·.runEnd line) s

/-- CUT_NOW (R137), kind 0x25. -/
def execCutNow (tag : Byte) (line : Nat) (s : State) : Host.Outcome State Fault Refusal :=
  request 0x25 tag (·.cutNow line) s

/-! ## LINE STOP and LINE RESUME (R11, R12) -/

/-- A line's state and cause set, as LINE STOP and LINE RESUME report them. -/
def State.encStop (s : State) (l : LineId) : List Byte := enc8 (s.line l).state.code ++ encCauses (s.line l).causes

/-- What the LC makes of LINE STOP (R11). -/
def State.lineStop (s : State) (line : Nat) : Result :=
  withLine line fun l =>
    if s.runOpen l = false then refuse .badState
    else
      let s1 := s.offerCause l .host
      accept s1 (s1.encStop l)

/-- LINE_STOP (R11), kind 0x22. -/
def execLineStop (tag : Byte) (line : Nat) (s : State) : Host.Outcome State Fault Refusal :=
  request 0x22 tag (·.lineStop line) s

/-- A column used of the line has a miss count at or above the break threshold (R6). -/
def State.columnBroken (s : State) (l : LineId) : Bool :=
  match s.knotSpec l with
  | some k => (List.range k.columnsUsed).any fun c => decide (k.breakThreshold ≤ ((s.knot l).column c).misses)
  | none => false

/-- A board of the line has a consecutive-parity count of 3 or more (R6). -/
def State.boardFaulty (s : State) (l : LineId) : Bool :=
  match (s.line l).cfg.scanLink with
  | some k =>
    (List.range ((s.line l).cfg.boardCount.getD 0)).any fun b =>
      match (s.scanLink k).parity[b]? with
      | some n => decide (3 ≤ n)
      | none => false
  | none => false

/-- Whether the condition of a cause is still present (R6). CUT_HELD is condition-held, and LINE RESUME leaves it; GUARD
is not its to remove. -/
def State.causePresent (s : State) (l : LineId) : StopCause → Bool
  | .guard => true
  | .host => false
  | .twineBreak => s.columnBroken l
  | .flyerStall => (s.headsOf l).any fun h => (s.head h).stall
  | .trimExhausted => (s.headsOf l).any (s.atLimit l)
  | .sensor => (s.channelsOf l).any fun ch => (s.channel ch).tally == 32
  | .shaftIndex => (s.line l).kind == .net && (s.knot l).sync == .lost
  | .boardFault => (s.line l).kind == .net && s.boardFaulty l
  | .cutHeld => true
  | .runLimit => (s.pos l).position == ceiling

/-- What LINE RESUME leaves of a cause set: the causes whose conditions are still present (R12). -/
def State.causesLeft (s : State) (l : LineId) (c : CauseSet) : CauseSet where
  guard := c.guard && s.causePresent l .guard
  host := c.host && s.causePresent l .host
  twineBreak := c.twineBreak && s.causePresent l .twineBreak
  flyerStall := c.flyerStall && s.causePresent l .flyerStall
  trimExhausted := c.trimExhausted && s.causePresent l .trimExhausted
  sensor := c.sensor && s.causePresent l .sensor
  shaftIndex := c.shaftIndex && s.causePresent l .shaftIndex
  boardFault := c.boardFault && s.causePresent l .boardFault
  cutHeld := c.cutHeld && s.causePresent l .cutHeld
  runLimit := c.runLimit && s.causePresent l .runLimit

/-- LINE RESUME tests the causes of a STOP_REQUESTED line and lets it run if none is left (R12). -/
def State.resumeLine (s : State) (l : LineId) : State :=
  let left := s.causesLeft l (s.line l).causes
  s.modLine l fun r => { r with causes := left, state := if left = .empty then .running else .stopRequested }

/-- What the LC makes of LINE RESUME (R12). -/
def State.lineResume (s : State) (line : Nat) : Result :=
  withLine line fun l =>
    match (s.line l).state with
    | .idle => refuse .badState
    | .running => if s.guard.latch then refuse .guarded else accept s (s.encStop l)
    | .stopRequested =>
      if s.guard.latch then refuse .guarded
      else
        let s1 := s.resumeLine l
        accept s1 (s1.encStop l)

/-- LINE_RESUME (R12), kind 0x23. -/
def execLineResume (tag : Byte) (line : Nat) (s : State) : Host.Outcome State Fault Refusal :=
  request 0x23 tag (·.lineResume line) s

/-! ## LINE RESET (R13) -/

/-- A head at LINE RESET of its line (R13, R83): the trim is set to 0 while the guard latch is clear. -/
def HeadRec.atLineReset (r : HeadRec) (latch : Bool) : HeadRec :=
  { r.cleared with window := none, trim := if latch then r.trim else 0 }

/-- The heads of a line at LINE RESET: conditions, trims, and their copies without write-back (R13). -/
def State.resetHeads (s : State) (l : LineId) : State :=
  (s.headsOf l).foldl (fun s h => (s.modHead h (·.atLineReset s.guard.latch)).invalidate h) s

/-- The KS's part in LINE RESET of a NET line (R13, R93, R104). -/
def State.knotReset (s : State) (l : LineId) : State :=
  match (s.line l).kind with
  | .net => (s.abandonScan l).modKnot l fun _ => .powerOn
  | .rope => s

/-- The follower of a line whose held cut is dropped loses its paired hold and CUT_HELD (R133). -/
def State.releaseFollower (s : State) (l : LineId) : State :=
  match (s.coilRec l).stage, s.follower l with
  | .held _, some f =>
    if (s.coilRec f).pairedHold then (s.removeCutHeld f).modCoil f fun k => { k with pairedHold := false } else s
  | _, _ => s

/-- LINE RESET of a line, as one event (R13); the held cut of its leader is then tested again (R133). -/
def State.resetLine (s : State) (l : LineId) : State :=
  let s1 := ((s.releaseFollower l).knotReset l).resetHeads l
  let s2 := s1.modSpanRec l SpanRec.emptied
  let s3 := s2.modPos l fun p => { p with position := 0, slip := none, markTarget := none }
  let s4 := s3.modCoil l fun k => { k with coil := none, stage := .none, pairedHold := false }
  let s5 := s4.modLine l fun r => { r with
    state := .idle
    causes := r.causes.guardOnly
    reverseClamp := false
    warmStart := false }
  match (s5.line l).cfg.leader with
  | some x => s5.retest x
  | none => s5

/-- What the LC makes of LINE RESET (R13). -/
def State.lineReset (s : State) (line : Nat) : Result := withLine line fun l => accept (s.resetLine l) []

/-- LINE_RESET (R13), kind 0x24. -/
def execLineReset (tag : Byte) (line : Nat) (s : State) : Host.Outcome State Fault Refusal :=
  request 0x24 tag (·.lineReset line) s

/-! ## Reads of a line (R14, R46, R141) -/

/-- The length of the open coil, or absent (R44). -/
def State.openLength (s : State) (l : LineId) : Option Nat := (s.coilRec l).coil.map fun _ => s.coilLength l

/-- Whether the line's cut is held, as STATUS and LINE STATUS report it: its own held cut, or that of its leader, with which
a follower's cut is held together (R127; assumption log 43). -/
def State.cutIsHeld (s : State) (l : LineId) : Bool := s.holdsCut l || (s.coilRec l).pairedHold

/-- The guard as STATUS and LINE STATUS report it: input level, armed, latch (R14, R168). The active level of the input, which
is wired active low, is sent as 1 (assumption log 44). -/
def encGuard (g : Guard) : List Byte := encBool g.inputActive ++ encBool g.armed ++ encBool g.latch

/-- What the LC makes of LINE STATUS (R14): the read clears REVERSE_CLAMP. -/
def State.lineStatus (s : State) (line : Nat) : Result :=
  withLine line fun l =>
    let r := s.line l
    accept (s.modLine l fun x => { x with reverseClamp := false })
      (enc8 r.kind.code ++ s.encStop l ++ encOptSlot r.bound ++ encOptSlot r.pendingRecipe ++ encOptLine r.cfg.leader ++
        encOptLine (s.follower l) ++ encMm (s.pos l).position ++ encOptMm (s.openLength l) ++
        enc32 (s.coilRec l).number ++ encBool (s.cutIsHeld l) ++ encBool r.reverseClamp ++ encBool r.warmStart ++
        encGuard s.guard)

/-- LINE_STATUS (R14), kind 0x31. -/
def execLineStatus (tag : Byte) (line : Nat) (s : State) : Host.Outcome State Fault Refusal :=
  request 0x31 tag (·.lineStatus line) s

/-- The row index of a NET line, absent for a ROPE line (R46). -/
def State.netRowIndex (s : State) (l : LineId) : Option Nat :=
  match (s.line l).kind with
  | .net => some (s.knot l).rowIndex
  | .rope => none

/-- What the LPU makes of SNAPSHOT (R46). -/
def State.snapshot (s : State) : Result :=
  accept s ((LineId.all.flatMap fun l =>
    enc8 (s.line l).state.code ++ encMm (s.pos l).position ++ encOptMm (s.openLength l) ++
      encOpt32 (s.netRowIndex l)) ++ enc32 s.stamp)

/-- SNAPSHOT (R46), kind 0x33. -/
def execSnapshot (tag : Byte) (s : State) : Host.Outcome State Fault Refusal :=
  request 0x33 tag (·.snapshot) s

/-- The open coil as CUT STATUS gives it: slot, start, length, C, the limit coordinate, and the two mark counts. -/
def State.encOpenCoil (s : State) (l : LineId) : List Byte :=
  match (s.coilRec l).coil, s.coilRecipe l with
  | some c, some r =>
    encOptSlot (some c.slot) ++ encMm c.start ++ encMm (s.coilLength l) ++ encMm (s.nominalCut l r) ++
      encMm (s.limitCoordinate l r) ++ enc32 c.marks ++ enc32 c.suppressed
  | _, _ => encOptSlot none ++ encOpt32 none ++ encOpt32 none ++ encOpt32 none ++ encOpt32 none ++ encOpt32 none ++
      encOpt32 none

/-- The cut state, its target and placement flags (R141). -/
def CutStage.encode : CutStage → List Byte
  | .none => enc8 0 ++ encOptMm Option.none ++ enc8 0
  | .placed p => enc8 1 ++ encMm p.target ++ enc8 (bitField [p.shifted, p.endSplice])
  | .held p => enc8 2 ++ encMm p.target ++ enc8 (bitField [p.shifted, p.endSplice])

/-- The milliseconds left to an instant, truncated (assumption log 39). Without one, the time to run of an idle cutter pulse or
the time left on a step timer that does not run, it is sent as the absent code and not as 0 (DESIGN CHOICE, assumption log 51). -/
def State.millisLeft (s : State) (at' : Option Nat) : Option Nat := at'.map fun e => (e - s.now) / 1000

/-- What the CA makes of CUT STATUS (R141). The time to run of an idle cutter pulse is absent (assumption log 51). -/
def State.cutStatus (s : State) (line : Nat) : Result :=
  withLine line fun l =>
    let k := s.coilRec l
    accept s (encBool k.coil.isSome ++ enc32 k.number ++ s.encOpenCoil l ++ k.stage.encode ++ encHolds (s.holds l) ++
      encBool k.pairedHold ++ encBool k.cutterPulse.isSome ++ encOpt32 (s.millisLeft k.cutterPulse) ++
      enc8 (s.lane l).queue.length ++ encBool (s.placesOwnCuts l))

/-- CUT_STATUS (R141), kind 0x3A. -/
def execCutStatus (tag : Byte) (line : Nat) (s : State) : Host.Outcome State Fault Refusal :=
  request 0x3A tag (·.cutStatus line) s

/-! ## Pulse ends (R55, R135) -/

/-- MARKER_PULSE_END: the time base reaches the end instant of a marker pulse (R55). -/
def execMarkerPulseEnd (line : LineId) (s : State) : Host.Outcome State Fault Refusal :=
  match (s.pos line).markerPulse with
  | some e => done ((s.advanceTo e).modPos line fun p => { p with markerPulse := none })
  | none => done s

/-- CUTTER_PULSE_END: the time base reaches the end instant of a cutter pulse, and the held cuts it could release are
tested again (R133, R135). -/
def execCutterPulseEnd (line : LineId) (s : State) : Host.Outcome State Fault Refusal :=
  match (s.coilRec line).cutterPulse with
  | some e => done (((s.advanceTo e).modCoil line fun k => { k with cutterPulse := none }).retestAround line)
  | none => done s

/-! ## The guard (R15 to R18, R158) -/

/-- The lines in RUNNING, which a guard event moves. -/
def State.runningLines (s : State) : List LineId := LineId.all.filter fun l => (s.line l).state == .running

/-- The PA's answer to the guard event (R158). -/
def PackRec.atGuard (p : PackRec) : PackRec :=
  let abeyance := match p.attached, p.step with
    | some l, some k => some (l, k)
    | _, _ => none
  let guarded : PackRec := { p with
    state := .guarded, bandRepeats := decide (p.state = .banding) || (decide (p.state = .suspended) && p.bandRepeats)
    abeyance := abeyance, attached := none, step := none, arrivalStep := none
    stepTimer := none, suspendPending := false }
  match p.state with
  | .travel => { guarded with position := none }
  | .banding | .labelling | .suspended | .free => guarded
  | .held | .guarded | .fault => p

/-- The guard event: the latch, GUARD on every line, the pulses and the packing head released, one notice (R16, R17). -/
def State.guardEvent (s : State) : State :=
  let moved := s.runningLines
  let s1 : State := { s with guard := { s.guard with latch := true } }
  let s2 := LineId.all.foldl (fun s l => s.offerCause l .guard) s1
  let s3 := LineId.all.foldl (fun s l => s.modPos l fun p => { p with markerPulse := none }) s2
  let s4 := LineId.all.foldl (fun s l => s.modCoil l fun k => { k with cutterPulse := none }) s3
  (s4.modPack PackRec.atGuard).notify none (.guardSet moved)

/-- The GUARD input takes a level (R15, R16): becoming active while armed with the latch clear is the guard event. -/
def State.guardInput (s : State) (active : Bool) : State :=
  let s1 : State := { s with guard := { s.guard with inputActive := active } }
  if active && !s.guard.inputActive && s.guard.armed && !s.guard.latch then s1.guardEvent else s1

/-- GUARD_EVENT: the GUARD input becomes active (R16), for so many microseconds. -/
def execGuardEvent (s : State) (held : Nat := 2) : Host.Outcome State Fault Refusal :=
  done (s.ifHeld held (·.guardInput true))

/-- GUARD_INPUT_CHANGE: the GUARD input changes (R15), for so many microseconds. -/
def execGuardInputChange (active : Bool) (s : State) (held : Nat := 2) : Host.Outcome State Fault Refusal :=
  done (s.ifHeld held (·.guardInput active))

/-- What the LC makes of GUARD ARM (R15). The acceptance sends an active input, whose wire is low, as 1 (assumption log 44). -/
def State.guardArm (s : State) : Result :=
  let s1 : State := { s with guard := { s.guard with armed := true } }
  let s2 := if s.guard.inputActive && !s.guard.latch then s1.guardEvent else s1
  accept s2 (encBool s2.guard.armed ++ encBool s2.guard.inputActive ++ encBool s2.guard.latch)

/-- GUARD_ARM (R15), kind 0x2B. -/
def execGuardArm (tag : Byte) (s : State) : Host.Outcome State Fault Refusal :=
  request 0x2B tag (·.guardArm) s

/-- The packing head at GUARD CLEAR (R158): a service in abeyance is attached again. The lane in SUSPENDED: assumption log 55. -/
def State.packGuardClear (s : State) : State :=
  if s.pack.state = .guarded then
    let p : PackRec := { s.pack with
      state := .suspended, attached := s.pack.abeyance.map (·.1), step := s.pack.abeyance.map (·.2)
      abeyance := none }
    ({ s with pack := p } : State).notify p.attached (.suspended .guard p.attached p.step)
  else s

/-- An accepted GUARD CLEAR of a set latch (R18): the latch and GUARD go, the packing head is SUSPENDED, held cuts are
tested again, in a free order among the lines, and the clearing is reported. -/
def State.clearGuard (s : State) : State :=
  let s1 : State := { s with guard := { s.guard with latch := false } }
  let s2 := LineId.all.foldl (fun s l => s.modLine l fun r => { r with causes := r.causes.drop .guard }) s1
  let s3 := s2.packGuardClear
  let s4 := s3.inAnyOrder (LineId.all.filter s3.holdsCut) State.retest
  s4.notify none .guardCleared

/-- What the LC makes of GUARD CLEAR (R18). -/
def State.guardClear (s : State) : Result :=
  if s.guard.latch = false then accept s []
  else if s.guard.inputActive then refuse .badState
  else accept s.clearGuard []

/-- GUARD_CLEAR (R18), kind 0x2C. -/
def execGuardClear (tag : Byte) (s : State) : Host.Outcome State Fault Refusal :=
  request 0x2C tag (·.guardClear) s

end Sys2Proof.Machine
end

