-- ==== Sys2Proof/Machine/Recipes.lean ====
section
/-! DEFINITION. The Recipe Store's requests on slots (spec/04): RECIPE STORE, RECIPE READ, RECIPE FLUSH, RECIPE PURGE. -/

namespace Sys2Proof.Machine

/-! ## The checks of RECIPE STORE (R58, R59) -/

/-- A name of 1 to 16 printable characters (R58 field 1). -/
def nameGood (name : List Byte) : Bool :=
  inRange 1 16 name.length && name.all fun c => inRange 0x20 0x7E c.toNat

/-- A signed number that is present and in the range of a trim (R58). -/
def trimGood : Option Int → Bool
  | some x => decide (-2000 ≤ x ∧ x ≤ 2000)
  | none => false

/-- The checks of the three fields of strand position `p` (R58): a position without a target has no others to check. -/
def positionChecks (p : Nat) (a : PositionArgs) : List (Nat × Bool) :=
  match a.target with
  | none => []
  | some n => [(3 + 3 * p, inRange 1 65535 n), (4 + 3 * p, (a.hand.bind Hand.ofCode).isSome),
      (5 + 3 * p, trimGood a.startTrim)]

/-- The checks of fields 49 to 55, which a NET recipe alone has (R58). -/
def knotChecks (f : RecipeArgs) : List (Nat × Bool) :=
  [(49, presentIn 1 64 f.columnsUsed), (50, presentIn 0 359 f.gateOpen), (51, presentIn 0 359 f.gateClose),
    (52, presentIn 2 8 f.breakThreshold), (53, presentIn 1 2000 f.meshPitch), (54, presentIn 1 200 f.meshTolerance),
    (55, (f.stopOnBreak.bind boolOfCode).isSome)]

/-- Field 2 of the request is NET. -/
def recipeIsNet (f : RecipeArgs) : Bool := f.kind == ProductKind.net.code

/-- Each field on its own range, in ascending field number (R59 check 2). -/
def recipeFieldFailure (f : RecipeArgs) : Option Nat :=
  firstFailure ([(1, nameGood f.name), (2, (ProductKind.ofCode f.kind).isSome)] ++
    (f.positions.toList.zipIdx.flatMap fun a => positionChecks a.2 a.1) ++
    [(42, inRange 0 2000 f.trimLimit), (43, inRange 0 256 f.gain), (44, inRange 1 500 f.slew),
      (45, inRange 5 200 f.tolerance), (46, inRange 100 10000 f.window), (47, inRange 50 5000 f.stallLength),
      (48, inRange 1 20 f.limitWindows)] ++
    (if recipeIsNet f then knotChecks f else []) ++
    [(56, inRange 10000 2000000 f.targetLength), (57, inRange 0 50000 f.plusTolerance), (58, inRange 0 20000 f.endZone),
      (59, f.markInterval == 0 || inRange 1000 100000 f.markInterval), (60, inRange 2 8 f.bandCount)])

/-- A start trim of a position with a target lies within the trim limit (R58). -/
def startTrimFits (limit : Nat) (a : PositionArgs) : Bool :=
  match a.target, a.startTrim with
  | some _, some x => decide (x.natAbs ≤ limit)
  | _, _ => true

/-- The checks between fields (R59 check 3). -/
def recipeCrossFailure (f : RecipeArgs) : Option Nat :=
  firstFailure ((f.positions.toList.zipIdx.map fun a => (5 + 3 * a.2, startTrimFits f.trimLimit a.1)) ++
    [(3, recipeIsNet f || f.positions.toList.any fun a => a.target.isSome),
      (51, !recipeIsNet f || decide (f.gateOpen.getD 0 < f.gateClose.getD 0))])

/-! ## The recipe stored (R58, R60) -/

/-- A strand position as stored: nothing without a target. -/
def positionStored (a : PositionArgs) : Option PositionSpec :=
  a.target.map fun n => ⟨n, (a.hand.bind Hand.ofCode).getD .s, a.startTrim.getD 0⟩

/-- Fields 49 to 55 as stored: absent for a ROPE recipe. -/
def knotStored (f : RecipeArgs) : Option KnotSpec :=
  if recipeIsNet f then
    some { columnsUsed := f.columnsUsed.getD 0
           gateOpen := f.gateOpen.getD 0
           gateClose := f.gateClose.getD 0
           breakThreshold := f.breakThreshold.getD 0
           meshPitch := f.meshPitch.getD 0
           meshTolerance := f.meshTolerance.getD 0
           stopOnBreak := (f.stopOnBreak.bind boolOfCode).getD false }
  else none

/-- The recipe an accepted RECIPE STORE stores. -/
def recipeStored (f : RecipeArgs) : Recipe where
  name := f.name
  kind := if recipeIsNet f then .net else .rope
  positions := f.positions.map positionStored
  trimLimit := f.trimLimit
  gain := f.gain
  slew := f.slew
  tolerance := f.tolerance
  window := f.window
  stallLength := f.stallLength
  limitWindows := f.limitWindows
  knot := knotStored f
  targetLength := f.targetLength
  plusTolerance := f.plusTolerance
  endZone := f.endZone
  markInterval := f.markInterval
  bandCount := f.bandCount

/-- Every copy of a slot is invalidated without write-back (R73). -/
def State.invalidateSlot (s : State) (n : Slot) : State := (s.holdersOf n).foldl State.invalidate s

/-- What the RS makes of RECIPE STORE (R59, R60). -/
def State.recipeStore (s : State) (slot : Nat) (f : RecipeArgs) : Result :=
  withSlot slot fun n =>
    match recipeFieldFailure f, recipeCrossFailure f with
    | some k, _ => badField k
    | none, some k => badField k
    | none, none =>
      if s.slotInUse n then refuse .inUse
      else accept ((s.setRecipe n (some (recipeStored f))).invalidateSlot n)
        (enc8 slot ++ encName f.name ++ enc8 (s.holdersOf n).length)

/-- RECIPE_STORE (R59, R60), kind 0x10. -/
def execRecipeStore (tag : Byte) (slot : Nat) (f : RecipeArgs) (s : State) : Host.Outcome State Fault Refusal :=
  request 0x10 tag (·.recipeStore slot f) s

/-! ## RECIPE READ (R61) -/

/-- The fields of a strand position on the link (R173). -/
def encPosition : Option PositionSpec → List Byte
  | some q => encOpt32 (some q.target) ++ enc8 q.hand.code ++ encI16 q.startTrim
  | none => encOpt32 none ++ encOpt8 none ++ encOptI16 none

/-- Fields 49 to 55 on the link (R173). -/
def encKnot : Option KnotSpec → List Byte
  | some k => enc8 k.columnsUsed ++ enc16 k.gateOpen ++ enc16 k.gateClose ++ enc8 k.breakThreshold ++ enc32 k.meshPitch ++
      enc8 k.meshTolerance ++ encBool k.stopOnBreak
  | none => encOpt8 none ++ encOpt16 none ++ encOpt16 none ++ encOpt8 none ++ encOpt32 none ++ encOpt8 none ++
      encOpt8 none

/-- The 60 fields of a recipe on the link, in ascending field number (R173). -/
def encRecipe (r : Recipe) : List Byte :=
  encName r.name ++ enc8 r.kind.code ++ r.positions.toList.flatMap encPosition ++ enc16 r.trimLimit ++ enc16 r.gain ++
    enc16 r.slew ++ enc8 r.tolerance ++ enc32 r.window ++ enc32 r.stallLength ++ enc8 r.limitWindows ++ encKnot r.knot ++
    enc32 r.targetLength ++ enc32 r.plusTolerance ++ enc32 r.endZone ++ enc32 r.markInterval ++ enc8 r.bandCount

/-- How a slot stands on a line: its bound recipe 0, its pending recipe 1, or neither 2 (R61). -/
def LineRec.slotUse (r : LineRec) (n : Slot) : Nat :=
  if r.bound = some n then 0 else if r.pendingRecipe = some n then 1 else 2

/-- What the RS makes of RECIPE READ (R61). -/
def State.recipeRead (s : State) (slot : Nat) : Result :=
  withSlot slot fun n =>
    match s.recipe n with
    | none => refuse .empty
    | some r =>
      accept s (encRecipe r ++ (LineId.all.flatMap fun l => enc8 ((s.line l).slotUse n)) ++
        encList (fun h => enc8 h.val ++ enc8 (s.copy h).state.code ++ encI16 (s.copy h).learned) (s.holdersOf n))

/-- RECIPE_READ (R61), kind 0x11. -/
def execRecipeRead (tag : Byte) (slot : Nat) (s : State) : Host.Outcome State Fault Refusal :=
  request 0x11 tag (·.recipeRead slot) s

/-! ## RECIPE FLUSH and RECIPE PURGE (R71, R72) -/

/-- Every valid DIRTY copy of a slot writes back, and then every valid copy of it is re-marked (R69 to R71). -/
def State.flushSlot (s : State) (n : Slot) : State := ((s.dirtyHolders n).foldl State.writeBack s).remarkSlot n

/-- What the RS makes of RECIPE FLUSH (R71). -/
def State.recipeFlush (s : State) (slot : Nat) : Result :=
  withSlot slot fun n =>
    match s.recipe n with
    | none => refuse .empty
    | some _ =>
      let s1 := s.flushSlot n
      accept s1 (enc8 slot ++ enc8 (s.dirtyHolders n).length ++ enc8 (s1.dirtyHolders n).length)

/-- RECIPE_FLUSH (R71), kind 0x12. -/
def execRecipeFlush (tag : Byte) (slot : Nat) (s : State) : Host.Outcome State Fault Refusal :=
  request 0x12 tag (·.recipeFlush slot) s

/-- What the RS makes of RECIPE PURGE (R72). -/
def State.recipePurge (s : State) (slot : Nat) : Result :=
  withSlot slot fun n =>
    match s.recipe n with
    | none => refuse .empty
    | some _ =>
      if s.slotInUse n then refuse .inUse
      else accept ((s.flushSlot n).invalidateSlot n)
        (enc8 slot ++ enc8 (s.dirtyHolders n).length ++ enc8 (s.holdersOf n).length)

/-- RECIPE_PURGE (R72), kind 0x13. -/
def execRecipePurge (tag : Byte) (slot : Nat) (s : State) : Host.Outcome State Fault Refusal :=
  request 0x13 tag (·.recipePurge slot) s

end Sys2Proof.Machine
end

