-- ==== Sys2Proof/Machine/Packing.lean ====
section
/-! DEFINITION. The Packing Arbiter (spec/09): lanes, the packing head's service, faults, suspension, manual hold, the
completed coil list. -/

namespace Sys2Proof.Machine

/-! ## Lanes (R144 to R146) -/

/-- The states a lane reports (R144). -/
inductive LaneState where
  | disabled | faulted | served | waiting | blockedList | idle
  deriving DecidableEq, Repr

def LaneState.code : LaneState → Nat
  | .disabled => 0
  | .faulted => 1
  | .served => 2
  | .waiting => 3
  | .blockedList => 4
  | .idle => 5

/-- The state a lane reports: the first row of R144 that applies. -/
def State.laneState (s : State) (l : LineId) : LaneState :=
  match (s.lane l).enable with
  | .disabled => .disabled
  | .faulted => .faulted
  | .enabled =>
    if s.serves l then .served
    else if s.requests l then .waiting
    else if s.readyToRequest l then .blockedList
    else .idle

/-- A lane's state and whether a disable is pending, as LANE ENABLE and LANE DISABLE report them (R146). -/
def State.encLaneState (s : State) (l : LineId) : List Byte :=
  enc8 (s.laneState l).code ++ encBool (s.lane l).disablePending

/-- What the PA makes of LANE SET (R145). A field out of range is found before the state (assumption log 45). -/
def State.laneSet (s : State) (lane labelRequired travelLimit : Nat) : Result :=
  withLine lane fun l =>
    match boolOfCode labelRequired with
    | none => badField 2
    | some label =>
      if inRange 1 60 travelLimit = false then badField 3
      else if (s.lane l).enable ≠ .disabled then refuse .badState
      else accept (s.modLane l fun r => { r with labelRequired := label, travelLimit := travelLimit })
        (encBool label ++ enc8 travelLimit)

/-- LANE_SET (R145), kind 0x07. -/
def execLaneSet (tag : Byte) (lane labelRequired travelLimit : Nat) (s : State) : Host.Outcome State Fault Refusal :=
  request 0x07 tag (·.laneSet lane labelRequired travelLimit) s

/-- What the PA makes of PACK SET (R145). A field out of range is found before the state (assumption log 45). -/
def State.packSet (s : State) (bandTimeout labelTimeout : Nat) : Result :=
  match firstFailure [(1, inRange 1 30 bandTimeout), (2, inRange 1 30 labelTimeout)] with
  | some n => badField n
  | none =>
    if (LineId.all.any fun l => (s.lane l).enable == .enabled) ∨ s.pack.state ≠ .free then refuse .badState
    else accept (s.modPack fun p => { p with bandTimeout := bandTimeout, labelTimeout := labelTimeout })
      (enc8 bandTimeout ++ enc8 labelTimeout)

/-- PACK_SET (R145), kind 0x08. -/
def execPackSet (tag : Byte) (bandTimeout labelTimeout : Nat) (s : State) : Host.Outcome State Fault Refusal :=
  request 0x08 tag (·.packSet bandTimeout labelTimeout) s

/-- What the PA makes of PACK MODE (R150): the mode acts at the next grant. A code of neither mode fails as field 1, a number
that R150 does not give (assumption log 50). -/
def State.packMode (s : State) (mode : Nat) : Result :=
  match GrantMode.ofCode mode with
  | none => badField 1
  | some m => accept (s.modPack fun p => { p with mode := m }) []

/-- PACK_MODE (R150), kind 0x09. -/
def execPackMode (tag : Byte) (mode : Nat) (s : State) : Host.Outcome State Fault Refusal :=
  request 0x09 tag (·.packMode mode) s

/-- A lane is enabled, or its pending disable withdrawn (R146). -/
def State.enableLane (s : State) (l : LineId) : State :=
  if (s.lane l).enable = .enabled then s.modLane l fun r => { r with disablePending := false }
  else (s.modLane l fun r => { r with enable := .enabled }).evaluateGrant

/-- What the PA makes of LANE ENABLE (R146). -/
def State.laneEnable (s : State) (lane : Nat) : Result :=
  withLine lane fun l =>
    let s1 := s.enableLane l
    accept s1 (s1.encLaneState l)

/-- LANE_ENABLE (R146), kind 0x26. -/
def execLaneEnable (tag : Byte) (lane : Nat) (s : State) : Host.Outcome State Fault Refusal :=
  request 0x26 tag (·.laneEnable lane) s

/-- A lane is disabled at once, or at the end of its present service (R146). -/
def State.disableLane (s : State) (l : LineId) : State :=
  match s.laneState l with
  | .served => s.modLane l fun r => { r with disablePending := true }
  | .disabled => s
  | .faulted | .waiting | .blockedList | .idle => s.modLane l fun r => { r with enable := .disabled }

/-- What the PA makes of LANE DISABLE (R146). -/
def State.laneDisable (s : State) (lane : Nat) : Result :=
  withLine lane fun l =>
    let s1 := s.disableLane l
    accept s1 (s1.encLaneState l)

/-- LANE_DISABLE (R146), kind 0x27. -/
def execLaneDisable (tag : Byte) (lane : Nat) (s : State) : Host.Outcome State Fault Refusal :=
  request 0x27 tag (·.laneDisable lane) s

/-- A lane's COIL READY input becomes active, and a grant is evaluated (R147). -/
def State.coilReadyOn (s : State) (l : LineId) : State :=
  if (s.lane l).coilReady then s else (s.modLane l fun r => { r with coilReady := true }).evaluateGrant

/-- A lane's COIL READY input becomes inactive, which sets rearmed (R144). -/
def State.coilReadyOff (s : State) (l : LineId) : State :=
  if (s.lane l).coilReady then s.modLane l fun r => { r with coilReady := false, rearmed := true } else s

/-- COIL_READY_ACTIVE (R147), for so many microseconds. -/
def execCoilReadyActive (lane : LineId) (s : State) (held : Nat := 2) : Host.Outcome State Fault Refusal :=
  done (s.ifHeld held (·.coilReadyOn lane))

/-- COIL_READY_INACTIVE (R144), for so many microseconds. -/
def execCoilReadyInactive (lane : LineId) (s : State) (held : Nat := 2) : Host.Outcome State Fault Refusal :=
  done (s.ifHeld held (·.coilReadyOff lane))

/-! ## The head's service (R151 to R153) -/

/-- A suspension asked for by the host takes effect (R155). The notice has the attached lane as the line of its header, or 0xFF
with none, and sends it among its fields too (assumption log 55). -/
def State.suspend (s : State) (attached : Option LineId) (step : Option PackStep) : State :=
  (s.modPack fun p => { p with
    state := .suspended, attached := attached, step := step, arrivalStep := none, stepTimer := none
    suspendPending := false }).notify attached (.suspended .host attached step)

/-- The head becomes FREE, and a grant is evaluated (R150). -/
def State.freeHead (s : State) : State :=
  (s.modPack fun p => { p with
    state := .free, attached := none, step := none, arrivalStep := none, stepTimer := none }).evaluateGrant

/-- Restarts in band for a service that comes to a band: those of a band that the guard event broke off, else 0 (R152,
R156, R158). -/
def PackRec.restartsCarried (p : PackRec) : Nat := if p.bandRepeats then p.restarts else 0

/-- The head enters a step of its attached service at the attached lane: a band or the label. -/
def State.enterStep (s : State) : PackStep → State
  | .band k => s.startBand k s.pack.restartsCarried
  | .label => s.startLabel
  | .travel => s.startBand 1 s.pack.restartsCarried

/-- The head goes on to a step, or is suspended before it if a suspension is pending (R151, R152). -/
def State.proceedTo (s : State) (l : LineId) (k : PackStep) : State :=
  if s.pack.suspendPending then s.suspend (some l) (some k) else s.enterStep k

/-- Arrival of a travelling head (R151). -/
def State.arrive (s : State) : State :=
  match s.pack.state, s.pack.attached with
  | .travel, some l =>
    (s.modPack fun p => { p with position := some l, stepTimer := none }).proceedTo l (s.pack.arrivalStep.getD (.band 1))
  | _, _ => s

/-- HEAD_AT_LANE (R151), for so many microseconds. -/
def execHeadAtLane (s : State) (held : Nat := 2) : Host.Outcome State Fault Refusal := done (s.ifHeld held State.arrive)

/-- Steps 3 to 6 of the end of a service, for the record that has left its queue (R153). -/
def State.finishService (s : State) (l : LineId) (r : CoilRecord) : State :=
  let s1 := s.notify (some l)
    (.coilPacked r.number r.attempts r.bandsDone r.restarts (r.packTime.getD 0) s.completed.length)
  let s2 := s1.modLane l fun q => { q with
    rearmed := !q.coilReady
    enable := if q.disablePending then .disabled else q.enable
    disablePending := false }
  if s2.pack.suspendPending then s2.suspend none none else s2.freeHead

/-- What is done once a record has left its lane queue: the rest of the service's end, and the test of held cuts. -/
inductive ServiceTask where
  | finish
  | retest
  deriving DecidableEq, Repr

/-- A held cut that the room in a lane queue can release: the line's or its leader's (R133). -/
def State.heldCutAt (s : State) (l : LineId) : Bool :=
  s.holdsCut l || (match (s.line l).cfg.leader with
    | some x => s.holdsCut x
    | none => false)

/-- The end of a service (R153): the front record is packed and moves to the completed coil list, and what follows is
done in a free order where a cut is held. -/
def State.endService (s : State) (l : LineId) : State :=
  match (s.lane l).queue with
  | [] => s
  | r :: rest =>
    let packed : CoilRecord := { r with packTime := some s.stamp }
    let s1 := s.modLane l fun q => { q with queue := rest }
    let s2 : State := { s1 with
      completed := s1.completed ++ [packed]
      pack := { s1.pack with reserved := 0, stepTimer := none } }
    s2.inAnyOrder (if s2.heldCutAt l then [ServiceTask.finish, .retest] else [ServiceTask.finish]) fun s t =>
      match t with
      | .finish => s.finishService l packed
      | .retest => s.retestAround l

/-- BAND DONE ends band `k` of the attached lane's front record (R152). -/
def State.bandEnds (s : State) (l : LineId) (k : Nat) : State :=
  match (s.lane l).queue with
  | [] => s
  | r :: _ =>
    let s1 := (s.modLane l (·.onFront fun r => { r with bandsDone := r.bandsDone + 1 })).modPack fun p =>
      { p with stepTimer := none }
    if k < r.bandCount then s1.proceedTo l (.band (k + 1))
    else if (s1.lane l).labelRequired then s1.proceedTo l .label
    else s1.endService l

/-- BAND DONE becomes active: taken while STRAP is asserted (R152). -/
def State.bandDone (s : State) : State :=
  match s.pack.state, s.pack.attached, s.pack.step with
  | .banding, some l, some (.band k) => s.bandEnds l k
  | _, _, _ => s

/-- BAND_DONE (R152), for so many microseconds. -/
def execBandDone (s : State) (held : Nat := 2) : Host.Outcome State Fault Refusal := done (s.ifHeld held State.bandDone)

/-- LABEL DONE becomes active: it ends the labelling and the service (R153). -/
def State.labelDone (s : State) : State :=
  match s.pack.state, s.pack.attached with
  | .labelling, some l => s.endService l
  | _, _ => s

/-- LABEL_DONE (R153), for so many microseconds. -/
def execLabelDone (s : State) (held : Nat := 2) : Host.Outcome State Fault Refusal := done (s.ifHeld held State.labelDone)

/-! ## Faults (R154) -/

/-- The number and the bands done of the front record of a lane, as HEAD_FAULT carries them. -/
def LaneRec.frontReport (r : LaneRec) : Nat × Nat :=
  match r.queue with
  | x :: _ => (x.number, x.bandsDone)
  | [] => (0, 0)

/-- A fault of the station during the service of a lane (R154). -/
def State.packFault (s : State) (l : LineId) (fault : PackFault) : State :=
  let report := (s.lane l).frontReport
  let s1 := s.modPack fun p => { p with
    state := .fault, position := none, attached := none, step := none, arrivalStep := none, restarts := 0
    suspendPending := false, reserved := 0, stepTimer := none }
  let s2 := s1.modLane l fun q => { q with enable := .faulted, disablePending := false }
  s2.notify (some l) (.headFault fault s.pack.step report.1 report.2 s.pack.restarts)

/-- A step timer runs out: the time base reaches its end instant in the state that started it, and the fault occurs. -/
def State.stepTimeout (s : State) (during : PackState) (fault : PackFault) : State :=
  if s.pack.state = during then
    match s.pack.stepTimer, s.pack.attached with
    | some e, some l => (s.advanceTo e).packFault l fault
    | _, _ => s
  else s

/-- TRAVEL_TIMEOUT (R151). -/
def execTravelTimeout (s : State) : Host.Outcome State Fault Refusal := done (s.stepTimeout .travel .travelTimeout)

/-- BAND_TIMEOUT (R152). -/
def execBandTimeout (s : State) : Host.Outcome State Fault Refusal := done (s.stepTimeout .banding .bandTimeout)

/-- LABEL_TIMEOUT (R153). -/
def execLabelTimeout (s : State) : Host.Outcome State Fault Refusal := done (s.stepTimeout .labelling .labelTimeout)

/-- CLAMP SLIP in band `k`: the restart is counted, and the band begins again or the fault SLIP_EXCESS occurs (R152). -/
def State.clampSlips (s : State) (l : LineId) (k : Nat) : State :=
  let s1 := s.modLane l (·.onFront fun r => { r with restarts := min 65535 (r.restarts + 1) })
  if s.pack.restarts < 3 then s1.startBand k (s.pack.restarts + 1)
  else s1.packFault l .slipExcess

/-- CLAMP SLIP becomes active: taken while STRAP is asserted (R152). -/
def State.clampSlip (s : State) : State :=
  match s.pack.state, s.pack.attached, s.pack.step with
  | .banding, some l, some (.band k) => s.clampSlips l k
  | _, _, _ => s

/-- CLAMP_SLIP (R152), for so many microseconds. -/
def execClampSlip (s : State) (held : Nat := 2) : Host.Outcome State Fault Refusal := done (s.ifHeld held State.clampSlip)

/-- The head leaves FAULT or HELD (R154, R157): GUARDED under the latch, SUSPENDED if that is pending, or FREE. -/
def State.leaveStop (s : State) : State :=
  if s.guard.latch then s.modPack fun p => { p with state := .guarded, suspendPending := false }
  else if s.pack.suspendPending then s.suspend none none
  else s.freeHead

/-- What the PA makes of HEAD CLEAR (R154). -/
def State.headClear (s : State) : Result :=
  if s.pack.state = .fault then accept s.leaveStop [] else refuse .badState

/-- HEAD_CLEAR (R154), kind 0x2A. -/
def execHeadClear (tag : Byte) (s : State) : Host.Outcome State Fault Refusal :=
  request 0x2A tag (·.headClear) s

/-! ## Suspension (R155, R156) -/

/-- The head after PACK SUSPEND (R155). -/
def State.suspendHead (s : State) : State :=
  match s.pack.state with
  | .free => s.suspend none none
  | .suspended | .guarded => s
  | .travel | .banding | .labelling | .held | .fault => s.modPack fun p => { p with suspendPending := true }

/-- What the PA makes of PACK SUSPEND (R155): it is answered with what it has set pending (R164), sent as whether suspend
pending is set after the request, in every head state (assumption log 52). -/
def State.packSuspend (s : State) : Result :=
  let s1 := s.suspendHead
  accept s1 (encBool s1.pack.suspendPending)

/-- PACK_SUSPEND (R155), kind 0x28. -/
def execPackSuspend (tag : Byte) (s : State) : Host.Outcome State Fault Refusal :=
  request 0x28 tag (·.packSuspend) s

/-- The step a resumed travel arrives at: the service's own step, band 1 where that is TRAVEL (R151). -/
def PackStep.afterTravel : PackStep → PackStep
  | .travel => .band 1
  | k => k

/-- A suspended service continues at its step, travelling first from an unknown position (R156). -/
def State.resumeService (s : State) (l : LineId) (k : PackStep) : State :=
  match s.pack.position, k with
  | none, _ => s.startTravel l k.afterTravel
  | some _, .travel => s.startTravel l (.band 1)
  | some _, k => s.enterStep k

/-- The head after PACK RESUME, in every state but GUARDED (R156). -/
def State.resumeHead (s : State) : State :=
  match s.pack.state with
  | .suspended =>
    match s.pack.attached with
    | some l => s.resumeService l (s.pack.step.getD .travel)
    | none => s.freeHead
  | .travel | .banding | .labelling | .held | .fault => s.modPack fun p => { p with suspendPending := false }
  | .free | .guarded => s

/-- What the PA makes of PACK RESUME (R156). -/
def State.packResume (s : State) : Result :=
  if s.pack.state = .guarded then refuse .guarded
  else
    let s1 := s.resumeHead
    accept s1 (enc8 s1.pack.state.code)

/-- PACK_RESUME (R156), kind 0x29. -/
def execPackResume (tag : Byte) (s : State) : Host.Outcome State Fault Refusal :=
  request 0x29 tag (·.packResume) s

/-! ## Manual hold (R157) -/

/-- HOLD REQ becomes active: a FREE head is HELD at once, else the hold is pending (R157). -/
def State.holdReqOn (s : State) : State :=
  if s.pack.holdReq then s
  else
    let s1 := s.modPack fun p => { p with holdReq := true }
    if s.pack.state = .free then s1.enterHeld else s1.modPack fun p => { p with holdPending := true }

/-- HOLD REQ becomes inactive: a pending hold is withdrawn, a HELD head goes on (R157). -/
def State.holdReqOff (s : State) : State :=
  if s.pack.holdReq then
    let s1 := s.modPack fun p => { p with holdReq := false, holdPending := false }
    if s.pack.state = .held then s1.leaveStop else s1
  else s

/-- HOLD_REQ_ACTIVE (R157), for so many microseconds. -/
def execHoldReqActive (s : State) (held : Nat := 2) : Host.Outcome State Fault Refusal := done (s.ifHeld held State.holdReqOn)

/-- HOLD_REQ_INACTIVE (R157), for so many microseconds. -/
def execHoldReqInactive (s : State) (held : Nat := 2) : Host.Outcome State Fault Refusal :=
  done (s.ifHeld held State.holdReqOff)

/-! ## The completed coil list (R159) -/

/-- What the PA makes of COIL PEEK (R159). -/
def State.coilPeek (s : State) : Result :=
  match s.completed with
  | [] => refuse .empty
  | r :: _ => accept s (encCoilRecord r ++ enc8 s.completed.length)

/-- COIL_PEEK (R159), kind 0x36. -/
def execCoilPeek (tag : Byte) (s : State) : Host.Outcome State Fault Refusal :=
  request 0x36 tag (·.coilPeek) s

/-- What the PA makes of COIL TAKE (R159). A coil number of 0 is found before an empty list (assumption log 45). -/
def State.coilTake (s : State) (line number : Nat) : Result :=
  withLine line fun l =>
    if number = 0 then badField 1
    else match s.completed with
      | [] => refuse .empty
      | r :: rest =>
        if r.line = l ∧ r.number = number then
          accept ({ s with completed := rest } : State).evaluateGrant (encCoilId l number ++ enc8 rest.length)
        else badField 1

/-- COIL_TAKE (R159), kind 0x37. -/
def execCoilTake (tag : Byte) (line number : Nat) (s : State) : Host.Outcome State Fault Refusal :=
  request 0x37 tag (·.coilTake line number) s

/-! ## PACK STATUS (R160) -/

/-- The number of the band of a step; TRAVEL and LABEL have none (assumption log 54). -/
def PackStep.bandNumber : PackStep → Option Nat
  | .band k => some k
  | _ => none

/-- A lane as PACK STATUS reports it (R160). -/
def State.encLane (s : State) (l : LineId) : List Byte :=
  let r := s.lane l
  enc8 (s.laneState l).code ++ encBool r.labelRequired ++ enc8 r.travelLimit ++ encBool r.coilReady ++
    encBool r.rearmed ++ encBool r.disablePending ++ encList (fun c => encCoilId c.line c.number) r.queue

/-- What the PA makes of PACK STATUS (R160). A position UNKNOWN has the absent code of a lane (assumption log 49); the
time left on a step timer that does not run (assumption log 51), and the band number of a step that is no band or of no step
(assumption log 54), have the absent code of their width. -/
def State.packStatus (s : State) : Result :=
  let p := s.pack
  accept s (enc8 p.state.code ++ encOptLine p.position ++ encOptLine p.attached ++ encOptStep p.step ++
    encOpt8 (p.step.bind PackStep.bandNumber) ++ enc8 p.restarts ++ encOptLine (p.abeyance.map (·.1)) ++
    encOptStep (p.abeyance.map (·.2)) ++ encBool p.suspendPending ++ encBool p.holdPending ++
    encOpt32 (s.millisLeft p.stepTimer) ++ enc8 p.mode.code ++ p.rotation.flatMap encLine ++ enc8 p.bandTimeout ++
    enc8 p.labelTimeout ++ LineId.all.flatMap s.encLane ++ enc8 s.completed.length ++ enc8 p.reserved)

/-- PACK_STATUS (R160), kind 0x3B. -/
def execPackStatus (tag : Byte) (s : State) : Host.Outcome State Fault Refusal :=
  request 0x3B tag (·.packStatus) s

end Sys2Proof.Machine
end

