-- ==== Sys2Proof/Machine/Reads.lean ====
section
/-! DEFINITION. The remaining requests: NOTICE LEVEL, STATUS, PORT FLAGS, RESET ALL of the ML (spec/10), KNOT STATUS of the
KS (spec/06), SPANS READ and SPLICES READ of the SR (spec/07). -/

namespace Sys2Proof.Machine

/-! ## Message Link (R167 to R170) -/

/-- The class of a code (section 10.4). -/
def NoticeClass.ofCode : Nat → Option NoticeClass
  | 1 => some .coilCut
  | 2 => some .coilPacked
  | 3 => some .cutHeld
  | 4 => some .stopRequested
  | 5 => some .twineBreak
  | 6 => some .headFault
  | 7 => some .scanFault
  | 8 => some .spanOverflow
  | 9 => some .suspended
  | 10 => some .recipeApplied
  | 11 => some .guard
  | _ => none

/-- The lowest allowed level of a class; the highest is 3 for every class (section 10.4). -/
def NoticeClass.lowest : NoticeClass → Nat
  | .cutHeld | .stopRequested | .twineBreak | .headFault => 1
  | .guard => 2
  | .coilCut | .coilPacked | .scanFault | .spanOverflow | .suspended | .recipeApplied => 0

/-- A requested level clamped into the class's allowed range (R170). -/
def NoticeClass.clampLevel (c : NoticeClass) (level : Nat) : Nat := max c.lowest (min 3 level)

/-- What the ML makes of NOTICE LEVEL (R170). -/
def State.noticeLevel (s : State) (cls level : Nat) : Result :=
  match NoticeClass.ofCode cls with
  | none => badField 1
  | some c =>
    accept (s.modLink fun k => { k with levels := k.levels.set c.index.val (c.clampLevel level) c.index.isLt })
      (enc8 cls ++ enc8 (c.clampLevel level))

/-- NOTICE_LEVEL (R170), kind 0x0A. -/
def execNoticeLevel (tag : Byte) (cls level : Nat) (s : State) : Host.Outcome State Fault Refusal :=
  request 0x0A tag (·.noticeLevel cls level) s

/-- What the ML makes of STATUS (R168): the read sets the lost tally to 0. -/
def State.status (s : State) : Result :=
  accept (s.modLink fun k => { k with lost := 0 })
    (enc32 s.stamp ++ encGuard s.guard ++
      (LineId.all.flatMap fun l => enc8 (s.line l).state.code ++ encBool (s.cutIsHeld l)) ++ enc8 s.pack.state.code ++
      enc8 s.completed.length ++ enc8 s.pack.reserved ++ enc8 s.link.notices.length ++ enc32 s.link.lost ++
      encPortFlags s.link.flags)

/-- STATUS (R168), kind 0x30. -/
def execStatus (tag : Byte) (s : State) : Host.Outcome State Fault Refusal := request 0x30 tag (·.status) s

/-- What the ML makes of PORT FLAGS (R167): the flags are reported and then cleared. -/
def State.portFlags (s : State) : Result :=
  accept (s.modLink fun k => { k with flags := .clear }) (encPortFlags s.link.flags)

/-- PORT_FLAGS (R167), kind 0x38. -/
def execPortFlags (tag : Byte) (s : State) : Host.Outcome State Fault Refusal := request 0x38 tag (·.portFlags) s

/-- What the ML makes of RESET ALL (R169): an acceptance with an empty payload; what follows hangs on that frame. -/
def State.resetAll (s : State) : Result := accept s []

/-- RESET_ALL (R169), kind 0x2F. -/
def execResetAll (tag : Byte) (s : State) : Host.Outcome State Fault Refusal := request 0x2F tag (·.resetAll) s

/-! ## Knot Supervisor (R112) -/

/-- The columns KNOT STATUS reports: from the first column on, at most 16, up to the columns used. -/
def columnsFrom (first used : Nat) : List Nat := ((List.range used).drop (first - 1)).take 16

/-- A column history as KNOT STATUS reports it. -/
def encColumn (c : Nat) (h : ColumnHistory) : List Byte :=
  enc8 (c + 1) ++ enc8 h.misses ++
    (match h.span with
      | some (k, start) => enc8 k.code ++ encMm start
      | none => encOpt8 none ++ encOpt32 none)

/-- How many columns of a scan result have a judgment. -/
def ScanResult.tally (r : ScanResult) (m : ColumnMark) : Nat := r.columns.countP (· == m)

/-- The last scan result, with the judgments of the columns reported (R105, R112). A reported column that the result holds no
judgment of is left out (assumption log 46). -/
def encScanResult (cols : List Nat) : Option ScanResult → List Byte
  | some r => enc32 r.row ++ encMm r.coordinate ++ enc8 r.outcome.code ++ encList (fun b => enc8 b.code) r.boards ++
      encOpt8 r.endBoard ++ encList (fun c => enc8 c.code) (cols.filterMap fun c => r.columns[c]?) ++
      enc8 (r.tally .tied) ++ enc8 (r.tally .missed) ++ enc8 (r.tally .unknown)
  | none => encOpt32 none ++ encOpt32 none ++ encOpt8 none ++ enc8 0 ++ encOpt8 none ++ enc8 0 ++ encOpt8 none ++
      encOpt8 none ++ encOpt8 none

/-- The parity counts of boards 1 to the board count. -/
def LinkRec.parities (r : LinkRec) (boards : Nat) : List Nat := r.parity.toList.take boards

/-- What the KS makes of KNOT STATUS (R112). While the bound slot of the NET line holds a ROPE recipe, the gate counts and the
column list are absent and the gate level is low, as without a bound recipe (assumption log 53). -/
def State.knotStatus (s : State) (line column : Nat) : Result :=
  withLine line fun l =>
    if inRange 1 64 column = false then refuse .badTarget
    else match (s.line l).kind, (s.line l).cfg.scanLink with
      | .net, some k =>
        let r := s.knot l
        let gates := s.gateInForce l
        let cols := match s.knotSpec l with
          | some spec => columnsFrom column spec.columnsUsed
          | none => []
        accept s (enc8 r.sync.code ++ enc16 r.angle ++ encOpt16 (gates.map (·.1)) ++ encOpt16 (gates.map (·.2)) ++
          encBool (s.gateLevel l) ++ encBool (s.scanLink k).scan.isSome ++ enc32 r.rowIndex ++
          enc8 (ScanLink.code k) ++ enc8 (s.scanLink k).chain.code ++
          encList enc16 ((s.scanLink k).parities ((s.line l).cfg.boardCount.getD 0)) ++
          encList (fun c => encColumn c (r.column c)) cols ++ encBool r.meshSpan.isSome ++ encBool r.unseenSpan.isSome ++
          encScanResult cols r.lastScan ++ encOptMm r.lastRowCoord)
      | _, _ => refuse .badState

/-- KNOT_STATUS (R112), kind 0x39. -/
def execKnotStatus (tag : Byte) (line column : Nat) (s : State) : Host.Outcome State Fault Refusal :=
  request 0x39 tag (·.knotStatus line column) s

/-! ## Span Recorder (R123, R124) -/

/-- The entries SPANS READ returns, with their numbers: from the first entry number on, at most 10 (R123). -/
def SpanRec.page (r : SpanRec) (first : Nat) : List (SpanEntry × Nat) := ((r.spans.zipIdx 1).drop (first - 1)).take 10

/-- What the SR makes of SPANS READ (R123). -/
def State.spansRead (s : State) (line first : Nat) : Result :=
  withLine line fun l =>
    if inRange 1 48 first = false then badField 2
    else
      let r := s.spanRec l
      accept s (encLine l ++ enc32 r.edition ++ enc8 r.spans.length ++ enc32 r.lostSpans ++ enc8 r.lostKeys.length ++
        encList (fun e => enc8 e.2 ++ encEntry l e.1) (r.page first))

/-- SPANS_READ (R123), kind 0x34. -/
def execSpansRead (tag : Byte) (line first : Nat) (s : State) : Host.Outcome State Fault Refusal :=
  request 0x34 tag (·.spansRead line first) s

/-- What the SR makes of SPLICES READ (R124). -/
def State.splicesRead (s : State) (line : Nat) : Result :=
  withLine line fun l =>
    let r := s.spanRec l
    accept s (encLine l ++ enc32 r.edition ++ enc32 r.lostSplices ++ encList encMm r.splices)

/-- SPLICES_READ (R124), kind 0x35. -/
def execSplicesRead (tag : Byte) (line : Nat) (s : State) : Host.Outcome State Fault Refusal :=
  request 0x35 tag (·.splicesRead line) s

end Sys2Proof.Machine
end

