-- ==== Sys2Proof/Machine/Payload.lean ====
section
/-! DEFINITION. Requests on the link: what the payload of each request kind carries (R172, R173), read into a command and
written out from one, and what the owning block makes of it. -/

namespace Sys2Proof.Machine

/-! ## Reading fields: a field is taken from the front of the payload -/

/-- A field of 1 byte. -/
def get8 : List Byte → Option (Nat × List Byte)
  | a :: r => some (a.toNat, r)
  | _ => none

/-- A field of 2 bytes, high byte first. -/
def get16 : List Byte → Option (Nat × List Byte)
  | a :: b :: r => some (a.toNat * 256 + b.toNat, r)
  | _ => none

/-- A field of 4 bytes, high byte first. -/
def get32 : List Byte → Option (Nat × List Byte)
  | a :: b :: c :: d :: r => some (a.toNat * 16777216 + b.toNat * 65536 + c.toNat * 256 + d.toNat, r)
  | _ => none

/-- A number of a field whose absent code is `code`. -/
def present (code n : Nat) : Option Nat := if n = code then none else some n

/-- Fields that may be absent: the highest code of the width (R173). -/
def getOpt8 (p : List Byte) : Option (Option Nat × List Byte) := (get8 p).map fun x => (present 0xFF x.1, x.2)
def getOpt16 (p : List Byte) : Option (Option Nat × List Byte) := (get16 p).map fun x => (present 0xFFFF x.1, x.2)
def getOpt32 (p : List Byte) : Option (Option Nat × List Byte) := (get32 p).map fun x => (present 0xFFFFFFFF x.1, x.2)

/-- A signed field of 2 bytes that may be absent: two's complement, the lowest code for absent (R173). -/
def getOptI16 (p : List Byte) : Option (Option Int × List Byte) :=
  (get16 p).map fun x => (if x.1 = 0x8000 then none else some (BitVec.ofNat 16 x.1).toInt, x.2)

/-- A payload without fields. -/
def getNothing (p : List Byte) : Option (Unit × List Byte) := some ((), p)

/-- Two fields of 1 byte. -/
def get88 (p : List Byte) : Option ((Nat × Nat) × List Byte) := do
  let (x, p) ← get8 p
  let (y, p) ← get8 p
  some ((x, y), p)

/-- Three fields of 1 byte. -/
def get888 (p : List Byte) : Option ((Nat × Nat × Nat) × List Byte) := do
  let (x, p) ← get8 p
  let (y, p) ← get8 p
  let (z, p) ← get8 p
  some ((x, y, z), p)

/-- A coil identifier: the line and the coil number (R173). -/
def get8then32 (p : List Byte) : Option ((Nat × Nat) × List Byte) := do
  let (x, p) ← get8 p
  let (y, p) ← get32 p
  some ((x, y), p)

/-! ## CHANNEL SET, HEAD SET, LINE SET -/

/-- The consumer a byte names under a role: a head for FLYER; otherwise a line below 4, else a head (R33). -/
def consumerOf (role n : Nat) : ConsumerArg :=
  if role = Role.flyer.code then .head n else if n < 4 then .line n else .head n

/-- The number a consumer is sent as. -/
def consumerNumber : ConsumerArg → Nat
  | .line n => n
  | .head n => n

def getChannelSet (p : List Byte) : Option (ChannelSetArgs × List Byte) := do
  let (channel, p) ← get8 p
  let (role, p) ← get8 p
  let (consumer, p) ← get8 p
  let (invert, p) ← get8 p
  some (⟨channel, role, consumerOf role consumer, invert⟩, p)

def putChannelSet (f : ChannelSetArgs) : List Byte :=
  enc8 f.channel ++ enc8 f.role ++ enc8 (consumerNumber f.consumer) ++ enc8 f.invert

def getHeadSet (p : List Byte) : Option (HeadSetArgs × List Byte) := do
  let (head, p) ← get8 p
  let (line, p) ← get8 p
  let (position, p) ← get8 p
  let (channel, p) ← get8 p
  let (countsPerTurn, p) ← get16 p
  let (offset, p) ← get32 p
  let (zSense, p) ← get8 p
  some (⟨head, line, position, channel, countsPerTurn, offset, zSense⟩, p)

def putHeadSet (f : HeadSetArgs) : List Byte :=
  enc8 f.head ++ enc8 f.line ++ enc8 f.position ++ enc8 f.channel ++ enc16 f.countsPerTurn ++ enc32 f.offset ++
    enc8 f.zSense

/-- LINE SET: the line, which R2 gives no field number, before fields 1 to 20 (assumption log 14). -/
def getLineSet (p : List Byte) : Option (LineSetArgs × List Byte) := do
  let (line, p) ← get8 p
  let (kind, p) ← get8 p
  let (haulChannel, p) ← getOpt8 p
  let (haulPitch, p) ← get32 p
  let (wheelChannel, p) ← getOpt8 p
  let (wheelPitch, p) ← getOpt32 p
  let (authority, p) ← get8 p
  let (slipWindow, p) ← get32 p
  let (slipLimit, p) ← get8 p
  let (spliceChannel, p) ← getOpt8 p
  let (spliceOffset, p) ← getOpt32 p
  let (spliceSpacing, p) ← getOpt32 p
  let (shaftChannel, p) ← getOpt8 p
  let (countsPerRev, p) ← getOpt16 p
  let (scanLink, p) ← getOpt8 p
  let (boardCount, p) ← getOpt8 p
  let (knotOffset, p) ← getOpt32 p
  let (markerPulse, p) ← get16 p
  let (cutterPulse, p) ← get16 p
  let (leader, p) ← getOpt8 p
  let (pairTolerance, p) ← get32 p
  some (
    { line := line
      kind := kind
      haulChannel := haulChannel
      haulPitch := haulPitch
      wheelChannel := wheelChannel
      wheelPitch := wheelPitch
      authority := authority
      slipWindow := slipWindow
      slipLimit := slipLimit
      spliceChannel := spliceChannel
      spliceOffset := spliceOffset
      spliceSpacing := spliceSpacing
      shaftChannel := shaftChannel
      countsPerRev := countsPerRev
      scanLink := scanLink
      boardCount := boardCount
      knotOffset := knotOffset
      markerPulse := markerPulse
      cutterPulse := cutterPulse
      leader := leader
      pairTolerance := pairTolerance }, p)

def putLineSet (f : LineSetArgs) : List Byte :=
  enc8 f.line ++ enc8 f.kind ++ encOpt8 f.haulChannel ++ enc32 f.haulPitch ++ encOpt8 f.wheelChannel ++
    encOpt32 f.wheelPitch ++ enc8 f.authority ++ enc32 f.slipWindow ++ enc8 f.slipLimit ++ encOpt8 f.spliceChannel ++
    encOpt32 f.spliceOffset ++ encOpt32 f.spliceSpacing ++ encOpt8 f.shaftChannel ++ encOpt16 f.countsPerRev ++
    encOpt8 f.scanLink ++ encOpt8 f.boardCount ++ encOpt32 f.knotOffset ++ enc16 f.markerPulse ++ enc16 f.cutterPulse ++
    encOpt8 f.leader ++ enc32 f.pairTolerance

/-! ## RECIPE STORE -/

/-- The characters of a name without the 0x00 it is filled up with (R173). -/
def trimName (p : List Byte) : List Byte := (p.reverse.dropWhile (· == 0)).reverse

def getName (p : List Byte) : Option (List Byte × List Byte) :=
  if 16 ≤ p.length then some (trimName (p.take 16), p.drop 16) else none

def getPosition (p : List Byte) : Option (PositionArgs × List Byte) := do
  let (target, p) ← getOpt32 p
  let (hand, p) ← getOpt8 p
  let (startTrim, p) ← getOptI16 p
  some (⟨target, hand, startTrim⟩, p)

def putPosition (a : PositionArgs) : List Byte := encOpt32 a.target ++ encOpt8 a.hand ++ encOptI16 a.startTrim

/-- A number of strand positions one after another. -/
def getPositions : Nat → List Byte → Option (List PositionArgs × List Byte)
  | 0, p => some ([], p)
  | n + 1, p => do
    let (a, p) ← getPosition p
    let (rest, p) ← getPositions n p
    some (a :: rest, p)

/-- Thirteen strand positions from a list of them. -/
def thirteen (ps : List PositionArgs) : Vector PositionArgs 13 := Vector.ofFn fun i => (ps[i.val]?).getD ⟨none, none, none⟩

def getRecipe (p : List Byte) : Option (RecipeArgs × List Byte) := do
  let (name, p) ← getName p
  let (kind, p) ← get8 p
  let (positions, p) ← getPositions 13 p
  let (trimLimit, p) ← get16 p
  let (gain, p) ← get16 p
  let (slew, p) ← get16 p
  let (tolerance, p) ← get8 p
  let (window, p) ← get32 p
  let (stallLength, p) ← get32 p
  let (limitWindows, p) ← get8 p
  let (columnsUsed, p) ← getOpt8 p
  let (gateOpen, p) ← getOpt16 p
  let (gateClose, p) ← getOpt16 p
  let (breakThreshold, p) ← getOpt8 p
  let (meshPitch, p) ← getOpt32 p
  let (meshTolerance, p) ← getOpt8 p
  let (stopOnBreak, p) ← getOpt8 p
  let (targetLength, p) ← get32 p
  let (plusTolerance, p) ← get32 p
  let (endZone, p) ← get32 p
  let (markInterval, p) ← get32 p
  let (bandCount, p) ← get8 p
  some (
    { name := name
      kind := kind
      positions := thirteen positions
      trimLimit := trimLimit
      gain := gain
      slew := slew
      tolerance := tolerance
      window := window
      stallLength := stallLength
      limitWindows := limitWindows
      columnsUsed := columnsUsed
      gateOpen := gateOpen
      gateClose := gateClose
      breakThreshold := breakThreshold
      meshPitch := meshPitch
      meshTolerance := meshTolerance
      stopOnBreak := stopOnBreak
      targetLength := targetLength
      plusTolerance := plusTolerance
      endZone := endZone
      markInterval := markInterval
      bandCount := bandCount }, p)

def putRecipe (f : RecipeArgs) : List Byte :=
  encName f.name ++ enc8 f.kind ++ f.positions.toList.flatMap putPosition ++ enc16 f.trimLimit ++ enc16 f.gain ++
    enc16 f.slew ++ enc8 f.tolerance ++ enc32 f.window ++ enc32 f.stallLength ++ enc8 f.limitWindows ++
    encOpt8 f.columnsUsed ++ encOpt16 f.gateOpen ++ encOpt16 f.gateClose ++ encOpt8 f.breakThreshold ++
    encOpt32 f.meshPitch ++ encOpt8 f.meshTolerance ++ encOpt8 f.stopOnBreak ++ enc32 f.targetLength ++
    enc32 f.plusTolerance ++ enc32 f.endZone ++ enc32 f.markInterval ++ enc8 f.bandCount

def getRecipeStore (p : List Byte) : Option ((Nat × RecipeArgs) × List Byte) := do
  let (slot, p) ← get8 p
  let (f, p) ← getRecipe p
  some ((slot, f), p)

/-! ## The kinds (R172) -/

/-- What a well-formed frame's kind and payload spell (R164 checks 1 and 2). -/
inductive Spelled where
  | unknownKind
  | badLength
  | command (c : Instr)
  deriving DecidableEq, Repr

/-- A payload is read whole: one too short or too long does not fit (R164 check 2). -/
def readWith {α : Type} (get : List Byte → Option (α × List Byte)) (make : α → Instr) (payload : List Byte) : Spelled :=
  match get payload with
  | some (x, []) => .command (make x)
  | _ => .badLength

/-- The request a kind, a tag and a payload spell. -/
def spell (kind tag : Byte) (payload : List Byte) : Spelled :=
  match kind.toNat with
  | 0x01 => readWith getChannelSet (.channelSet tag) payload
  | 0x02 => readWith get8 (.channelFree tag) payload
  | 0x03 => readWith get8 (.channelRead tag) payload
  | 0x04 => readWith getHeadSet (.headSet tag) payload
  | 0x05 => readWith get8 (.headFree tag) payload
  | 0x06 => readWith getLineSet (.lineSet tag) payload
  | 0x07 => readWith get888 (fun x => .laneSet tag x.1 x.2.1 x.2.2) payload
  | 0x08 => readWith get88 (fun x => .packSet tag x.1 x.2) payload
  | 0x09 => readWith get8 (.packMode tag) payload
  | 0x0A => readWith get88 (fun x => .noticeLevel tag x.1 x.2) payload
  | 0x10 => readWith getRecipeStore (fun x => .recipeStore tag x.1 x.2) payload
  | 0x11 => readWith get8 (.recipeRead tag) payload
  | 0x12 => readWith get8 (.recipeFlush tag) payload
  | 0x13 => readWith get8 (.recipePurge tag) payload
  | 0x14 => readWith get88 (fun x => .lineBind tag x.1 x.2) payload
  | 0x20 => readWith get8 (.runStart tag) payload
  | 0x21 => readWith get8 (.runEnd tag) payload
  | 0x22 => readWith get8 (.lineStop tag) payload
  | 0x23 => readWith get8 (.lineResume tag) payload
  | 0x24 => readWith get8 (.lineReset tag) payload
  | 0x25 => readWith get8 (.cutNow tag) payload
  | 0x26 => readWith get8 (.laneEnable tag) payload
  | 0x27 => readWith get8 (.laneDisable tag) payload
  | 0x28 => readWith getNothing (fun _ => .packSuspend tag) payload
  | 0x29 => readWith getNothing (fun _ => .packResume tag) payload
  | 0x2A => readWith getNothing (fun _ => .headClear tag) payload
  | 0x2B => readWith getNothing (fun _ => .guardArm tag) payload
  | 0x2C => readWith getNothing (fun _ => .guardClear tag) payload
  | 0x2F => readWith getNothing (fun _ => .resetAll tag) payload
  | 0x30 => readWith getNothing (fun _ => .status tag) payload
  | 0x31 => readWith get8 (.lineStatus tag) payload
  | 0x32 => readWith get8 (.headStatus tag) payload
  | 0x33 => readWith getNothing (fun _ => .snapshot tag) payload
  | 0x34 => readWith get88 (fun x => .spansRead tag x.1 x.2) payload
  | 0x35 => readWith get8 (.splicesRead tag) payload
  | 0x36 => readWith getNothing (fun _ => .coilPeek tag) payload
  | 0x37 => readWith get8then32 (fun x => .coilTake tag x.1 x.2) payload
  | 0x38 => readWith getNothing (fun _ => .portFlags tag) payload
  | 0x39 => readWith get88 (fun x => .knotStatus tag x.1 x.2) payload
  | 0x3A => readWith get8 (.cutStatus tag) payload
  | 0x3B => readWith getNothing (fun _ => .packStatus tag) payload
  | _ => .unknownKind

/-- A request command on the link: its kind, its tag and its payload, and what its owning block makes of it. -/
structure RequestForm where
  kind : Byte
  tag : Byte
  payload : List Byte
  handle : State → Result

/-- The form of a request command; none for an event. -/
def requestForm : Instr → Option RequestForm
  | .channelSet tag f => some ⟨0x01, tag, putChannelSet f, (·.channelSet f)⟩
  | .channelFree tag channel => some ⟨0x02, tag, enc8 channel, (·.channelFree channel)⟩
  | .channelRead tag channel => some ⟨0x03, tag, enc8 channel, (·.channelRead channel)⟩
  | .headSet tag f => some ⟨0x04, tag, putHeadSet f, (·.headSet f)⟩
  | .headFree tag head => some ⟨0x05, tag, enc8 head, (·.headFree head)⟩
  | .lineSet tag f => some ⟨0x06, tag, putLineSet f, (·.lineSet f)⟩
  | .laneSet tag lane label travel => some ⟨0x07, tag, enc8 lane ++ enc8 label ++ enc8 travel, (·.laneSet lane label travel)⟩
  | .packSet tag x y => some ⟨0x08, tag, enc8 x ++ enc8 y, (·.packSet x y)⟩
  | .packMode tag mode => some ⟨0x09, tag, enc8 mode, (·.packMode mode)⟩
  | .noticeLevel tag x y => some ⟨0x0A, tag, enc8 x ++ enc8 y, (·.noticeLevel x y)⟩
  | .recipeStore tag slot f => some ⟨0x10, tag, enc8 slot ++ putRecipe f, (·.recipeStore slot f)⟩
  | .recipeRead tag slot => some ⟨0x11, tag, enc8 slot, (·.recipeRead slot)⟩
  | .recipeFlush tag slot => some ⟨0x12, tag, enc8 slot, (·.recipeFlush slot)⟩
  | .recipePurge tag slot => some ⟨0x13, tag, enc8 slot, (·.recipePurge slot)⟩
  | .lineBind tag x y => some ⟨0x14, tag, enc8 x ++ enc8 y, (·.lineBind x y)⟩
  | .runStart tag line => some ⟨0x20, tag, enc8 line, (·.runStart line)⟩
  | .runEnd tag line => some ⟨0x21, tag, enc8 line, (·.runEnd line)⟩
  | .lineStop tag line => some ⟨0x22, tag, enc8 line, (·.lineStop line)⟩
  | .lineResume tag line => some ⟨0x23, tag, enc8 line, (·.lineResume line)⟩
  | .lineReset tag line => some ⟨0x24, tag, enc8 line, (·.lineReset line)⟩
  | .cutNow tag line => some ⟨0x25, tag, enc8 line, (·.cutNow line)⟩
  | .laneEnable tag lane => some ⟨0x26, tag, enc8 lane, (·.laneEnable lane)⟩
  | .laneDisable tag lane => some ⟨0x27, tag, enc8 lane, (·.laneDisable lane)⟩
  | .packSuspend tag => some ⟨0x28, tag, [], (·.packSuspend)⟩
  | .packResume tag => some ⟨0x29, tag, [], (·.packResume)⟩
  | .headClear tag => some ⟨0x2A, tag, [], (·.headClear)⟩
  | .guardArm tag => some ⟨0x2B, tag, [], (·.guardArm)⟩
  | .guardClear tag => some ⟨0x2C, tag, [], (·.guardClear)⟩
  | .resetAll tag => some ⟨0x2F, tag, [], (·.resetAll)⟩
  | .status tag => some ⟨0x30, tag, [], (·.status)⟩
  | .lineStatus tag line => some ⟨0x31, tag, enc8 line, (·.lineStatus line)⟩
  | .headStatus tag head => some ⟨0x32, tag, enc8 head, (·.headStatus head)⟩
  | .snapshot tag => some ⟨0x33, tag, [], (·.snapshot)⟩
  | .spansRead tag x y => some ⟨0x34, tag, enc8 x ++ enc8 y, (·.spansRead x y)⟩
  | .splicesRead tag line => some ⟨0x35, tag, enc8 line, (·.splicesRead line)⟩
  | .coilPeek tag => some ⟨0x36, tag, [], (·.coilPeek)⟩
  | .coilTake tag line number => some ⟨0x37, tag, enc8 line ++ enc32 number, (·.coilTake line number)⟩
  | .portFlags tag => some ⟨0x38, tag, [], (·.portFlags)⟩
  | .knotStatus tag x y => some ⟨0x39, tag, enc8 x ++ enc8 y, (·.knotStatus x y)⟩
  | .cutStatus tag line => some ⟨0x3A, tag, enc8 line, (·.cutStatus line)⟩
  | .packStatus tag => some ⟨0x3B, tag, [], (·.packStatus)⟩
  | .powerOn _ | .resetTakesEffect | .frameComplete _ | .frameLengthBroken _ | .stopBitError | .interByteGap
  | .frameSent | .quadratureCount _ _ | .illegalTransition _ | .periodSaturation _ | .shaftEdge _ _ _
  | .spliceEdge _ _ _ | .markerPulseEnd _ | .boardFrame _ _ | .cutterPulseEnd _ | .guardEvent _
  | .coilReadyActive _ _ | .coilReadyInactive _ _ | .headAtLane _ | .travelTimeout | .bandDone _ | .clampSlip _
  | .bandTimeout | .labelDone _ | .labelTimeout | .holdReqActive _ | .holdReqInactive _ | .byteReceived _
  | .guardInputChange _ _ | .phaseLevelChange _ _ _ => none

end Sys2Proof.Machine
end

