-- ==== Sys2Proof/Machine/Wire.lean ====
section
/-! DEFINITION. The events of the serial link (R161 to R166) and the two resets of the whole part (R169, R174 to R176). -/

namespace Sys2Proof.Machine

/-! ## Resets of the whole part -/

/-- POWER_ON: every block at its power-on values, the inputs read as found (R174, R175). The queue of waiting commands
and the counter of free orders are the model's own and stay. -/
def execPowerOn (pins : Pins) (s : State) : Host.Outcome State Fault Refusal :=
  .next { State.powerUp pins with choices := s.choices, pending := s.pending }

/-- The levels the field inputs stand at. -/
def State.pins (s : State) : Pins where
  guardActive := s.guard.inputActive
  holdReq := s.pack.holdReq
  coilReady := ⟨s.lanes.a.coilReady, s.lanes.b.coilReady, s.lanes.c.coilReady, s.lanes.d.coilReady⟩
  phaseA := BitVec.ofNat 32 (bitField (s.channels.toList.map (·.refA)))
  phaseB := BitVec.ofNat 32 (bitField (s.channels.toList.map (·.refB)))

/-- RESET ALL takes effect (R169, R176): as at power-on with the inputs as they stand, the time stamp from 0. The time
base runs on, and a trim output takes duty 5,000 from its next period. -/
def State.resetPart (s : State) : State :=
  { State.powerUp s.pins with
    now := s.now
    epoch := s.now
    drivenDuty := s.drivenDuty
    choices := s.choices
    pending := s.pending }

/-- The frame being sent is the acceptance of RESET ALL. -/
def State.sendingReset (s : State) : Bool := (s.link.sending.map (·.kind)) == some resetAcceptance

/-- RESET_TAKES_EFFECT: the last byte of the acceptance of RESET ALL has been sent (R169, R176). -/
def execResetTakesEffect (s : State) : Host.Outcome State Fault Refusal :=
  if s.sendingReset then .next s.resetPart else done s

/-! ## The transmitter (R163, R166) -/

/-- The kind of a notice (R172). -/
def noticeKind : Byte := 0xF0#8

/-- FRAME_SENT: the last byte of the frame being sent has gone. A reply frees its request's place in the buffer, and the
next frame is chosen (R163, R166); after the acceptance of RESET ALL the part is reset (R169). -/
def execFrameSent (s : State) : Host.Outcome State Fault Refusal :=
  match s.link.sending with
  | none => done s
  | some f =>
    if s.sendingReset then .next s.resetPart
    else done (s.modLink fun k => { k with
      sending := none
      buffer := if f.kind = noticeKind then k.buffer else k.buffer.tail })

/-! ## The receiver (R161, R162) -/

/-- The frame is broken, or a byte with a low stop bit discarded: FRAMING and HUNT (R161). -/
def State.framingError (s : State) : State :=
  s.modLink fun k => { k with receiver := .hunt, flags := { k.flags with framing := true } }

/-- A well-formed frame is offered to the request buffer and handled (R163, R164). -/
def State.serveFrame (s : State) (kind tag : Byte) (payload : List Byte) : State :=
  match spell kind tag payload with
  | .unknownKind => s.serve kind tag fun _ => refuse .badKind
  | .badLength => s.serve kind tag fun _ => badField 0
  | .command c =>
    match requestForm c with
    | some r => s.serve r.kind r.tag r.handle
    | none => s

/-- The bytes of a frame after its start byte, once it is complete: the CRC is compared, and a match is served (R162). -/
def State.completeFrame (s : State) (got : List Byte) : State :=
  let s1 := s.modLink fun k => { k with receiver := .hunt }
  let body := got.take (got.length - 2)
  if enc16 (crc16 body).toNat = got.drop (got.length - 2) then
    match body with
    | _ :: kind :: tag :: payload => s1.serveFrame kind tag payload
    | _ => s1
  else s1.modLink fun k => { k with flags := { k.flags with crc := true } }

/-- The length of a frame, counted without its start byte, that its payload length gives (R172). -/
def frameSize (got : List Byte) : Nat :=
  match got with
  | n :: _ => n.toNat + 5
  | [] => 0

/-- A byte of a frame is taken (R161): a length above 240 breaks the frame, the last CRC byte completes it. -/
def State.frameByte (s : State) (got : List Byte) : State :=
  match got with
  | [n] => if 240 < n.toNat then s.framingError else s.modLink fun k => { k with receiver := .frame got, rxLast := s.now }
  | _ =>
    if frameSize got ≤ got.length then s.completeFrame got
    else s.modLink fun k => { k with receiver := .frame got, rxLast := s.now }

/-- A byte with a good stop bit arrives (R161). -/
def State.byteArrives (s : State) (b : Byte) : State :=
  match s.link.receiver with
  | .hunt => if b = 0xA5#8 then s.modLink fun k => { k with receiver := .frame [], rxLast := s.now } else s
  | .frame got => s.frameByte (got ++ [b])

/-- BYTE_RECEIVED (R161). -/
def execByteReceived (value : Byte) (s : State) : Host.Outcome State Fault Refusal := done (s.byteArrives value)

/-- The receiver awaits the last byte of a frame. -/
def Receiver.awaitsLast : Receiver → Bool
  | .hunt => false
  | .frame got => !got.isEmpty && frameSize got == got.length + 1

/-- FRAME_COMPLETE: the last CRC byte of a frame arrives (R162). The event is none where no last byte is awaited. -/
def execFrameComplete (lastByte : Byte) (s : State) : Host.Outcome State Fault Refusal :=
  if s.link.receiver.awaitsLast then done (s.byteArrives lastByte) else done s

/-- FRAME_LENGTH_BROKEN: a length byte above 240 arrives (R161). The event is none where no length is awaited. -/
def execFrameLengthBroken (length : Byte) (s : State) : Host.Outcome State Fault Refusal :=
  if s.link.receiver = .frame [] ∧ 240 < length.toNat then done (s.byteArrives length) else done s

/-- STOP_BIT_ERROR: a byte whose stop bit is low arrives (R161). -/
def execStopBitError (s : State) : Host.Outcome State Fault Refusal := done s.framingError

/-- INTER_BYTE_GAP: 5 ms have passed since the last byte of a frame (R161). -/
def execInterByteGap (s : State) : Host.Outcome State Fault Refusal :=
  match s.link.receiver with
  | .hunt => done s
  | .frame _ => done (s.advanceTo (s.link.rxLast + 5000)).framingError

end Sys2Proof.Machine
end

