-- ==== Sys2Proof/Machine/Dispatch.lean ====
section
/-! DEFINITION. One arm per command: the meaning each row of the opcode table has. -/

namespace Sys2Proof.Machine

def exec (i : Instr) (s : State) : Host.Outcome State Fault Refusal :=
  match i with
  | .powerOn pins => Sys2Proof.Machine.execPowerOn pins s
  | .channelSet tag f => Sys2Proof.Machine.execChannelSet tag f s
  | .channelFree tag channel => Sys2Proof.Machine.execChannelFree tag channel s
  | .channelRead tag channel => Sys2Proof.Machine.execChannelRead tag channel s
  | .headSet tag f => Sys2Proof.Machine.execHeadSet tag f s
  | .headFree tag head => Sys2Proof.Machine.execHeadFree tag head s
  | .lineSet tag f => Sys2Proof.Machine.execLineSet tag f s
  | .laneSet tag lane labelRequired travelLimit => Sys2Proof.Machine.execLaneSet tag lane labelRequired travelLimit s
  | .packSet tag bandTimeout labelTimeout => Sys2Proof.Machine.execPackSet tag bandTimeout labelTimeout s
  | .packMode tag mode => Sys2Proof.Machine.execPackMode tag mode s
  | .noticeLevel tag cls level => Sys2Proof.Machine.execNoticeLevel tag cls level s
  | .recipeStore tag slot f => Sys2Proof.Machine.execRecipeStore tag slot f s
  | .recipeRead tag slot => Sys2Proof.Machine.execRecipeRead tag slot s
  | .recipeFlush tag slot => Sys2Proof.Machine.execRecipeFlush tag slot s
  | .recipePurge tag slot => Sys2Proof.Machine.execRecipePurge tag slot s
  | .lineBind tag line slot => Sys2Proof.Machine.execLineBind tag line slot s
  | .runStart tag line => Sys2Proof.Machine.execRunStart tag line s
  | .runEnd tag line => Sys2Proof.Machine.execRunEnd tag line s
  | .lineStop tag line => Sys2Proof.Machine.execLineStop tag line s
  | .lineResume tag line => Sys2Proof.Machine.execLineResume tag line s
  | .lineReset tag line => Sys2Proof.Machine.execLineReset tag line s
  | .cutNow tag line => Sys2Proof.Machine.execCutNow tag line s
  | .laneEnable tag lane => Sys2Proof.Machine.execLaneEnable tag lane s
  | .laneDisable tag lane => Sys2Proof.Machine.execLaneDisable tag lane s
  | .packSuspend tag => Sys2Proof.Machine.execPackSuspend tag s
  | .packResume tag => Sys2Proof.Machine.execPackResume tag s
  | .headClear tag => Sys2Proof.Machine.execHeadClear tag s
  | .guardArm tag => Sys2Proof.Machine.execGuardArm tag s
  | .guardClear tag => Sys2Proof.Machine.execGuardClear tag s
  | .resetAll tag => Sys2Proof.Machine.execResetAll tag s
  | .resetTakesEffect => Sys2Proof.Machine.execResetTakesEffect s
  | .status tag => Sys2Proof.Machine.execStatus tag s
  | .lineStatus tag line => Sys2Proof.Machine.execLineStatus tag line s
  | .headStatus tag head => Sys2Proof.Machine.execHeadStatus tag head s
  | .snapshot tag => Sys2Proof.Machine.execSnapshot tag s
  | .spansRead tag line first => Sys2Proof.Machine.execSpansRead tag line first s
  | .splicesRead tag line => Sys2Proof.Machine.execSplicesRead tag line s
  | .coilPeek tag => Sys2Proof.Machine.execCoilPeek tag s
  | .coilTake tag line number => Sys2Proof.Machine.execCoilTake tag line number s
  | .portFlags tag => Sys2Proof.Machine.execPortFlags tag s
  | .knotStatus tag line column => Sys2Proof.Machine.execKnotStatus tag line column s
  | .cutStatus tag line => Sys2Proof.Machine.execCutStatus tag line s
  | .packStatus tag => Sys2Proof.Machine.execPackStatus tag s
  | .frameComplete lastByte => Sys2Proof.Machine.execFrameComplete lastByte s
  | .frameLengthBroken length => Sys2Proof.Machine.execFrameLengthBroken length s
  | .stopBitError => Sys2Proof.Machine.execStopBitError s
  | .interByteGap => Sys2Proof.Machine.execInterByteGap s
  | .frameSent => Sys2Proof.Machine.execFrameSent s
  | .quadratureCount ch phase => Sys2Proof.Machine.execQuadratureCount ch phase s
  | .illegalTransition ch => Sys2Proof.Machine.execIllegalTransition ch s
  | .periodSaturation ch => Sys2Proof.Machine.execPeriodSaturation ch s
  | .shaftEdge ch levelA levelB => Sys2Proof.Machine.execShaftEdge ch levelA levelB s
  | .spliceEdge ch levelA levelB => Sys2Proof.Machine.execSpliceEdge ch levelA levelB s
  | .markerPulseEnd line => Sys2Proof.Machine.execMarkerPulseEnd line s
  | .boardFrame link bits => Sys2Proof.Machine.execBoardFrame link bits s
  | .cutterPulseEnd line => Sys2Proof.Machine.execCutterPulseEnd line s
  | .guardEvent held => Sys2Proof.Machine.execGuardEvent s held
  | .coilReadyActive lane held => Sys2Proof.Machine.execCoilReadyActive lane s held
  | .coilReadyInactive lane held => Sys2Proof.Machine.execCoilReadyInactive lane s held
  | .headAtLane held => Sys2Proof.Machine.execHeadAtLane s held
  | .travelTimeout => Sys2Proof.Machine.execTravelTimeout s
  | .bandDone held => Sys2Proof.Machine.execBandDone s held
  | .clampSlip held => Sys2Proof.Machine.execClampSlip s held
  | .bandTimeout => Sys2Proof.Machine.execBandTimeout s
  | .labelDone held => Sys2Proof.Machine.execLabelDone s held
  | .labelTimeout => Sys2Proof.Machine.execLabelTimeout s
  | .holdReqActive held => Sys2Proof.Machine.execHoldReqActive s held
  | .holdReqInactive held => Sys2Proof.Machine.execHoldReqInactive s held
  | .byteReceived value => Sys2Proof.Machine.execByteReceived value s
  | .guardInputChange active held => Sys2Proof.Machine.execGuardInputChange active s held
  | .phaseLevelChange ch levelA levelB => Sys2Proof.Machine.execPhaseLevelChange ch levelA levelB s

end Sys2Proof.Machine
end

