-- ==== Sys2Proof/Safety.lean ====
section
/-! DEFINITION. What counts as a sound state of the part: the laws the manual states of all its states, block by block.
The laws of one line or lane are stated of that line. -/

namespace Sys2Proof.Safety

open Sys2Proof.Machine

/-! ## The guard (R17) -/

/-- No cutter, marker, strap or label output is asserted while the guard latch is set (R17). -/
def GuardLaw (s : State) : Prop :=
  s.guard.latch = true →
    (∀ l, s.cutterOut l = false) ∧ (∀ l, s.markerOut l = false) ∧ s.strapOut = false ∧ s.labelOut = false

/-- While the guard latch is set the packing head is GUARDED, HELD or in FAULT (R158). -/
def HeadGuarded (s : State) : Prop :=
  s.guard.latch = true → s.pack.state = .guarded ∨ s.pack.state = .held ∨ s.pack.state = .fault

/-! ## Lines (R4, R5) -/

/-- A RUNNING line has an empty cause set, and an IDLE line holds at most GUARD (R4, R5). -/
def CausesLaw (s : State) (l : LineId) : Prop :=
  ((s.line l).state = .running → (s.line l).causes = .empty) ∧
    ((s.line l).state = .idle → (s.line l).causes = (s.line l).causes.guardOnly)

/-- A coil is open exactly while a run is open (R4, R127). -/
def CoilLaw (s : State) (l : LineId) : Prop := (s.coilRec l).coil.isSome = s.runOpen l

/-- While a line has an open coil, its position lies between the coil's start and the ceiling (R41). -/
def PositionLaw (s : State) (l : LineId) : Prop :=
  (s.coilRec l).coil.isSome = true → s.coilStart l ≤ (s.pos l).position ∧ (s.pos l).position ≤ ceiling

/-! ## The head table and the working copies (R66, R74) -/

/-- Every head's trim lies between -2,000 and +2,000 (R74). -/
def TrimLaw (s : State) (h : HeadId) : Prop := (s.head h).trim.natAbs ≤ 2000

/-- A CLEAN copy's learned trim equals the start trim its slot holds for the head's strand position (R66). -/
def CleanLaw (s : State) (h : HeadId) : Prop :=
  (s.copy h).state = .clean → ∃ n, (s.copy h).slot = some n ∧ s.startTrim n h = some (s.copy h).learned

/-- A valid copy's learned trim lies within the trim limit of its slot (R66). -/
def LearnedLaw (s : State) (h : HeadId) : Prop :=
  (s.copy h).state ≠ .invalid →
    ∃ n r, (s.copy h).slot = some n ∧ s.recipe n = some r ∧ (s.copy h).learned.natAbs ≤ r.trimLimit

/-- Every recipe of the store keeps its trim limit and its start trims in range (R58). -/
def RecipesLaw (s : State) : Prop :=
  ∀ n r, s.recipe n = some r → r.trimLimit ≤ 2000 ∧ ∀ p q, r.positions.get p = some q → q.startTrim.natAbs ≤ r.trimLimit

/-- The bound and the pending recipe of every line are slots that hold a recipe (R7, R63, R72). -/
def BoundFull (s : State) : Prop :=
  ∀ l n, (s.line l).bound = some n ∨ (s.line l).pendingRecipe = some n → ∃ r, s.recipe n = some r

/-- A valid copy of a head whose line has a run open is of the line's bound recipe (R8, R64, R66). -/
def HeadsLaw (s : State) : Prop :=
  ∀ h u, (s.head h).settings = some u → s.runOpen u.line = true → (s.copy h).state ≠ .invalid →
    (s.copy h).slot = (s.line u.line).bound

/-- The laws of the recipe store, the working copies and the trims together (R58, R66, R74). -/
structure StoreLaws (s : State) : Prop where
  recipes : RecipesLaw s
  boundFull : BoundFull s
  heads : HeadsLaw s
  trims : ∀ h, TrimLaw s h
  clean : ∀ h, CleanLaw s h
  learned : ∀ h, LearnedLaw s h

/-! ## Lists and queues (R118 to R120, R147, R159, R163, R166, R171) -/

/-- A list of spans in order: start ascending, then arrival (R118). -/
def spansInOrder : List SpanEntry → Prop
  | [] => True
  | [_] => True
  | e :: f :: rest => (e.start < f.start ∨ (e.start = f.start ∧ e.arrival ≤ f.arrival)) ∧ spansInOrder (f :: rest)

/-- A line's span list holds at most 48 spans and its splice list at most 16 coordinates (R114). -/
def SpanLaw (s : State) (l : LineId) : Prop := (s.spanRec l).spans.length ≤ 48 ∧ (s.spanRec l).splices.length ≤ 16

/-- A line's span list is ordered, and no closed span ends below its start (R118). -/
def SpanOrderLaw (s : State) (l : LineId) : Prop :=
  spansInOrder (s.spanRec l).spans ∧
    ∀ e ∈ (s.spanRec l).spans, e.isOpen = false → ∃ x, e.stop = some x ∧ e.start ≤ x

/-- A lane queue holds at most 3 records (R147). -/
def LaneLaw (s : State) (l : LineId) : Prop := (s.lane l).queue.length ≤ 3

/-- The completed coil list's records plus its reserved slot number at most 16 (R159). -/
def CompletedLaw (s : State) : Prop := s.pack.reserved ≤ 1 ∧ s.completed.length + s.pack.reserved ≤ 16

/-- The packing head is attached to no lane while it is HELD, GUARDED, FAULT or FREE (R148). -/
def AttachedLaw (s : State) : Prop :=
  s.pack.state = .held ∨ s.pack.state = .guarded ∨ s.pack.state = .fault ∨ s.pack.state = .free →
    s.pack.attached = none

/-- A service attached or in abeyance has its place in the completed coil list reserved, and one is in abeyance only while
the head is GUARDED (R150, R153, R158). -/
def ServiceLaw (s : State) : Prop :=
  (s.pack.attached ≠ none ∨ s.pack.abeyance ≠ none → s.pack.reserved = 1) ∧
    (s.pack.abeyance ≠ none → s.pack.state = .guarded)

/-- The laws of the packing station together (R148, R159). -/
structure StationLaws (s : State) : Prop where
  completed : CompletedLaw s
  attached : AttachedLaw s
  service : ServiceLaw s

/-- A queue of notices in order: level descending (R171). -/
def noticesInOrder : List Notice → Prop
  | [] => True
  | [_] => True
  | m :: n :: rest => n.level ≤ m.level ∧ noticesInOrder (n :: rest)

/-- The notice queue holds at most 32 notices, highest level first (R171). -/
def NoticeLaw (s : State) : Prop := s.link.notices.length ≤ 32 ∧ noticesInOrder s.link.notices

/-- The request buffer holds at most 2 requests, and a place for every reply queued or being sent (R163, R166). -/
def BufferLaw (s : State) : Prop :=
  s.link.buffer.length ≤ 2 ∧
    s.link.replies.length + (match s.link.sending with
      | some f => if f.kind = 0xF0#8 then 0 else 1
      | none => 0) ≤ s.link.buffer.length

/-- No line is its own leader (R3). -/
def NoOwnLeader (s : State) : Prop := ∀ l, (s.line l).cfg.leader ≠ some l

/-! ## What a step leaves alone -/

/-- The ML differs at most in the notices it has been offered (R171). -/
def SameButNotices (k k' : Link) : Prop := k' = { k with notices := k'.notices, lost := k'.lost }

/-- The kinds of the requests (R172). -/
def requestKinds : List Nat :=
  [0x01, 0x02, 0x03, 0x04, 0x05, 0x06, 0x07, 0x08, 0x09, 0x0A, 0x10, 0x11, 0x12, 0x13, 0x14, 0x20, 0x21, 0x22, 0x23, 0x24,
    0x25, 0x26, 0x27, 0x28, 0x29, 0x2A, 0x2B, 0x2C, 0x2F, 0x30, 0x31, 0x32, 0x33, 0x34, 0x35, 0x36, 0x37, 0x38, 0x39, 0x3A,
    0x3B]

/-- No action of the part moves the time, the guard, the trim outputs' period or the queue of commands. -/
def SameSurroundings (s t : State) : Prop :=
  t.now = s.now ∧ t.epoch = s.epoch ∧ t.guard = s.guard ∧ t.drivenDuty = s.drivenDuty ∧ t.pending = s.pending

/-- A record of a lane queue less what the packing station has counted in it (R140, R150). -/
def unserved (r : CoilRecord) : CoilRecord := { r with attempts := 0, bandsDone := 0 }

/-! ## Events on a channel, as the manual's tables give them -/

/-- A change of levels that is accepted, and whose 2 microseconds of holding have passed (R22). -/
def Accepted (s : State) (w : ChannelChange) : Prop := 2 ≤ w.held ∧ w.date + 2 ≤ s.now

/-- A consumer as CHANNEL SET names it (R33). -/
def asSent : Consumer → ConsumerArg
  | .line l => .line (LineId.code l)
  | .head h => .head h.val

/-- A channel that is counted in quadrature (R24). -/
def quadrature (c : Channel) : Prop := c.role = .haul ∨ c.role = .wheel ∨ c.role = .flyer

/-- The levels of a channel's phases after a change of one of them. -/
def levelsAfter (c : Channel) : Phase → Bool × Bool
  | .a => (!c.refA, c.refB)
  | .b => (c.refA, !c.refB)

/-- The forward cycle of the phase pair: 00, 10, 11, 01, 00 (R24). -/
def alongCycle : Bool × Bool → Bool × Bool → Bool
  | (false, false), (true, false) => true
  | (true, false), (true, true) => true
  | (true, true), (false, true) => true
  | (false, true), (false, false) => true
  | _, _ => false

/-- Whether a one-phase change of a channel counts +1: forward, or backward with invert set (R24). -/
def countsUp (c : Channel) (p : Phase) : Bool := alongCycle (c.refA, c.refB) (levelsAfter c p) != c.invert

/-- A rising change of phase A as wired of a HAUL or FLYER channel (R27). -/
def qualifies (c : Channel) (levelA : Bool) : Prop := (c.role = .haul ∨ c.role = .flyer) ∧ c.refA = false ∧ levelA = true

/-- The period measured by a qualifying edge of a date: absent before the first edge, else the timer's microseconds, at
least 1 and at most 10,000,000; the last period stands where there was no edge before (R27, R28). -/
def periodAt (c : Channel) (date : Nat) : Option Nat :=
  match c.timerFrom with
  | some f => some (if date - f < 1 then 1 else if 10000000 < date - f then 10000000 else date - f)
  | none => c.lastPeriod

/-- What each event that can fall on a count of the authority channel does (R38, R54, R84, R90, R130). -/
def countTest (l : LineId) (s : State) : CountEvent → State
  | .runLimit => s.offerCause l .runLimit
  | .slip => s.testSlip l
  | .mark => s.testMark l
  | .window h => s.testWindow l h
  | .stall h => s.testStall l h
  | .cut => s.testCut l

/-- `n` is the number of heads of which `P` holds. -/
def CountsHeads (n : Nat) (P : HeadId → Prop) : Prop := ∃ hs : List HeadId, hs.Nodup ∧ (∀ h, h ∈ hs ↔ P h) ∧ n = hs.length

/-- The head is assigned to the line (R75). -/
def AssignedTo (s : State) (h : HeadId) (l : LineId) : Prop := ∃ u, (s.head h).settings = some u ∧ u.line = l

/-- A cut of a line is to be placed, or one placed is due (R130, R132). -/
def CutFalls (s : State) (l : LineId) : Prop :=
  (∃ p, (s.coilRec l).stage = .placed p ∧ p.target ≤ (s.pos l).position) ∨
    ((s.coilRec l).stage = .none ∧ (∀ x, (s.line l).cfg.leader = some x → (s.line x).state = .idle) ∧
      ∃ c r, (s.coilRec l).coil = some c ∧ s.recipe c.slot = some r ∧
        c.start + r.targetLength * 1000000 ≤ (s.pos l).position)

/-- The gate counts of a recipe on a shaft of `n` counts per revolution: open and close (R97). -/
def gateBounds (k : KnotSpec) (n : Nat) : Nat × Nat :=
  (k.gateOpen * n / 360,
    if k.gateClose * n / 360 = k.gateOpen * n / 360 then k.gateOpen * n / 360 + 1 else k.gateClose * n / 360)

/-- The gate level of a line is high: in step with the shaft, and the angle between the gate counts (R97). -/
def GateHigh (r : KnotRec) (g : Nat × Nat) : Prop := r.sync = .synced ∧ g.1 ≤ r.angle ∧ r.angle < g.2

/-- The judgment of column number `c + 1` by its board's frame (R105 step 4). -/
def ColumnJudged (frames : List BoardRead) (overrun : Bool) (c : Nat) (m : ColumnMark) : Prop :=
  (overrun = true → m = .unknown) ∧
    (overrun = false → (frames[c / 8]? = none → m = .unknown) ∧
      ∀ b, frames[c / 8]? = some b →
        (b.good = false → m = .unknown) ∧
          (b.good = true → (b.bits.getLsbD (c % 8) = true → m = .tied) ∧ (b.bits.getLsbD (c % 8) = false → m = .missed)))

/-! ## Stop causes (R5) -/

/-- A line record after a cause has been offered to the line (R5). -/
def afterOffer (r : LineRec) (x : StopCause) : LineRec :=
  match r.state with
  | .running => { r with state := .stopRequested, causes := r.causes.add x }
  | .stopRequested => { r with causes := r.causes.add x }
  | .idle => if x = .guard then { r with causes := r.causes.add x } else r

/-- A line that has been asked to stop for a cause: STOP_REQUESTED with the cause in its set (R5). -/
def StoppedFor (r : LineRec) (x : StopCause) : Prop := r.state = .stopRequested ∧ r.causes.has x = true

/-- The conditions of the persistent causes (R6). -/
def CausePresent (s : State) (l : LineId) : StopCause → Prop
  | .guard | .cutHeld => True
  | .host => False
  | .twineBreak => ∃ k, s.knotSpec l = some k ∧ ∃ c, c < k.columnsUsed ∧ k.breakThreshold ≤ ((s.knot l).column c).misses
  | .flyerStall => ∃ h, AssignedTo s h l ∧ (s.head h).stall = true
  | .trimExhausted => ∃ h r, AssignedTo s h l ∧ s.boundRecipe l = some r ∧ (s.head h).limitCount = r.limitWindows
  | .sensor => ∃ ch, s.servedLine ch = some l ∧ (s.channel ch).tally = 32
  | .shaftIndex => (s.line l).kind = .net ∧ (s.knot l).sync = .lost
  | .boardFault => (s.line l).kind = .net ∧ ∃ k b n, (s.line l).cfg.scanLink = some k ∧
      b < (s.line l).cfg.boardCount.getD 0 ∧ (s.scanLink k).parity[b]? = some n ∧ 3 ≤ n
  | .runLimit => (s.pos l).position = 140737488355327

/-! ## What a host may send (R2, R3, R7, R58, R59) -/

/-- A number is present and in a range that includes both ends. -/
def Within (lo hi : Nat) (x : Option Nat) : Prop := ∃ n, x = some n ∧ lo ≤ n ∧ n ≤ hi

/-- The channel, line and link numbers of LINE SET: channels 0 to 31, lines 0 to 3, or absent (R2). -/
def LineSetNumbers (f : LineSetArgs) : Prop :=
  (∀ n, f.haulChannel = some n ∨ f.wheelChannel = some n ∨ f.spliceChannel = some n ∨ f.shaftChannel = some n → n < 32) ∧
    ∀ n, f.leader = some n → n < 4

/-- The range table of R2, less the checks against other lines. -/
def LineSetRanges (f : LineSetArgs) : Prop :=
  f.kind ≤ 1 ∧ 1000 ≤ f.haulPitch ∧ f.haulPitch ≤ 2000000 ∧ f.authority ≤ 1 ∧ (f.authority = 1 → f.wheelChannel ≠ none) ∧
    1000 ≤ f.slipWindow ∧ f.slipWindow ≤ 50000 ∧ 1 ≤ f.slipLimit ∧ f.slipLimit ≤ 200 ∧ 10 ≤ f.markerPulse ∧
    f.markerPulse ≤ 2000 ∧ 50 ≤ f.cutterPulse ∧ f.cutterPulse ≤ 2000 ∧ (f.leader ≠ none → f.pairTolerance ≤ 10000) ∧
    (f.wheelChannel ≠ none → f.wheelChannel ≠ f.haulChannel ∧ Within 1000 2000000 f.wheelPitch) ∧
    (f.spliceChannel ≠ none → f.spliceChannel ≠ f.haulChannel ∧ f.spliceChannel ≠ f.wheelChannel ∧
      Within 0 200000 f.spliceOffset ∧ Within 100 5000 f.spliceSpacing) ∧
    (f.kind = 1 → f.shaftChannel ≠ none ∧ f.shaftChannel ≠ f.haulChannel ∧ f.shaftChannel ≠ f.wheelChannel ∧
      f.shaftChannel ≠ f.spliceChannel ∧ Within 36 8192 f.countsPerRev ∧ Within 0 1 f.scanLink ∧ Within 1 8 f.boardCount ∧
      Within 0 200000 f.knotOffset)

/-- The pairing and scan link checks of R3, for a line whose other fields pass. -/
def LineSetPairing (s : State) (l : LineId) (f : LineSetArgs) : Prop :=
  (f.kind = 1 → ∀ y, y ≠ l → (s.line y).cfg.leader ≠ some l ∧
    ((s.line y).kind = .net → f.scanLink.bind ScanLink.ofCode ≠ (s.line y).cfg.scanLink)) ∧
  ∀ x, f.leader.bind LineId.ofCode = some x →
    f.kind = 0 ∧ x ≠ l ∧ (s.line x).cfg.leader = none ∧ (s.line x).kind = .rope ∧
      (∀ y, y ≠ l → (s.line y).cfg.leader ≠ some x) ∧ ∀ y, y ≠ l → (s.line y).cfg.leader ≠ some l

/-- The conditions under which RUN START of a line opens its run on recipe `r` of slot `n` (R7). -/
structure RunReady (s : State) (l : LineId) (n : Slot) (r : Recipe) : Prop where
  idle : (s.line l).state = .idle
  latchClear : s.guard.latch = false
  slot : (s.line l).pendingRecipe = some n ∨ ((s.line l).pendingRecipe = none ∧ (s.line l).bound = some n)
  full : s.recipe n = some r
  kind : r.kind = (s.line l).kind
  noLeader : ∀ x, (s.line l).cfg.leader = some x → (s.line x).state = .idle
  haul : ∃ c, (s.line l).cfg.haulChannel = some c ∧ (s.channel c).role = .haul ∧ (s.channel c).consumer = some (.line l)
  wheel : ∀ c, (s.line l).cfg.wheelChannel = some c →
    (s.channel c).role = .wheel ∧ (s.channel c).consumer = some (.line l)
  splice : ∀ c, (s.line l).cfg.spliceChannel = some c →
    (s.channel c).role = .splice ∧ (s.channel c).consumer = some (.line l)
  shaft : ∀ c, (s.line l).cfg.shaftChannel = some c →
    (s.channel c).role = .shaft ∧ (s.channel c).consumer = some (.line l)
  heads : (s.line l).kind = .rope → ∃ h t, (s.head h).settings = some t ∧ t.line = l
  targets : ∀ h t, (s.head h).settings = some t → t.line = l → (r.specFor t).isSome = true
  columns : (s.line l).kind = .net → ∀ k, r.knot = some k → k.columnsUsed ≤ 8 * (s.line l).cfg.boardCount.getD 0
  reach : (s.line l).cfg.spliceChannel = none ∨ r.endZone + r.plusTolerance ≤ (s.line l).cfg.spliceOffset.getD 0

/-- The conditions under which a cut asked for by RUN END or CUT NOW is made (R9, R137), with the line's open coil. -/
structure CutReady (s : State) (l : LineId) (c : OpenCoil) (r : Recipe) : Prop where
  runs : (s.line l).state ≠ .idle
  noLeader : ∀ x, (s.line l).cfg.leader = some x → (s.line x).state = .idle
  latchClear : s.guard.latch = false
  room : (s.lane l).queue.length < 3
  cutterIdle : (s.coilRec l).cutterPulse = none
  coil : (s.coilRec l).coil = some c
  recipe : s.recipe c.slot = some r

/-- An entry of a span list is CLOSED with its end at or below a coordinate (R121). -/
def closedBelow (c : Nat) (e : SpanEntry) : Bool := !e.isOpen && e.stop.any fun x => decide (x ≤ c)

/-- The copy that an entry gives to the record of a coil cut at `c`: none from an entry that starts at or above `c`; the whole
of one CLOSED at or below `c`; of any other the part that ends at `c`, with continues set (R121). -/
def copiedAt (c : Nat) (e : SpanEntry) : Option SpanCopy :=
  if c ≤ e.start then none
  else if closedBelow c e then
    some ⟨e.kind, e.source, e.start / 1000000, e.stop.getD c / 1000000, e.worst, e.carried, false⟩
  else some ⟨e.kind, e.source, e.start / 1000000, c / 1000000, e.worst, e.carried, true⟩

/-- What stays of an entry after a cut at `c`: an entry that starts at or above `c` as it is; nothing of one CLOSED at or below
`c`; of any other the part that starts at `c`, carried, its state and worst value kept, a CLOSED end kept and a provisional end
raised to `c` (R121). -/
def staysAt (c : Nat) (e : SpanEntry) : Option SpanEntry :=
  if c ≤ e.start then some e
  else if closedBelow c e then none
  else some { e with start := c, carried := true, stop := if e.isOpen then e.stop.map (max · c) else e.stop }

/-- What a record closed by a cut of a line holds whatever the cut was made for: the open coil `c` under its recipe `r`,
cut at the line's position (R134, R136, R140). -/
structure ClosedFrom (s : State) (l : LineId) (c : OpenCoil) (r : Recipe) (x : CoilRecord) : Prop where
  line : x.line = l
  number : x.number = (s.coilRec l).number
  slot : x.slot = c.slot
  start : x.start = c.start / 1000000
  stop : x.stop = (s.pos l).position / 1000000
  length : x.length = ((s.pos l).position - c.start) / 1000000
  marks : x.marks = c.marks
  suppressed : x.suppressed = c.suppressed
  bandCount : x.bandCount = r.bandCount
  overlength : x.flags.overlength = true ↔
    c.start + (r.targetLength + r.plusTolerance) * 1000000 + (s.line l).cfg.authorityPitch ≤ (s.pos l).position
  splices : x.splices =
    (((s.spanRec l).splices.filter (· < (s.pos l).position)).take 8).map (· / 1000000)
  spans : x.spans = ((s.spanRec l).spans.filterMap (copiedAt (s.pos l).position)).take 12
  lostSplices : x.lostSplices = min 65535
    (((s.spanRec l).splices.countP fun y => decide (y < (s.pos l).position)) - 8 + (s.spanRec l).lostSplices)
  lostSpans : x.lostSpans = min 65535
    (((s.spanRec l).spans.countP fun e => decide (e.start < (s.pos l).position)) - 12 + (s.spanRec l).lostSpans)
  cutTime : x.cutTime = s.stamp
  attempts : x.attempts = 0
  bandsDone : x.bandsDone = 0
  restarts : x.restarts = 0
  packTime : x.packTime = none

/-- A known splice lies less than the end zone from the line's position (R136). -/
def SpliceNear (s : State) (l : LineId) (r : Recipe) : Prop :=
  ∃ x ∈ (s.spanRec l).splices, x < (s.pos l).position + r.endZone * 1000000 ∧
    (s.pos l).position < x + r.endZone * 1000000

/-- The span and splice lists of a line hold nothing below a coordinate, and the tallies are 0 (R121, R122). -/
def TakenAt (r : SpanRec) (p : Nat) : Prop :=
  (∀ e ∈ r.spans, p ≤ e.start) ∧ (∀ x ∈ r.splices, p ≤ x) ∧ r.lostSpans = 0 ∧ r.lostSplices = 0

/-- The lists, tallies and lost keys of a line are empty (R114). -/
def ListsEmpty (r : SpanRec) : Prop :=
  r.spans = [] ∧ r.splices = [] ∧ r.lostSpans = 0 ∧ r.lostSplices = 0 ∧ r.lostKeys = []

/-- The mark target of a coil that starts at a position under a recipe: absent with a mark interval of 0 (R53). -/
def firstMark (start : Nat) (r : Recipe) : Option Nat :=
  if r.markInterval = 0 then none else some (start + r.markInterval * 1000000)

/-- A line without CUT_HELD: it returns to RUNNING if that was its last cause (R6, R133). -/
def withoutCutHeld (r : LineRec) : LineRec :=
  if r.causes.cutHeld = true then
    { r with
      causes := r.causes.drop .cutHeld
      state := if r.state = .stopRequested ∧ r.causes.drop .cutHeld = .empty then .running else r.state }
  else r

/-! ## Recipes applied at a RUN START or a cut (R64, R68 to R70, R83, R111) -/

/-- The DIRTY copy of slot `m` that a head holds is replaced by a load of another slot. `loads` says which slot each head is
loaded from (R69). -/
def Evicts (s : State) (loads : HeadId → Slot → Prop) (h : HeadId) (m : Slot) : Prop :=
  (s.copy h).state = .dirty ∧ (s.copy h).slot = some m ∧ ∃ n, loads h n ∧ n ≠ m

/-- What the eviction write-backs leave in a slot: the learned trims of the copies evicted, each at its head's strand position,
where the highest-numbered head stands, and nothing else changed (R69, R70). -/
def EvictedInto (s t : State) (loads : HeadId → Slot → Prop) (m : Slot) : Prop :=
  (s.recipe m = none → t.recipe m = none) ∧
  ∀ r, s.recipe m = some r → ∃ q, t.recipe m = some q ∧ q = { r with positions := q.positions } ∧
    (∀ p : StrandPos, (q.positions.get p).map (fun x => (x.target, x.hand)) =
      (r.positions.get p).map (fun x => (x.target, x.hand))) ∧
    (∀ h u, Evicts s loads h m → (s.head h).settings = some u → (r.specFor u).isSome = true →
      (∀ g v, h < g → Evicts s loads g m → (s.head g).settings = some v → v.position ≠ u.position) →
      (q.specFor u).map (·.startTrim) = some (s.copy h).learned) ∧
    ∀ p : StrandPos, (∀ h u, Evicts s loads h m → (s.head h).settings = some u → u.position ≠ p) →
      q.positions.get p = r.positions.get p

/-- The write-backs, the re-marking of the slots written, and then the loads: a hit keeps its learned trim, a miss takes the
slot's start trim, and either is limited and becomes the head's trim (R67 to R69). -/
structure Reloaded (s t : State) (loads : HeadId → Slot → Prop) : Prop where
  slots : ∀ m, EvictedInto s t loads m
  loaded : ∀ h n u r q, loads h n → (s.head h).settings = some u → t.recipe n = some r → r.specFor u = some q →
    let base := if (s.copy h).state ≠ .invalid ∧ (s.copy h).slot = some n then (s.copy h).learned else q.startTrim
    (t.head h).trim = clampAbs r.trimLimit base ∧
      t.copy h = ⟨some n, if clampAbs r.trimLimit base = q.startTrim then .clean else .dirty, clampAbs r.trimLimit base⟩
  trims : ∀ h, (∀ n, ¬loads h n) → (t.head h).trim = (s.head h).trim
  remarked : ∀ h m, (∀ n, ¬loads h n) → (s.copy h).state ≠ .invalid → (s.copy h).slot = some m →
    (∃ g, Evicts s loads g m) →
    t.copy h = { s.copy h with state := if t.startTrim m h = some (s.copy h).learned then .clean else .dirty }
  kept : ∀ h, (∀ n, ¬loads h n) → (s.copy h).state = .invalid ∨ (∀ m, (s.copy h).slot = some m → ∀ g, ¬Evicts s loads g m) →
    t.copy h = s.copy h

/-- The slots the heads of the lines of a cut are loaded from: the pending recipes (R64). -/
def PendingLoads (s : State) (ls : List LineId) (h : HeadId) (n : Slot) : Prop :=
  ∃ u, (s.head h).settings = some u ∧ u.line ∈ ls ∧ (s.line u.line).pendingRecipe = some n

/-- Under a recipe applied at a cut of a NET line the columns above its columns used are settled: their open spans closed at
the last row coordinate and their counts 0; the other columns run on (R111). -/
def ColumnsSettled (s t : State) (l : LineId) : Prop :=
  ((s.line l).kind = .rope ∨ (s.line l).pendingRecipe = none → t.knot l = s.knot l) ∧
  ∀ n r k, (s.line l).kind = .net → (s.line l).pendingRecipe = some n → s.recipe n = some r → r.knot = some k →
    t.knot l = { s.knot l with columns := (t.knot l).columns } ∧
    (∀ c, c < 64 → (t.knot l).column c = if k.columnsUsed ≤ c then ⟨0, none⟩ else (s.knot l).column c) ∧
    ∀ c kind start x, c < 64 → k.columnsUsed ≤ c → ((s.knot l).column c).span = some (kind, start) →
      (s.knot l).lastRowCoord = some x →
      (∀ e ∈ (t.spanRec l).spans, e.isOpen = true → e.source = .column (c + 1) → e.kind ≠ .knot ∧ e.kind ≠ .break) ∧
      ∀ e ∈ (s.spanRec l).spans, e.isOpen = true → e.source = .column (c + 1) → e.kind = .knot ∨ e.kind = .break →
        { e with
          start := max e.start (s.pos l).position
          carried := e.carried || decide (e.start < (s.pos l).position)
          stop := some (max (max x start) (max e.start (s.pos l).position))
          isOpen := false } ∈ (t.spanRec l).spans

/-- What a cut that is not a run's last does with the pending recipes of its lines: the write-backs and loads, a limit count
of 0 for the heads loaded and nothing else in the head table, and the columns settled (R64, R69, R83, R111). -/
structure RecipesApplied (s t : State) (ls : List LineId) : Prop where
  reloaded : Reloaded s t (PendingLoads s ls)
  loadedHeads : ∀ h n, PendingLoads s ls h n → t.head h = { s.head h with trim := (t.head h).trim, limitCount := 0 }
  otherHeads : ∀ h, (∀ n, ¬PendingLoads s ls h n) → t.head h = s.head h
  columns : ∀ l ∈ ls, ColumnsSettled s t l
  otherKnots : ∀ y, y ∉ ls → t.knot y = s.knot y

/-! ## Runs ended (R10) -/

/-- The KS's fields of a line at the end of its run: for a NET line the column, MESH and UNSEEN spans absent and the rest kept
(R93); those of a ROPE line are not touched. -/
def SupervisionEnded (s t : State) (l : LineId) : Prop :=
  ((s.line l).kind = .rope → t.knot l = s.knot l) ∧
  ((s.line l).kind = .net →
    t.knot l = { s.knot l with columns := (t.knot l).columns, meshSpan := none, unseenSpan := none } ∧
    ∀ c, (t.knot l).column c = ⟨((s.knot l).column c).misses, none⟩)

/-- The coil number after the one that a line's coil carries: 4,294,967,295 is followed by 1 (R128). -/
def numberAfter (n : Nat) : Nat := if n < 4294967295 then n + 1 else 1

/-- What the end of the runs of some lines leaves of them, of their heads, of the KS and of the scan links: a scan is abandoned
and its gate released, and the parity counts and the chain state stay (R10, R75, R83, R93, R104). -/
structure RunsEnded (s t : State) (ls : List LineId) : Prop where
  lines : ∀ l ∈ ls, t.line l = { s.line l with state := .idle, causes := (s.line l).causes.guardOnly }
  coils : ∀ l ∈ ls, t.coilRec l = ⟨numberAfter (s.coilRec l).number, none, .none, false,
    some (s.now + (s.line l).cfg.cutterPulse * 1000)⟩
  positions : ∀ l ∈ ls, t.pos l = ⟨(s.pos l).position, none, none, (s.pos l).markerPulse⟩
  lists : ∀ l ∈ ls, ListsEmpty (t.spanRec l)
  heads : ∀ h, ∀ l ∈ ls, AssignedTo s h l →
    t.head h = { s.head h with window := none, stall := false, handFault := false, limitCount := 0 }
  otherHeads : ∀ h, (∀ l ∈ ls, ¬AssignedTo s h l) → t.head h = s.head h
  knots : ∀ l ∈ ls, SupervisionEnded s t l
  links : ∀ l ∈ ls, ∀ k, (s.line l).kind = .net → (s.line l).cfg.scanLink = some k →
    t.scanLink k = { s.scanLink k with gate := false, scan := none }
  otherLinks : ∀ k, (∀ l ∈ ls, (s.line l).kind = .rope ∨ (s.line l).cfg.scanLink ≠ some k) → t.scanLink k = s.scanLink k
  otherBlocks : ∀ y, y ∉ ls → t.pos y = s.pos y ∧ t.spanRec y = s.spanRec y ∧ t.knot y = s.knot y
  otherLines : ∀ y, y ∉ ls → (∀ l ∈ ls, s.follower l ≠ some y) ∨ (s.coilRec y).pairedHold = false →
    t.line y = s.line y ∧ t.coilRec y = s.coilRec y
  recipes : t.copies = s.copies ∧ t.slots = s.slots

/-- A hold reason is present for a cut of a line (R132). -/
def HoldReason (s : State) (l : LineId) : Prop :=
  s.guard.latch = true ∨ 3 ≤ (s.lane l).queue.length ∨ (s.coilRec l).cutterPulse ≠ none ∨
    ∃ f, s.follower l = some f ∧ (s.line f).state ≠ .idle ∧
      (3 ≤ (s.lane f).queue.length ∨ (s.coilRec f).cutterPulse ≠ none)

/-- The hold reasons present for a cut of a line, each on its own (R132). -/
structure HoldsPresent (s : State) (l : LineId) (x : HoldSet) : Prop where
  guard : x.guard = true ↔ s.guard.latch = true
  queueFull : x.queueFull = true ↔ 3 ≤ (s.lane l).queue.length
  pulse : x.pulse = true ↔ (s.coilRec l).cutterPulse ≠ none
  followerQueueFull : x.followerQueueFull = true ↔
    ∃ f, s.follower l = some f ∧ (s.line f).state ≠ .idle ∧ 3 ≤ (s.lane f).queue.length
  followerPulse : x.followerPulse = true ↔
    ∃ f, s.follower l = some f ∧ (s.line f).state ≠ .idle ∧ (s.coilRec f).cutterPulse ≠ none

/-- A line's cut is held: its own, or its leader's with which it is held (R127; assumption log 43). -/
def CutIsHeld (s : State) (l : LineId) : Prop := (∃ p, (s.coilRec l).stage = .held p) ∨ (s.coilRec l).pairedHold = true

/-- The notices of a cut that becomes HELD: CUT_HELD with the coil number, target, position and hold reasons, and then the
STOP_REQUESTED of the line and of a running follower that CUT_HELD moves (R5, R132, R143; assumption log 23). -/
def HeldTold (s t : State) (l : LineId) (p : Placement) : Prop :=
  ∃ holds, HoldsPresent s l holds ∧
    let told := (s.notify (some l) (.cutHeld (s.coilRec l).number (p.target / 1000000) ((s.pos l).position / 1000000)
      holds)).offerCause l .cutHeld
    ((∀ f, s.follower l = some f → (s.line f).state = .idle) → t.link = told.link) ∧
      ∀ f, s.follower l = some f → (s.line f).state ≠ .idle → t.link = (told.offerCause f .cutHeld).link

/-- COIL_CUT is sent for the record `x` that a line's cut appends to its lane queue (R143). -/
def cutTold (s : State) (l : LineId) (x : CoilRecord) : State :=
  s.notify (some l) (.coilCut x.number x.start x.stop x.length x.flags x.partner ((s.lane l).queue.length + 1))

/-- RECIPE_APPLIED is sent for a line whose pending recipe a cut applies: the slots before and now, the next coil's number, and
how many copies were written back (R64, R70). -/
def appliedTold (s : State) (l : LineId) (written : Nat) : State :=
  match (s.line l).pendingRecipe with
  | some n => s.notify (some l) (.recipeApplied (s.line l).bound n (numberAfter (s.coilRec l).number) written false)
  | none => s

/-- The number of copies that the pending recipe of a line writes back, at a cut that applies those of the lines of a list. It
is stated where every valid copy is of a full slot, the law of R66 (R64, R69). -/
def WritesBack (s : State) (ls : List LineId) (l : LineId) (written : Nat) : Prop :=
  (∀ h, LearnedLaw s h) → CountsHeads written fun h => AssignedTo s h l ∧ ∃ m, Evicts s (PendingLoads s ls) h m

/-- The records that a cut closes stand at the end of their lane queues, and then a grant is evaluated (R134, R147, R150): one
for the whole cut, also where it closes the records of a pair, which is deduced (assumption log 30). -/
def QueuedAndGranted (s t : State) (added : LineId → List CoilRecord) : Prop :=
  ∃ u : State, t = u.evaluateGrant ∧ u.pack = s.pack ∧
    ∀ y, u.lane y = { s.lane y with queue := (s.lane y).queue ++ added y }

/-- The coil that opens at a cut of a line whose open coil was `c`, under the recipe then bound, with the cutter pulse, the
paired hold left and the new coil's mark target (R53, R128, R134, R135). -/
def NextCoil (s t : State) (l : LineId) (c : OpenCoil) (pairedHold : Bool) : Prop :=
  t.pos l = { s.pos l with markTarget := (t.pos l).markTarget } ∧
    ∃ n, ((t.line l).bound = some n ∨ ((t.line l).bound = none ∧ n = c.slot)) ∧
      t.coilRec l = ⟨numberAfter (s.coilRec l).number, some ⟨n, (s.pos l).position, 0, 0⟩, .none, pairedHold,
        some (s.now + (s.line l).cfg.cutterPulse * 1000)⟩ ∧
      (t.pos l).markTarget = (t.recipe n).bind (firstMark (s.pos l).position)

/-- A line record under its pending recipe, if it has one (R64). -/
def rebound (r : LineRec) : LineRec := { r with bound := r.pendingRecipe.or r.bound, pendingRecipe := none }

/-- A cut of a line alone, not its last, from `s` to `t`: the record `x` closed, at the end of the lane queue and told by
COIL_CUT, the next coil opened at the cut, a pending recipe applied and told before it, CUT_HELD gone from the line and a
follower with the paired hold, and what the cut leaves alone: among it the gate, the scan in progress, the parity counts and the
chain state of both scan links, those of a NET line's own too (R64, R97, R100, R133 to R136, R143). -/
structure CutAlone (s t : State) (l : LineId) (c : OpenCoil) (r : Recipe) (x : CoilRecord) : Prop where
  closed : ClosedFrom s l c r x
  partner : x.partner = none
  notPaired : x.flags.paired = false ∧ x.flags.pairMismatch = false ∧ x.flags.endOfRun = false
  queued : (t.lane l).queue.map unserved = (s.lane l).queue.map unserved ++ [x]
  otherQueues : ∀ y, y ≠ l → (t.lane y).queue.map unserved = (s.lane y).queue.map unserved
  granted : QueuedAndGranted s t fun y => if y = l then [x] else []
  line : t.line l = rebound (withoutCutHeld (s.line l))
  applied : RecipesApplied s t [l]
  told : ∃ written, WritesBack s [l] l written ∧ t.link = (cutTold (appliedTold s l written) l x).link
  follower : ∀ y, y ≠ l → s.follower l = some y → (s.coilRec y).pairedHold = true →
    t.line y = withoutCutHeld (s.line y) ∧ t.coilRec y = { s.coilRec y with pairedHold := false }
  otherLines : ∀ y, y ≠ l → s.follower l ≠ some y ∨ (s.coilRec y).pairedHold = false →
    t.line y = s.line y ∧ t.coilRec y = s.coilRec y
  nextCoil : NextCoil s t l c (s.coilRec l).pairedHold
  taken : TakenAt (t.spanRec l) (s.pos l).position
  otherBlocks : ∀ y, y ≠ l → t.pos y = s.pos y ∧ t.spanRec y = s.spanRec y ∧ (t.coilRec y).coil = (s.coilRec y).coil
  links : ∀ k, t.scanLink k = s.scanLink k
  channels : t.channels = s.channels
  completed : t.completed = s.completed
  surroundings : SameSurroundings s t

/-- The records `x` and `y` that a cut of a line and its running follower closes, and where they stand: each the other's partner,
each at its own line's position, with both cutters asserted, and a grant evaluated (R134, R136, R138, R139, R147, R150). That
the pair is given one grant, after both records are appended, is deduced (assumption log 30). -/
structure PairClosed (s t : State) (l f : LineId) (c d : OpenCoil) (r q : Recipe) (x y : CoilRecord) : Prop where
  closed : ClosedFrom s l c r x ∧ ClosedFrom s f d q y
  partners : x.partner = some (f, y.number) ∧ y.partner = some (l, x.number)
  paired : x.flags.paired = true ∧ y.flags.paired = true
  follower : y.flags.short = false ∧ y.flags.cutShifted = false ∧ (y.flags.endSplice = true ↔ SpliceNear s f q)
  mismatch : x.flags.pairMismatch = y.flags.pairMismatch ∧ (x.flags.pairMismatch = true ↔
    (s.pos l).position - c.start + (s.line f).cfg.pairTolerance * 1000000 < (s.pos f).position - d.start ∨
      (s.pos f).position - d.start + (s.line f).cfg.pairTolerance * 1000000 < (s.pos l).position - c.start)
  queued : (t.lane l).queue.map unserved = (s.lane l).queue.map unserved ++ [x] ∧
    (t.lane f).queue.map unserved = (s.lane f).queue.map unserved ++ [y]
  otherQueues : ∀ z, z ≠ l → z ≠ f → (t.lane z).queue.map unserved = (s.lane z).queue.map unserved
  granted : QueuedAndGranted s t fun z => if z = l then [x] else if z = f then [y] else []
  cutters : t.cutterOut l = true ∧ t.cutterOut f = true
  positions : (t.pos l).position = (s.pos l).position ∧ (t.pos f).position = (s.pos f).position
  channels : t.channels = s.channels
  completed : t.completed = s.completed
  surroundings : SameSurroundings s t

/-- A cut of a line and its running follower, not their last, from `s` to `t`: both records, both next coils at their own
positions, both pending recipes applied, the scan links as they were, and the notices of the leader before those of the follower,
RECIPE_APPLIED before COIL_CUT (R64, R100, R134, R138, R143; deduced, assumption logs 30 and 34). -/
structure CutPair (s t : State) (l f : LineId) (c d : OpenCoil) (r q : Recipe) (x y : CoilRecord) : Prop where
  records : PairClosed s t l f c d r q x y
  notLast : x.flags.endOfRun = false ∧ y.flags.endOfRun = false
  line : t.line l = rebound (withoutCutHeld (s.line l))
  followerLine : t.line f = rebound (if (s.coilRec f).pairedHold = true then withoutCutHeld (s.line f) else s.line f)
  otherLines : ∀ z, z ≠ l → z ≠ f → t.line z = s.line z ∧ t.pos z = s.pos z ∧ t.spanRec z = s.spanRec z ∧
    t.coilRec z = s.coilRec z
  nextCoils : NextCoil s t l c (s.coilRec l).pairedHold ∧ NextCoil s t f d false
  taken : TakenAt (t.spanRec l) (s.pos l).position ∧ TakenAt (t.spanRec f) (s.pos f).position
  applied : RecipesApplied s t [l, f]
  links : ∀ k, t.scanLink k = s.scanLink k
  told : ∃ m n, WritesBack s [l, f] l m ∧ WritesBack s [l, f] f n ∧
    t.link = (cutTold (cutTold (appliedTold (appliedTold s l m) f n) l x) f y).link

/-- A cut of a line made at a placement, with the flags of that placement, and with its follower's if that has a run open
(R134, R136, R138; deduced for the pair, assumption logs 30 and 34). -/
def CutAtPlacement (s t : State) (l : LineId) (p : Placement) (c : OpenCoil) (r : Recipe) : Prop :=
  ((∀ f, s.follower l = some f → (s.line f).state = .idle) → ∃ x, CutAlone s t l c r x ∧ x.flags.short = false ∧
    x.flags.cutShifted = p.shifted ∧ (x.flags.endSplice = true ↔ p.endSplice = true ∨ SpliceNear s l r)) ∧
  ∀ f d q, s.follower l = some f → f ≠ l → (s.line f).state ≠ .idle → (s.coilRec f).coil = some d →
    s.recipe d.slot = some q → ∃ x y, CutPair s t l f c d r q x y ∧ x.flags.short = false ∧
      x.flags.cutShifted = p.shifted ∧ (x.flags.endSplice = true ↔ p.endSplice = true ∨ SpliceNear s l r)

/-- A held cut of a line below its target is PLACED again, and CUT_HELD leaves the line, and the follower with its paired
hold (R133). -/
def ReturnedToPlaced (s t : State) (l : LineId) (p : Placement) : Prop :=
  t = { s with coils := t.coils, lines := t.lines } ∧ t.line l = withoutCutHeld (s.line l) ∧
    (t.coilRec l).stage = .placed p ∧ (t.coilRec l).coil = (s.coilRec l).coil ∧
    (t.coilRec l).number = (s.coilRec l).number ∧ (t.coilRec l).cutterPulse = (s.coilRec l).cutterPulse ∧
    (∀ y, y ≠ l → s.follower l = some y → (s.coilRec y).pairedHold = true →
      t.line y = withoutCutHeld (s.line y) ∧ t.coilRec y = { s.coilRec y with pairedHold := false }) ∧
    ∀ y, y ≠ l → s.follower l ≠ some y ∨ (s.coilRec y).pairedHold = false →
      t.line y = s.line y ∧ t.coilRec y = s.coilRec y

/-- A line's held cut, if it has one, is tested again (R133): with a hold reason left nothing changes; at or above its target
the cut is performed, below it the cut is PLACED again. What a pair cut here has beyond the spec's words is deduced (CutPair;
assumption logs 30 and 34). -/
def Retested (s t : State) (l : LineId) : Prop :=
  ((∀ p, (s.coilRec l).stage ≠ .held p) → t = s) ∧
  ∀ p, (s.coilRec l).stage = .held p →
    (HoldReason s l → t = s) ∧
    (¬HoldReason s l → (s.pos l).position < p.target → ReturnedToPlaced s t l p) ∧
    (¬HoldReason s l → p.target ≤ (s.pos l).position → ∀ c r, (s.line l).state ≠ .idle →
      (s.coilRec l).coil = some c → s.recipe c.slot = some r → CutAtPlacement s t l p c r)

/-- The held cuts that an event of a line can release are tested again: its own, and its leader's (R133). -/
def RetestedAround (s t : State) (l : LineId) : Prop :=
  ((s.line l).cfg.leader = none → Retested s t l) ∧
    ∀ x, (s.line l).cfg.leader = some x → ∃ u, Retested s u l ∧ Retested u t x

/-- The held cuts of the lines of a list are tested again, one after another. -/
def RetestedAll : List LineId → State → State → Prop
  | [], s, t => t = s
  | l :: ls, s, t => ∃ u, Retested s u l ∧ RetestedAll ls u t

/-- A lane requests the head (R147). -/
structure Requests (s : State) (l : LineId) : Prop where
  enabled : (s.lane l).enable = .enabled
  record : (s.lane l).queue ≠ []
  ready : (s.lane l).coilReady = true
  rearmed : (s.lane l).rearmed = true
  slot : s.completed.length + s.pack.reserved < 16
  notAttached : s.pack.attached ≠ some l
  notInAbeyance : ∀ k, s.pack.abeyance ≠ some (l, k)

/-- The code of the state that a lane reports: DISABLED, FAULTED, SERVED, WAITING, BLOCKED_LIST or IDLE, the first that applies
(R144, R173). -/
def LaneReports (s : State) (l : LineId) (code : Nat) : Prop :=
  ((s.lane l).enable = .disabled → code = 0) ∧ ((s.lane l).enable = .faulted → code = 1) ∧
    ((s.lane l).enable = .enabled →
      let served := s.pack.attached = some l ∨ ∃ k, s.pack.abeyance = some (l, k)
      let ready := (s.lane l).queue ≠ [] ∧ (s.lane l).coilReady = true ∧ (s.lane l).rearmed = true
      (served → code = 2) ∧ (¬served → ready → s.completed.length + s.pack.reserved < 16 → code = 3) ∧
        (¬served → ready → 16 ≤ s.completed.length + s.pack.reserved → code = 4) ∧ (¬served → ¬ready → code = 5))

/-- Restarts in band at the start of a band (R152): 0, but for a band that the guard event broke off (R156, R158). -/
def carriedRestarts (p : PackRec) : Nat := if p.bandRepeats then p.restarts else 0

/-- What is left to do at the end of a service, once its record `r` stands in the completed coil list: COIL_PACKED is sent, the
lane is rearmed, and disabled if that is pending, and the head is SUSPENDED, with its notice, if that is pending, else FREE with
a grant evaluated (R153, R155, R160). -/
def ServiceFinished (s t : State) (l : LineId) (r : CoilRecord) : Prop :=
  ∃ u, t = (if s.pack.suspendPending then u else u.evaluateGrant) ∧
    u.lane l = { s.lane l with
      rearmed := !(s.lane l).coilReady
      enable := if (s.lane l).disablePending then .disabled else (s.lane l).enable
      disablePending := false } ∧
    (∀ x, x ≠ l → u.lane x = s.lane x) ∧
    u.pack = { s.pack with
      state := if s.pack.suspendPending then .suspended else .free
      attached := none, step := none, arrivalStep := none, stepTimer := none
      suspendPending := false } ∧
    let told := s.notify (some l)
      (.coilPacked r.number r.attempts r.bandsDone r.restarts (r.packTime.getD 0) s.completed.length)
    u.link = (if s.pack.suspendPending then told.notify none (.suspended .host none none) else told).link ∧
    u = { s with lanes := u.lanes, pack := u.pack, link := u.link }

/-- The front record of a lane queue, packed as `r`, has moved from before `rest` to the completed coil list, and its place
there is no longer reserved (R153). -/
def RecordPacked (s m : State) (l : LineId) (r : CoilRecord) (rest : List CoilRecord) : Prop :=
  m.completed = s.completed ++ [r] ∧ m.lane l = { s.lane l with queue := rest } ∧ (∀ x, x ≠ l → m.lane x = s.lane x) ∧
    m.pack = { s.pack with reserved := 0, stepTimer := none } ∧
    m = { s with completed := m.completed, lanes := m.lanes, pack := m.pack, choices := m.choices }

/-- The end of a service with the packed record `r`: what is left to do goes before or after the test of the held cuts that the
room in the queue can release, and is all there is where none is held (R133, R153; assumption log 18). -/
def ServiceEnds (s t : State) (l : LineId) (r : CoilRecord) (rest : List CoilRecord) : Prop :=
  (∃ m v : State, RecordPacked s m l r rest ∧
    (ServiceFinished m v l r ∧ RetestedAround v t l ∨ RetestedAround m v l ∧ ServiceFinished v t l r)) ∧
  ((∀ p, (s.coilRec l).stage ≠ .held p) → (∀ x, (s.line l).cfg.leader = some x → ∀ p, (s.coilRec x).stage ≠ .held p) →
    ∃ m : State, RecordPacked s m l r rest ∧ m.choices = s.choices ∧ ServiceFinished m t l r)

/-- The head record in FAULT (R154). -/
def afterFault (p : PackRec) : PackRec :=
  { p with
    state := .fault, position := none, attached := none, step := none, arrivalStep := none, restarts := 0
    suspendPending := false, reserved := 0, stepTimer := none }

/-- Whether a head holds a valid copy of a slot, and a DIRTY one (R66). -/
def Holder (s : State) (n : Slot) (h : HeadId) : Prop := (s.copy h).state ≠ .invalid ∧ (s.copy h).slot = some n
def DirtyHolder (s : State) (n : Slot) (h : HeadId) : Prop := (s.copy h).state = .dirty ∧ (s.copy h).slot = some n

/-- A slot is neither the bound nor the pending recipe of a line with a run open (R59, R72). -/
def SlotFree (s : State) (n : Slot) : Prop :=
  ∀ l, (s.line l).state ≠ .idle → (s.line l).bound ≠ some n ∧ (s.line l).pendingRecipe ≠ some n

/-- A net flyer count shows the hand opposite to the recipe's (R85). -/
def OppositeHand (z : ZSense) (hand : Hand) (n : Int) : Prop :=
  (0 < n ∧ ((z = .plus ∧ hand = .s) ∨ (z = .minus ∧ hand = .z))) ∨
    (n < 0 ∧ ((z = .plus ∧ hand = .z) ∨ (z = .minus ∧ hand = .s)))

/-- A strand position of RECIPE STORE that has a target is in range (R58). -/
def PositionInRange (limit : Nat) (a : PositionArgs) : Prop :=
  a.target ≠ none → Within 1 65535 a.target ∧ Within 0 1 a.hand ∧
    ∃ x, a.startTrim = some x ∧ -2000 ≤ x ∧ x ≤ 2000 ∧ x.natAbs ≤ limit

/-- The fields of RECIPE STORE are in range, alone and against each other (R58, R59). -/
def RecipeInRange (f : RecipeArgs) : Prop :=
  (1 ≤ f.name.length ∧ f.name.length ≤ 16 ∧ ∀ c ∈ f.name, 0x20 ≤ c.toNat ∧ c.toNat ≤ 0x7E) ∧ f.kind ≤ 1 ∧
    (∀ p : StrandPos, PositionInRange f.trimLimit (f.positions.get p)) ∧ f.trimLimit ≤ 2000 ∧ f.gain ≤ 256 ∧ 1 ≤ f.slew ∧
    f.slew ≤ 500 ∧ 5 ≤ f.tolerance ∧ f.tolerance ≤ 200 ∧ 100 ≤ f.window ∧ f.window ≤ 10000 ∧ 50 ≤ f.stallLength ∧
    f.stallLength ≤ 5000 ∧ 1 ≤ f.limitWindows ∧ f.limitWindows ≤ 20 ∧ 10000 ≤ f.targetLength ∧ f.targetLength ≤ 2000000 ∧
    f.plusTolerance ≤ 50000 ∧ f.endZone ≤ 20000 ∧
    (f.markInterval = 0 ∨ (1000 ≤ f.markInterval ∧ f.markInterval ≤ 100000)) ∧ 2 ≤ f.bandCount ∧ f.bandCount ≤ 8 ∧
    (f.kind = 0 → ∃ p : StrandPos, (f.positions.get p).target ≠ none) ∧
    (f.kind = 1 → Within 1 64 f.columnsUsed ∧ Within 0 359 f.gateOpen ∧ Within 0 359 f.gateClose ∧
      Within 2 8 f.breakThreshold ∧ Within 1 2000 f.meshPitch ∧ Within 1 200 f.meshTolerance ∧ Within 0 1 f.stopOnBreak ∧
      f.gateOpen.getD 0 < f.gateClose.getD 0)

end Sys2Proof.Safety
end

