-- ==== Sys2Proof/WellFormed.lean ====
section
/-! DEFINITION. Which commands can be sent: every field of a request fits the width R173 gives it and is not the code that
stands for an absent value, and a length byte that breaks a frame is one above 240. A field out of its rule's range is
well-formed: refusing it is the part's business (R164). -/

namespace Sys2Proof

/-- A whole number of 1, 2 and 4 bytes (R173). -/
def fits8 (n : Nat) : Bool := decide (n < 256)
def fits16 (n : Nat) : Bool := decide (n < 65536)
def fits32 (n : Nat) : Bool := decide (n < 4294967296)

/-- A number that may be absent: the highest code of the width stands for absent (R173). -/
def optFits8 : Option Nat → Bool
  | some n => decide (n < 255)
  | none => true
def optFits16 : Option Nat → Bool
  | some n => decide (n < 65535)
  | none => true
def optFits32 : Option Nat → Bool
  | some n => decide (n < 4294967295)
  | none => true

/-- A signed number of 2 bytes that may be absent: the lowest code stands for absent (R173). -/
def optFitsI16 : Option Int → Bool
  | some x => decide (-32768 < x ∧ x < 32768)
  | none => true

/-- A name: at most 16 bytes, not ending in the 0x00 it is filled up with (R173). -/
def nameFits (name : List Byte) : Bool := decide (name.length ≤ 16) && name.getLast? != some 0

/-- A consumer as its one byte can name it: a head for role FLYER, else a line 0 to 3 or a head above that (R33). -/
def consumerFits (role : Nat) : ConsumerArg → Bool
  | .head n => fits8 n && (role == 3 || decide (4 ≤ n))
  | .line n => role != 3 && decide (n < 4)

def ChannelSetArgs.wellFormed (f : ChannelSetArgs) : Bool :=
  fits8 f.channel && fits8 f.role && consumerFits f.role f.consumer && fits8 f.invert

def HeadSetArgs.wellFormed (f : HeadSetArgs) : Bool :=
  fits8 f.head && fits8 f.line && fits8 f.position && fits8 f.channel && fits16 f.countsPerTurn && fits32 f.offset &&
    fits8 f.zSense

def LineSetArgs.wellFormed (f : LineSetArgs) : Bool :=
  fits8 f.line && fits8 f.kind && optFits8 f.haulChannel && fits32 f.haulPitch && optFits8 f.wheelChannel &&
    optFits32 f.wheelPitch && fits8 f.authority && fits32 f.slipWindow && fits8 f.slipLimit && optFits8 f.spliceChannel &&
    optFits32 f.spliceOffset && optFits32 f.spliceSpacing && optFits8 f.shaftChannel && optFits16 f.countsPerRev &&
    optFits8 f.scanLink && optFits8 f.boardCount && optFits32 f.knotOffset && fits16 f.markerPulse &&
    fits16 f.cutterPulse && optFits8 f.leader && fits32 f.pairTolerance

def PositionArgs.wellFormed (a : PositionArgs) : Bool := optFits32 a.target && optFits8 a.hand && optFitsI16 a.startTrim

def RecipeArgs.wellFormed (f : RecipeArgs) : Bool :=
  nameFits f.name && fits8 f.kind && f.positions.toList.all PositionArgs.wellFormed && fits16 f.trimLimit &&
    fits16 f.gain && fits16 f.slew && fits8 f.tolerance && fits32 f.window && fits32 f.stallLength &&
    fits8 f.limitWindows && optFits8 f.columnsUsed && optFits16 f.gateOpen && optFits16 f.gateClose &&
    optFits8 f.breakThreshold && optFits32 f.meshPitch && optFits8 f.meshTolerance && optFits8 f.stopOnBreak &&
    fits32 f.targetLength && fits32 f.plusTolerance && fits32 f.endZone && fits32 f.markInterval && fits8 f.bandCount

/-- A command that can be sent. -/
def Instr.wellFormed : Instr → Bool
  | .powerOn _ => true
  | .channelSet _ f => f.wellFormed
  | .channelFree _ channel => fits8 channel
  | .channelRead _ channel => fits8 channel
  | .headSet _ f => f.wellFormed
  | .headFree _ head => fits8 head
  | .lineSet _ f => f.wellFormed
  | .laneSet _ lane labelRequired travelLimit => fits8 lane && fits8 labelRequired && fits8 travelLimit
  | .packSet _ band label => fits8 band && fits8 label
  | .packMode _ mode => fits8 mode
  | .noticeLevel _ cls level => fits8 cls && fits8 level
  | .recipeStore _ slot f => fits8 slot && f.wellFormed
  | .recipeRead _ slot => fits8 slot
  | .recipeFlush _ slot => fits8 slot
  | .recipePurge _ slot => fits8 slot
  | .lineBind _ line slot => fits8 line && fits8 slot
  | .runStart _ line => fits8 line
  | .runEnd _ line => fits8 line
  | .lineStop _ line => fits8 line
  | .lineResume _ line => fits8 line
  | .lineReset _ line => fits8 line
  | .cutNow _ line => fits8 line
  | .laneEnable _ lane => fits8 lane
  | .laneDisable _ lane => fits8 lane
  | .packSuspend _ => true
  | .packResume _ => true
  | .headClear _ => true
  | .guardArm _ => true
  | .guardClear _ => true
  | .resetAll _ => true
  | .resetTakesEffect => true
  | .status _ => true
  | .lineStatus _ line => fits8 line
  | .headStatus _ head => fits8 head
  | .snapshot _ => true
  | .spansRead _ line first => fits8 line && fits8 first
  | .splicesRead _ line => fits8 line
  | .coilPeek _ => true
  | .coilTake _ line number => fits8 line && fits32 number
  | .portFlags _ => true
  | .knotStatus _ line column => fits8 line && fits8 column
  | .cutStatus _ line => fits8 line
  | .packStatus _ => true
  | .frameComplete _ => true
  | .frameLengthBroken length => decide (240 < length.toNat)
  | .stopBitError => true
  | .interByteGap => true
  | .frameSent => true
  | .quadratureCount _ _ => true
  | .illegalTransition _ => true
  | .periodSaturation _ => true
  | .shaftEdge _ _ _ => true
  | .spliceEdge _ _ _ => true
  | .markerPulseEnd _ => true
  | .boardFrame _ _ => true
  | .cutterPulseEnd _ => true
  | .guardEvent _ => true
  | .coilReadyActive _ _ => true
  | .coilReadyInactive _ _ => true
  | .headAtLane _ => true
  | .travelTimeout => true
  | .bandDone _ => true
  | .clampSlip _ => true
  | .bandTimeout => true
  | .labelDone _ => true
  | .labelTimeout => true
  | .holdReqActive _ => true
  | .holdReqInactive _ => true
  | .byteReceived _ => true
  | .guardInputChange _ _ => true
  | .phaseLevelChange _ _ _ => true

end Sys2Proof
end

