-- ==== Sys2Proof/Certificates/Slice0/Obligations.lean ====
section
/-! DEFINITION. The statements for the provers. A request statement gives the state `t` in which the owning block has done
its work; `t.acceptedAs kind tag payload` is `t` with the acceptance queued, and taken by an idle transmitter (assumption log 16). -/

open Sys2Proof Sys2Proof.Machine Sys2Proof.Safety

/-! ## Steps and resets of the whole part -/

/-- A step runs the command at the front of the queue with the queue's rest. -/
def Obligations.StepRunsFrontCommand : Prop :=
  ∀ (c : Instr) (rest : List Instr) (s : State), s.pending = c :: rest → step s = exec c { s with pending := rest }

/-- With no command waiting, a step is one microsecond of the time base (the model's choice, assumption log 2); at the
start of a 1 ms period every trim output takes its head's duty (R81). That a period starts at a whole millisecond of the time
base is the model's choice too (assumption log 5). -/
def Obligations.IdleStepPassesOneMicrosecond : Prop :=
  ∀ s : State, s.pending = [] →
    step s = .next { s with
      now := s.now + 1
      drivenDuty := if s.now / 1000 < (s.now + 1) / 1000 then s.heads.map HeadRec.duty else s.drivenDuty }

/-- POWER_ON gives every block its power-on values and every output its level of R174, and reads the inputs (R175). -/
def Obligations.PowerOnEstablishesPowerOnValues : Prop :=
  ∀ (pins : Pins) (s : State), ∃ t, exec (.powerOn pins) s = .next t ∧
    (∀ l, t.line l = LineRec.powerOn ∧ t.pos l = ⟨0, none, none, none⟩ ∧ t.knot l = KnotRec.powerOn ∧
      t.spanRec l = ⟨[], [], 0, 0, [], 0, 0⟩ ∧ t.coilRec l = ⟨1, none, .none, false, none⟩ ∧
      t.lane l = LaneRec.powerOn (pins.coilReady.get l)) ∧
    (∀ l, t.lineStopOut l = false ∧ t.markerOut l = false ∧ t.cutterOut l = false ∧ t.laneSelectOut l = false) ∧
    (∀ k, t.gateOut k = false ∧ t.clockOut k = false) ∧
    (∀ h, t.drivenDuty.get h = 5000 ∧ (t.head h).duty = 5000 ∧ t.head h = HeadRec.powerOn ∧
      t.copy h = ⟨none, .invalid, 0⟩) ∧
    (∀ n, t.recipe n = none) ∧
    (∀ ch : ChannelId, t.channel ch = Channel.powerOn (pins.phaseA.getLsbD ch.val) (pins.phaseB.getLsbD ch.val)) ∧
    (∀ k, t.scanLink k = LinkRec.powerOn) ∧ t.pack = PackRec.powerOn pins.holdReq ∧
    t.travelOut = false ∧ t.strapOut = false ∧ t.labelOut = false ∧ t.holdGrantOut = pins.holdReq ∧ t.txIdle = true ∧
    t.guard = ⟨pins.guardActive, false, false⟩ ∧ t.link = Link.powerOn ∧ t.completed = [] ∧ t.stamp = 0 ∧
    t.pending = s.pending

/-- When the last byte of the acceptance of RESET ALL has been sent, every output goes to its level of R174, HOLD GRANT
as HOLD REQ stands, and the trim outputs take duty 5,000 from their next period (R176). That a period starts at a whole
millisecond of the time base is the model's choice (assumption log 5). -/
def Obligations.ResetAllReleasesOutputs : Prop :=
  ∀ s : State, s.sendingReset = true → ∃ t, exec .resetTakesEffect s = .next t ∧
    (∀ l, t.lineStopOut l = false ∧ t.markerOut l = false ∧ t.cutterOut l = false ∧ t.laneSelectOut l = false) ∧
    (∀ k, t.gateOut k = false ∧ (t.scanLink k).scan = none ∧ t.clockOut k = false) ∧
    t.travelOut = false ∧ t.strapOut = false ∧ t.labelOut = false ∧ t.holdGrantOut = s.pack.holdReq ∧ t.txIdle = true ∧
    t.drivenDuty = s.drivenDuty ∧
    (∀ (at' : Nat) (h : HeadId), s.now / 1000 < at' / 1000 → (t.advanceTo at').drivenDuty.get h = 5000)

/-- After RESET ALL the time stamp is 0, the time base and the inputs stand as they were, every block is at its
power-on values, and waiting commands wait on (R169, R175). FRAME_SENT of that acceptance does the same (assumption log
17). -/
def Obligations.ResetAllKeepsInputsAndTime : Prop :=
  ∀ s : State, s.sendingReset = true → ∃ t, exec .resetTakesEffect s = .next t ∧
    exec .frameSent s = .next t ∧ t.stamp = 0 ∧ t.now = s.now ∧ t.pending = s.pending ∧
    t.guard = ⟨s.guard.inputActive, false, false⟩ ∧ t.pack.holdReq = s.pack.holdReq ∧
    t.link = Link.powerOn ∧ t.completed = [] ∧ t.drivenDuty = s.drivenDuty ∧
    t.pack = PackRec.powerOn s.pack.holdReq ∧ (∀ k, t.scanLink k = LinkRec.powerOn) ∧
    (∀ l, t.line l = LineRec.powerOn ∧ t.lane l = LaneRec.powerOn (s.lane l).coilReady ∧
      t.pos l = ⟨0, none, none, none⟩ ∧ t.knot l = KnotRec.powerOn ∧ t.spanRec l = ⟨[], [], 0, 0, [], 0, 0⟩ ∧
      t.coilRec l = ⟨1, none, .none, false, none⟩) ∧
    (∀ h, t.head h = HeadRec.powerOn ∧ t.copy h = ⟨none, .invalid, 0⟩) ∧
    (∀ ch, t.channel ch = Channel.powerOn (s.channel ch).refA (s.channel ch).refB) ∧
    (∀ n, t.recipe n = none)

/-! ## The Message Link -/

/-- FRAME_SENT ends the frame being sent: a reply frees its request's place in the buffer, a notice frees none, and then a
queued reply goes before every notice (R163, R166). -/
def Obligations.FrameSentChoosesNextFrame : Prop :=
  ∀ (s : State) (f : Frame), s.link.sending = some f → s.sendingReset = false →
    ∃ t, exec .frameSent s = .next t ∧
      t.link.buffer = (if f.kind = noticeKind then s.link.buffer else s.link.buffer.tail) ∧
      (∀ r rs, s.link.replies = r :: rs →
        t.link.sending = some r ∧ t.link.replies = rs ∧ t.link.notices = s.link.notices) ∧
      (∀ n ns, s.link.replies = [] → s.link.notices = n :: ns →
        t.link.sending = some n.toFrame ∧ t.link.replies = [] ∧ t.link.notices = ns) ∧
      (s.link.replies = [] → s.link.notices = [] → t.link.sending = none) ∧
      t = { s with link := t.link } ∧ t.link.flags = s.link.flags ∧ t.link.receiver = s.link.receiver ∧
      t.link.levels = s.link.levels ∧ t.link.lost = s.link.lost

/-- BYTE_RECEIVED: in HUNT only 0xA5 begins a frame and nothing else changes anything; in FRAME a byte that neither breaks
nor completes the frame is taken as its next byte (R161). An idle transmitter chooses its next frame at the end of every
command (assumption log 16). -/
def Obligations.ByteReceivedCollectsFrame : Prop :=
  ∀ (s : State) (b : Byte),
    let taking : Receiver → Host.Outcome State Fault Refusal := fun r =>
      .next ({ s with link := { s.link with receiver := r, rxLast := s.now } } : State).chooseFrame
    (s.link.receiver = .hunt → b ≠ 0xA5#8 → exec (.byteReceived b) s = .next s.chooseFrame) ∧
    (s.link.receiver = .hunt → b = 0xA5#8 → exec (.byteReceived b) s = taking (.frame [])) ∧
    (s.link.receiver = .frame [] → b.toNat ≤ 240 → exec (.byteReceived b) s = taking (.frame [b])) ∧
    (∀ n got, s.link.receiver = .frame (n :: got) → got.length + 2 < n.toNat + 5 →
      exec (.byteReceived b) s = taking (.frame (n :: got ++ [b])))

/-- The three ways a frame is broken: FRAMING is set, the receiver is in HUNT, and nothing else changes but the time base,
which an inter-byte gap moves to the end of its 5 ms. A complete frame whose CRC does not match sets the CRC flag alone, and
no reply is queued (R161, R162). That the gap moves the time base, and when an idle transmitter chooses its next frame, are
the model's choices (assumption logs 3 and 16). -/
def Obligations.DiscardedFrameSetsItsFlag : Prop :=
  ∀ s : State,
    let broken : Link := { s.link with receiver := .hunt, flags := { s.link.flags with framing := true } }
    exec .stopBitError s = .next ({ s with link := broken } : State).chooseFrame ∧
    (∀ n : Byte, s.link.receiver = .frame [] → 240 < n.toNat →
      exec (.frameLengthBroken n) s = .next ({ s with link := broken } : State).chooseFrame) ∧
    (∀ got, s.link.receiver = .frame got → s.now = s.link.rxLast + 5000 →
      exec .interByteGap s = .next ({ s with link := broken } : State).chooseFrame) ∧
    (∀ got, s.link.receiver = .frame got → s.now < s.link.rxLast + 5000 →
      ∃ t : State, exec .interByteGap s = .next t.chooseFrame ∧ t = { s with now := s.link.rxLast + 5000, drivenDuty := t.drivenDuty, link := broken }) ∧
    ∀ (n : Byte) (body : List Byte) (hi lo : Byte), body.length = n.toNat + 2 →
      s.link.receiver = .frame (n :: body ++ [hi]) → enc16 (crc16 (n :: body)).toNat ≠ [hi, lo] →
      exec (.frameComplete lo) s = .next ({ s with
        link := { s.link with receiver := .hunt, flags := { s.link.flags with crc := true } } } : State).chooseFrame

/-- What next state FRAME_COMPLETE answers. A frame complete but for its last byte, and that byte: a well-formed request does
what its command does from HUNT; with the request taken, the owning block's acceptance or refusal, BAD_KIND for an unknown
kind, or BAD_VALUE for a payload of a wrong length is its reply; a request not taken is discarded or sets OVERRUN. Where no
last byte is awaited nothing changes (R161 to R164, R169, R172). That a request is a command of its own, how CHANNEL SET's
consumer is coded, and when an idle transmitter chooses, are the model's choices (assumption logs 10, 15, 16), and that nothing changes where no
last byte is awaited is deduced (assumption log 11). -/
def Obligations.FrameCompleteRunsItsRequest : Prop :=
  (∀ (c : Instr) (r : RequestForm) (s : State) (got : List Byte) (last : Byte),
    requestForm c = some r → c.wellFormed = true →
    (Frame.mk r.kind r.tag r.payload).bytes = 0xA5#8 :: got ++ [last] → s.link.receiver = .frame got →
    exec (.frameComplete last) s = exec c { s with link := { s.link with receiver := .hunt } }) ∧
  (∀ (kind tag : Byte) (payload : List Byte) (s : State) (got : List Byte) (last : Byte), payload.length ≤ 240 →
    (Frame.mk kind tag payload).bytes = 0xA5#8 :: got ++ [last] → s.link.receiver = .frame got →
    let u : State := { s with link := { s.link with receiver := .hunt } }
    (s.link.resetPending = true → exec (.frameComplete last) s = .next u.chooseFrame) ∧
    (s.link.resetPending = false → 2 ≤ s.link.buffer.length → exec (.frameComplete last) s =
      .next ({ u with link := { u.link with flags := { u.link.flags with overrun := true } } } : State).chooseFrame) ∧
    (s.link.takesRequest = true →
      (kind.toNat ∉ requestKinds →
        exec (.frameComplete last) s = .next ((u.entered kind tag).refused tag ⟨.badKind, 0⟩).chooseFrame) ∧
      (spell kind tag payload = .badLength →
        exec (.frameComplete last) s = .next ((u.entered kind tag).refused tag ⟨.badValue, 0⟩).chooseFrame) ∧
      ∀ c r, spell kind tag payload = .command c → requestForm c = some r →
        (∀ v reply, r.handle (u.entered kind tag) = .ok (v, reply) →
          exec (.frameComplete last) s = .next (v.acceptedAs kind tag reply)) ∧
        ∀ d, r.handle (u.entered kind tag) = .error d →
          exec (.frameComplete last) s = .next ((u.entered kind tag).refused tag d).chooseFrame)) ∧
  ∀ (s : State) (last : Byte),
    (s.link.receiver = .hunt ∨ s.link.receiver = .frame [] ∨
      ∃ n got, s.link.receiver = .frame (n :: got) ∧ got.length + 1 ≠ n.toNat + 4) →
    exec (.frameComplete last) s = .next s.chooseFrame

/-- The payload written out from a well-formed request command reads back as that command, for each of the 41 request
kinds (R172, R173). How CHANNEL SET's consumer is coded is the model's choice (assumption log 15). -/
def Obligations.RequestPayloadReadsBack : Prop :=
  ∀ (c : Instr) (r : RequestForm), requestForm c = some r → c.wellFormed = true →
    spell r.kind r.tag r.payload = .command c ∧ r.payload.length ≤ 240

/-- A request refused by its owning block, and a frame refused for its kind or its payload length, changes no state but the
port flag of its refusal; the refusal is its reply and takes the places of any reply (R165). A kind is unknown exactly when
it is not listed for requests (R164, R172). -/
def Obligations.RefusalChangesOnlyItsPortFlag : Prop :=
  (∀ (kind tag : Byte) (payload : List Byte), spell kind tag payload = .unknownKind ↔ kind.toNat ∉ requestKinds) ∧
  (∀ (c : Instr) (r : RequestForm) (s : State) (d : Denial), requestForm c = some r → s.link.takesRequest = true →
    r.handle (s.entered r.kind r.tag) = .error d →
    exec c s = .next ((s.entered r.kind r.tag).refused r.tag d).chooseFrame) ∧
  (∀ (s : State) (kind tag : Byte) (payload : List Byte), s.link.takesRequest = true →
    (spell kind tag payload = .unknownKind →
      s.serveFrame kind tag payload = (s.entered kind tag).refused tag ⟨.badKind, 0⟩) ∧
    (spell kind tag payload = .badLength →
      s.serveFrame kind tag payload = (s.entered kind tag).refused tag ⟨.badValue, 0⟩)) ∧
  (∀ (s : State) (kind tag : Byte) (d : Denial), let t := (s.entered kind tag).refused tag d
    t = { s with link := t.link } ∧
    t.link = { s.link with
      buffer := s.link.buffer ++ [⟨kind, tag⟩]
      replies := s.link.replies ++ [⟨0xFF#8, tag, [BitVec.ofNat 8 d.reason.code, BitVec.ofNat 8 d.field]⟩]
      flags := { s.link.flags with
        unknownKind := s.link.flags.unknownKind || decide (d.reason = .badKind)
        badTarget := s.link.flags.badTarget || decide (d.reason = .badTarget) } })

/-- A request command that the ML does not take: while a RESET ALL acceptance waits it is discarded, else with 2 requests in
the buffer it is dropped and sets OVERRUN; it has no other effect (R163, R169). An idle transmitter chooses its next frame
at the end of every command (assumption log 16). -/
def Obligations.RequestNotTakenHasNoEffect : Prop :=
  ∀ (c : Instr) (r : RequestForm) (s : State), requestForm c = some r →
    (s.link.resetPending = true → exec c s = .next s.chooseFrame) ∧
    (s.link.resetPending = false → 2 ≤ s.link.buffer.length → exec c s =
      .next ({ s with link := { s.link with flags := { s.link.flags with overrun := true } } } : State).chooseFrame)

/-- NOTICE_LEVEL sets a class's level, clamped into its allowed range, and no queued notice changes (R170). -/
def Obligations.NoticeLevelClampsLevel : Prop :=
  ∀ (s : State) (tag : Byte) (c : NoticeClass) (level : Nat), s.link.takesRequest = true →
    ∃ t : State, exec (.noticeLevel tag (c.index.val + 1) level) s =
        .next (t.acceptedAs 0x0A tag (enc8 (c.index.val + 1) ++ enc8 (t.levelOf c))) ∧
      t.levelOf c = (if level < c.lowest then c.lowest else if 3 < level then 3 else level) ∧
      (∀ d, d ≠ c → t.levelOf d = s.levelOf d) ∧
      t = { s with link := { (s.entered 0x0A tag).link with levels := t.link.levels } }

/-- STATUS reports and clears the lost tally and leaves the port flags; PORT_FLAGS reports and clears the five flags;
RESET_ALL changes nothing but that its acceptance is queued (R167 to R169). That the four lines' entries of STATUS go without
a count byte is the model's choice (assumption log 12); the codes of the flags, a follower's cut held with its leader's, and the
GUARD level follow assumption logs 14, 43 and 44. -/
def Obligations.StatusPortFlagsResetAllReply : Prop :=
  ∀ (s : State) (tag : Byte), s.link.takesRequest = true →
    (∃ held : LineId → Bool, (∀ l, held l = true ↔ CutIsHeld s l) ∧ exec (.status tag) s = .next (({ s with link := { (s.entered 0x30 tag).link with lost := 0 } } : State).acceptedAs 0x30
      tag (enc32 s.stamp ++ encBool s.guard.inputActive ++ encBool s.guard.armed ++ encBool s.guard.latch ++
        (LineId.all.flatMap fun l => enc8 (s.line l).state.code ++ encBool (held l)) ++ enc8 s.pack.state.code ++
        enc8 s.completed.length ++ enc8 s.pack.reserved ++ enc8 s.link.notices.length ++ enc32 s.link.lost ++
        encPortFlags s.link.flags))) ∧
    exec (.portFlags tag) s = .next (({ s with link := { (s.entered 0x38 tag).link with flags := .clear } } :
      State).acceptedAs 0x38 tag (encPortFlags s.link.flags)) ∧
    exec (.resetAll tag) s = .next ((s.entered 0x2F tag).acceptedAs 0x2F tag [])

/-- An offered notice joins a queue of fewer than 32 after every notice of its level or above; a full queue loses one
notice, the newest of its lowest level if the new one ranks above that, else the new one (R171). -/
def Obligations.NoticeOfferKeepsRankAndBound : Prop :=
  ∀ (n : Notice) (q : List Notice), noticesInOrder q → q.length ≤ 32 →
    noticesInOrder (offerToQueue n q).1 ∧ (offerToQueue n q).1.length ≤ 32 ∧
    (q.length < 32 → (offerToQueue n q).2 = 0 ∧ (offerToQueue n q).1.length = q.length + 1 ∧
      (offerToQueue n q).1 =
        q.takeWhile (fun m => n.level ≤ m.level) ++ n :: q.dropWhile (fun m => n.level ≤ m.level)) ∧
    (q.length = 32 → (offerToQueue n q).2 = 1 ∧ (offerToQueue n q).1.length = 32) ∧
    (q.length = 32 → (∀ m ∈ q, n.level ≤ m.level) → (offerToQueue n q).1 = q) ∧
    (q.length = 32 → (∃ m ∈ q, m.level < n.level) →
      (offerToQueue n q).1 =
        q.dropLast.takeWhile (fun m => n.level ≤ m.level) ++ n :: q.dropLast.dropWhile (fun m => n.level ≤ m.level))

/-- In every state the notice queue's law is kept by every step: at most 32 notices, highest level first (R171). -/
def Obligations.EveryStepKeepsNoticeQueue : Prop :=
  ∀ s s' : State, NoticeLaw s → step s = .next s' → NoticeLaw s'

/-! ## Reset -/

/-- The values the manual gives at reset, in the state `State.reset` with every input inactive, and every law of
Safety.lean there. POWER_ON with inactive inputs gives that state. That the inputs are inactive is the model's choice
(assumption log 7). -/
def Obligations.ResetHoldsStatedValuesAndLaws : Prop :=
  (∀ s : State, exec (.powerOn quietPins) s =
    .next { State.reset with choices := s.choices, pending := s.pending }) ∧
  (∀ l, let r := State.reset.line l
    r.kind = .rope ∧ r.state = .idle ∧ r.causes = .empty ∧ r.bound = none ∧ r.pendingRecipe = none ∧
      r.reverseClamp = false ∧ r.warmStart = false ∧ r.cfg.haulPitch = 100000 ∧ r.cfg.authority = .haul ∧
      r.cfg.slipWindow = 10000 ∧ r.cfg.slipLimit = 20 ∧ r.cfg.markerPulse = 100 ∧ r.cfg.cutterPulse = 200 ∧
      r.cfg.haulChannel = none ∧ r.cfg.leader = none) ∧
  (∀ l, (State.reset.lane l).enable = .disabled ∧ (State.reset.lane l).labelRequired = false ∧
    (State.reset.lane l).travelLimit = 20 ∧ (State.reset.lane l).queue = []) ∧
  State.reset.pack.state = .free ∧ State.reset.pack.position = none ∧ State.reset.pack.mode = .fixed ∧
  State.reset.pack.rotation = [.a, .b, .c, .d] ∧ State.reset.pack.bandTimeout = 10 ∧
  State.reset.pack.labelTimeout = 10 ∧ State.reset.completed = [] ∧ State.reset.guard.latch = false ∧
  State.reset.guard.armed = false ∧ State.reset.link.levels = #v[1, 1, 2, 2, 2, 2, 1, 1, 1, 0, 3] ∧
  GuardLaw State.reset ∧ HeadGuarded State.reset ∧ StationLaws State.reset ∧ StoreLaws State.reset ∧
  CompletedLaw State.reset ∧ AttachedLaw State.reset ∧ NoticeLaw State.reset ∧ BufferLaw State.reset ∧
  NoOwnLeader State.reset ∧
  (∀ l, CausesLaw State.reset l ∧ CoilLaw State.reset l ∧ PositionLaw State.reset l ∧ SpanLaw State.reset l ∧
    SpanOrderLaw State.reset l ∧ LaneLaw State.reset l) ∧
  ∀ h, TrimLaw State.reset h ∧ CleanLaw State.reset h ∧ LearnedLaw State.reset h

/-! ## The Sensing Channel Unit -/

/-- An accepted CHANNEL SET gives the channel its role, consumer and invert setting, clears what it measured, and takes the
levels present as the phase reference; no other channel and no other block changes (R33). How the consumer is coded in the
acceptance is deduced (assumption log 15). -/
def Obligations.ChannelSetAssignsEntry : Prop :=
  ∀ (s : State) (tag : Byte) (ch : ChannelId) (role : Role) (who : Consumer) (inv : Bool),
    s.link.takesRequest = true → role ≠ .free → ((∃ h, who = .head h) ↔ role = .flyer) →
    (∀ l, s.consumingLine (s.channel ch).consumer = some l → s.runOpen l = false) →
    (∀ l, s.consumingLine (some who) = some l → s.runOpen l = false) →
    ∃ t : State, exec (.channelSet tag ⟨ch.val, role.code, asSent who, inv.toNat⟩) s =
        .next (t.acceptedAs 0x01 tag (enc8 ch.val ++ enc8 role.code ++ encConsumer (some who) ++ encBool inv ++
          encBool (t.servedLine ch).isSome ++ encOptLine (t.servedLine ch))) ∧
      t.channel ch = ⟨role, some who, inv, 0, (s.channel ch).refA, (s.channel ch).refB, none, none, 0, none⟩ ∧
      (∀ d, d ≠ ch → t.channel d = s.channel d) ∧ t = { s.entered 0x01 tag with channels := t.channels }

/-- CHANNEL FREE: BAD_TARGET out of range, IN_USE with the consuming line's run open, else the entry is freed and its former
count and tally are reported (R34). -/
def Obligations.ChannelFreeFreesEntry : Prop :=
  ∀ (s : State) (tag : Byte) (n : Nat), s.link.takesRequest = true →
    (32 ≤ n →
      exec (.channelFree tag n) s = .next ((s.entered 0x02 tag).refused tag ⟨.badTarget, 0⟩).chooseFrame) ∧
    ∀ ch : ChannelId, n = ch.val →
      (∀ l, s.consumingLine (s.channel ch).consumer = some l → s.runOpen l = true →
        exec (.channelFree tag n) s = .next ((s.entered 0x02 tag).refused tag ⟨.inUse, 0⟩).chooseFrame) ∧
      ((∀ l, s.consumingLine (s.channel ch).consumer = some l → s.runOpen l = false) →
        ∃ t : State, exec (.channelFree tag n) s =
            .next (t.acceptedAs 0x02 tag (enc32 (s.channel ch).count.toNat ++ enc8 (s.channel ch).tally)) ∧
          t.channel ch = ⟨.free, none, false, 0, (s.channel ch).refA, (s.channel ch).refB, none, none, 0, none⟩ ∧
          (∀ d, d ≠ ch → t.channel d = s.channel d) ∧ t = { s.entered 0x02 tag with channels := t.channels })

/-- CHANNEL READ reports the entry and then sets its tally to 0; nothing else changes (R35). How the consumer is coded in the
acceptance is deduced (assumption log 15). -/
def Obligations.ChannelReadReportsAndClearsTally : Prop :=
  ∀ (s : State) (tag : Byte) (ch : ChannelId), s.link.takesRequest = true →
    let c := s.channel ch
    ∃ t : State, exec (.channelRead tag ch.val) s =
        .next (t.acceptedAs 0x03 tag (enc8 c.role.code ++ encConsumer c.consumer ++ encBool c.invert ++
          enc32 c.count.toNat ++ encOpt32 c.lastPeriod ++
          encBool (match c.timerFrom with
            | some f => decide (f + 10000000 ≤ s.now)
            | none => false) ++
          enc8 c.tally ++ encOptMm c.capture ++ encBool c.refA ++ encBool c.refB ++ encBool (s.servedLine ch).isSome ++
          encOptLine (s.servedLine ch))) ∧
      t.channel ch = { c with tally := 0 } ∧ (∀ d, d ≠ ch → t.channel d = s.channel d) ∧
      t = { s.entered 0x03 tag with channels := t.channels }

/-- QUADRATURE_COUNT, accepted, on a channel counted in quadrature: the new levels are the reference, the count goes up or down by
1, and a rising phase A of a HAUL or FLYER channel times a period; other channels, the time and the guard do not
change, and a channel that serves no line with a run open changes nothing else (R22, R24, R27, R32). A period is at least 1
microsecond (deduced, assumption log 9). -/
def Obligations.QuadratureCountUpdatesItsChannel : Prop :=
  ∀ (s : State) (w : ChannelChange) (p : Phase), Accepted s w → quadrature (s.channel w.channel) →
    let ch := w.channel
    let c := s.channel ch
    let c' : Channel := { c with
      refA := (levelsAfter c p).1
      refB := (levelsAfter c p).2
      count := if countsUp c p then c.count + 1 else c.count - 1 }
    ∃ t : State, exec (.quadratureCount w p) s = .next t ∧
      (qualifies c (levelsAfter c p).1 →
        t.channel ch = { c' with timerFrom := some w.date, lastPeriod := periodAt c w.date }) ∧
      (¬qualifies c (levelsAfter c p).1 → t.channel ch = c') ∧
      (∀ d, d ≠ ch → t.channel d = s.channel d) ∧ SameSurroundings s t ∧
      ((∀ l, s.servedLine ch = some l → s.runOpen l = false) →
        t = ({ s with channels := t.channels } : State).chooseFrame)

/-- An accepted count of a line's authority channel moves the position by one pitch, down to the floor at the open coil's
start, where REVERSE_CLAMP is set, and up to the ceiling, where RUN_LIMIT is offered; clamped or not it counts one signed pitch
in the slip window's authority advance, and no other line's position moves. Then, in an order in which RUN_LIMIT goes before
the slip test and that before the mark test, come the tests: the slip test where the slip window is due, and after a change of
the position the mark, twist window, stall and cut tests of the line that are due (R38 to R40, R49, R54, R84, R90, R130). The
order among the blocks is free (assumption log 18). -/
def Obligations.AuthorityCountMovesPosition : Prop :=
  ∀ (s : State) (w : ChannelChange) (p : Phase) (l : LineId), Accepted s w → s.servedLine w.channel = some l →
    s.runOpen l = true → (s.channel w.channel).role = (s.line l).cfg.authority.role →
    let pitch := (s.line l).cfg.authorityPitch
    let before := (s.pos l).position
    let up := countsUp (s.channel w.channel) p
    ∃ (t u : State) (order : List CountEvent), exec (.quadratureCount w p) s = .next t ∧
      (up = false → s.coilStart l + pitch ≤ before →
        (t.pos l).position = before - pitch ∧ (t.line l).reverseClamp = (s.line l).reverseClamp) ∧
      (up = false → before < s.coilStart l + pitch →
        (t.pos l).position = s.coilStart l ∧ (t.line l).reverseClamp = true) ∧
      (up = true → before + pitch ≤ 140737488355327 →
        (t.pos l).position = before + pitch ∧ (t.line l).reverseClamp = (s.line l).reverseClamp) ∧
      (up = true → 140737488355327 < before + pitch →
        (t.pos l).position = 140737488355327 ∧ StoppedFor (t.line l) .runLimit ∧
          (t.line l).reverseClamp = (s.line l).reverseClamp) ∧
      (∀ x, x ≠ l → (t.pos x).position = (s.pos x).position) ∧
      t = (order.foldl (countTest l) u).chooseFrame ∧
      u = { s with channels := u.channels, positions := u.positions, lines := u.lines, choices := u.choices } ∧
      u.pos l = { s.pos l with
        position := (t.pos l).position
        slip := (s.pos l).slip.map fun x =>
          { x with authAdvance := clampAbs 140737488355327 (x.authAdvance + if up then (pitch : Int) else -pitch) } } ∧
      (∀ x, x ≠ l → u.pos x = s.pos x ∧ u.line x = s.line x) ∧
      u.line l = { s.line l with reverseClamp := (u.line l).reverseClamp } ∧
      order.Nodup ∧ (order.filter CountEvent.ofLpu).Sublist [.runLimit, .slip, .mark] ∧
      (.runLimit ∈ order ↔ up = true ∧ 140737488355327 < before + pitch) ∧
      (.slip ∈ order ↔ ∃ x, (u.pos l).slip = some x ∧ ((s.line l).cfg.slipWindow : Int) * 1000000 ≤ x.authAdvance) ∧
      (.mark ∈ order ↔ (u.pos l).position ≠ before ∧ ∃ m, (s.pos l).markTarget = some m ∧ m ≤ (u.pos l).position) ∧
      (.cut ∈ order ↔ (u.pos l).position ≠ before ∧ CutFalls u l) ∧
      ∀ h, (.window h ∈ order ∨ .stall h ∈ order → (u.pos l).position ≠ before ∧ AssignedTo s h l) ∧
        ((u.pos l).position ≠ before → AssignedTo s h l → ∀ x r, (s.head h).window = some x → s.boundRecipe l = some r →
          (r.window * 1000000 ≤ (u.pos l).position - x.start → .window h ∈ order) ∧
          ((s.head h).stall = false → r.stallLength * 1000000 ≤ (u.pos l).position - x.stallRef → .stall h ∈ order))

/-- An accepted count of the other channel of the pair feeds the open slip window alone. A slip window that is due is judged by
(A - O) x 1,000 / A, limited to 999 either way, and the next one opens at the present position (R49, R50). -/
def Obligations.OtherCountFeedsSlipWindowOnly : Prop :=
  (∀ (s : State) (w : ChannelChange) (p : Phase) (l : LineId), Accepted s w → s.servedLine w.channel = some l →
    s.runOpen l = true → ((s.channel w.channel).role = .haul ∨ (s.channel w.channel).role = .wheel) →
    (s.channel w.channel).role ≠ (s.line l).cfg.authority.role →
    let ch := w.channel
    let pitch : Int := (s.line l).cfg.pitchOf (s.channel ch).role
    ∃ t : State, exec (.quadratureCount w p) s = .next t.chooseFrame ∧
      t = { s with channels := t.channels, positions := t.positions } ∧
      t.pos l = { s.pos l with
        slip := (s.pos l).slip.map fun x =>
          { x with
            otherAdvance := clampAbs ceiling (x.otherAdvance + if countsUp (s.channel ch) p then pitch else -pitch) } } ∧
      ∀ x, x ≠ l → t.pos x = s.pos x) ∧
  (∀ A O : Int, 0 < A → slipOf A O = max (-999) (min 999 (((A - O) * 1000).tdiv A))) ∧
  ∀ (s : State) (l : LineId) (w : SlipWindow), (s.pos l).slip = some w →
    ((w.authAdvance < ((s.line l).cfg.slipWindow : Int) * 1000000 → s.testSlip l = s) ∧
    (((s.line l).cfg.slipWindow : Int) * 1000000 ≤ w.authAdvance →
      let t := s.testSlip l
      t.pos l = { s.pos l with slip := some ⟨(s.pos l).position, 0, 0⟩ } ∧ (∀ x, x ≠ l → t.pos x = s.pos x) ∧
      ((slipOf w.authAdvance w.otherAdvance).natAbs ≤ (s.line l).cfg.slipLimit →
        t = { s.submit l .slip .line (.close w.start) with positions := t.positions }) ∧
      ((s.line l).cfg.slipLimit < (slipOf w.authAdvance w.otherAdvance).natAbs →
        t = { s.submit l .slip .line (.openOrExtend w.start (s.pos l).position
          (slipOf w.authAdvance w.otherAdvance).natAbs) with positions := t.positions })))

/-- An accepted count of a flyer channel whose head's line has a run open enters the head's twist window, moves its stall reference to
the position and ends a stall with the close of its STALL span; nothing else changes (R80, R91). -/
def Obligations.FlyerCountFeedsItsHead : Prop :=
  ∀ (s : State) (w : ChannelChange) (p : Phase) (h : HeadId) (u : HeadSettings), Accepted s w →
    (s.channel w.channel).role = .flyer → (s.channel w.channel).consumer = some (.head h) →
    (s.head h).settings = some u → u.channel = w.channel → s.runOpen u.line = true →
    let ch := w.channel
    ∃ t : State, exec (.quadratureCount w p) s = .next t.chooseFrame ∧
      t.head h = { s.head h with
        stall := false
        window := (s.head h).window.map fun x =>
          { x with
            count := x.count + (if countsUp (s.channel ch) p then 1 else -1)
            stallRef := (s.pos u.line).position } } ∧
      (∀ x, x ≠ h → t.head x = s.head x) ∧
      t = { s with channels := t.channels, heads := t.heads, spanRecs := t.spanRecs } ∧
      ((s.head h).stall = false → t.spanRecs = s.spanRecs) ∧
      ((s.head h).stall = true → t.spanRecs = (s.submit u.line .stall (.head h)
        (.close ((s.pos u.line).position + u.offset * 1000000))).spanRecs)

/-- The input filter of every field input and the events that count nothing. A change that holds less than 2 microseconds
changes nothing; one of a channel that holds is taken when these have passed, and the time base moves on to that.
ILLEGAL_TRANSITION takes both levels and counts its tally to 32, where SENSOR is offered to the line served, with the notice of
a RUNNING line's stop;
PERIOD_SATURATION sets the last period to 10,000,000; PHASE_LEVEL_CHANGE of a FREE channel, or without a rising edge as read,
takes the levels (R15, R21, R22, R25, R28). The time base that these commands move and the qualifying edge of an illegal
transition are the model's choices (assumption logs 3, 4, 20). -/
def Obligations.UncountedChannelEvents : Prop :=
  (∀ (s : State) (w : ChannelChange) (p : Phase) (a b : Bool) (c : Instr),
    c ∈ [.quadratureCount w p, .illegalTransition w, .shaftEdge w a b, .spliceEdge w a b, .phaseLevelChange w a b] →
    (w.held < 2 → exec c s = .next s.chooseFrame) ∧
    (2 ≤ w.held → s.now < w.date + 2 → exec c s = exec c { s with
      now := w.date + 2
      drivenDuty := if s.now / 1000 < (w.date + 2) / 1000 then s.heads.map HeadRec.duty else s.drivenDuty })) ∧
  (∀ (s : State) (held : Nat) (l : LineId) (active : Bool) (c : Instr), held < 2 →
    c ∈ [.guardEvent held, .guardInputChange active held, .coilReadyActive l held, .coilReadyInactive l held,
      .headAtLane held, .bandDone held, .clampSlip held, .labelDone held, .holdReqActive held, .holdReqInactive held] →
    exec c s = .next s.chooseFrame) ∧
  (∀ (s : State) (w : ChannelChange), Accepted s w → quadrature (s.channel w.channel) →
    let ch := w.channel
    let c := s.channel ch
    let c' : Channel := { c with refA := !c.refA, refB := !c.refB, tally := min 32 (c.tally + 1) }
    ∃ t : State, exec (.illegalTransition w) s = .next t ∧
      (qualifies c (!c.refA) → t.channel ch = { c' with timerFrom := some w.date, lastPeriod := periodAt c w.date }) ∧
      (¬qualifies c (!c.refA) → t.channel ch = c') ∧ (∀ d, d ≠ ch → t.channel d = s.channel d) ∧
      (∀ l, s.servedLine ch = some l → 31 ≤ c.tally → t.line l = afterOffer (s.line l) .sensor) ∧
      (∀ l, s.servedLine ch ≠ some l ∨ c.tally < 31 → t.line l = s.line l) ∧
      (∀ l, s.servedLine ch = some l → 31 ≤ c.tally → t.link = (s.offerCause l .sensor).chooseFrame.link) ∧
      (s.servedLine ch = none ∨ c.tally < 31 → t.link = s.chooseFrame.link) ∧
      t = { s with channels := t.channels, lines := t.lines, link := t.link }) ∧
  (∀ (s : State) (ch : ChannelId) (f : Nat), (s.channel ch).timerFrom = some f →
    ∃ t : State, exec (.periodSaturation ch) s = .next t.chooseFrame ∧
      t.channel ch = { s.channel ch with lastPeriod := some 10000000 } ∧ (∀ d, d ≠ ch → t.channel d = s.channel d) ∧
      t.now = (if s.now < f + 10000000 then f + 10000000 else s.now) ∧
      t = { s with channels := t.channels, now := t.now, drivenDuty := t.drivenDuty }) ∧
  ∀ (s : State) (w : ChannelChange) (a b : Bool), Accepted s w →
    let c := s.channel w.channel
    c.role = .free ∨ (c.role = .shaft ∧ (a = c.refA ∨ a = c.invert) ∧ (b = c.refB ∨ b = c.invert)) ∨
        (c.role = .splice ∧ (a = c.refA ∨ a = c.invert)) →
      ∃ t : State, exec (.phaseLevelChange w a b) s = .next t.chooseFrame ∧
        t.channel w.channel = { c with refA := a, refB := b } ∧ (∀ d, d ≠ w.channel → t.channel d = s.channel d) ∧
        t = { s with channels := t.channels }

/-- SHAFT_EDGE, accepted: an index sets the angle to 0 and SYNCED; a count advances the angle, and at twice the counts per
revolution the sync state is LOST and SHAFT_INDEX is offered; in LOST a count changes neither; a line without a run takes no
arrival. Each arrival takes the gate counts from the bound recipe. The gate opens where its level becomes high, which ends a
scan in progress with its row judged as overrun, and closes where it becomes low, which records the position as the gate-close
position and begins a scan (R30, R95 to R98, R100, R103). That the counts taken stand until the next arrival is deduced
(assumption log 47). -/
def Obligations.ShaftEdgeTurnsShaft : Prop :=
  ∀ (s : State) (w : ChannelChange) (a b : Bool), Accepted s w → (s.channel w.channel).role = .shaft →
    let ch := w.channel
    let c := s.channel ch
    let count : Prop := c.refA ≠ a ∧ a ≠ c.invert
    let index : Prop := c.refB ≠ b ∧ b ≠ c.invert
    ∃ t : State, exec (.shaftEdge w a b) s = .next t ∧
      (count → t.channel ch = { c with refA := a, refB := b, count := c.count + 1 }) ∧
      (¬count → t.channel ch = { c with refA := a, refB := b }) ∧ (∀ d, d ≠ ch → t.channel d = s.channel d) ∧
      SameSurroundings s t ∧
      t = { s with
        channels := t.channels, knots := t.knots, lines := t.lines, spanRecs := t.spanRecs
        linkK1 := t.linkK1, linkK2 := t.linkK2, link := t.link } ∧
      ((∀ l, s.servedLine ch = some l → s.runOpen l = false) →
        t = ({ s with channels := t.channels } : State).chooseFrame) ∧
      ∀ l, s.servedLine ch = some l → s.runOpen l = true →
        let turn := 2 * (s.line l).cfg.countsPerRev.getD 0
        (index → (t.knot l).angle = 0 ∧ (t.knot l).sync = .synced) ∧
        (count → ¬index → (s.knot l).sync ≠ .lost → (s.knot l).angle + 1 < turn →
          (t.knot l).angle = (s.knot l).angle + 1 ∧ (t.knot l).sync = (s.knot l).sync) ∧
        (count → ¬index → (s.knot l).sync ≠ .lost → turn ≤ (s.knot l).angle + 1 →
          (t.knot l).angle = turn ∧ (t.knot l).sync = .lost ∧ StoppedFor (t.line l) .shaftIndex) ∧
        (count → ¬index → (s.knot l).sync = .lost →
          (t.knot l).angle = (s.knot l).angle ∧ (t.knot l).sync = .lost) ∧
        (∀ x, x ≠ l → t.knot x = s.knot x ∧ t.line x = s.line x ∧ t.spanRec x = s.spanRec x) ∧
        (¬count → ¬index → t.knot l = s.knot l ∧ ∀ k, t.scanLink k = s.scanLink k) ∧
        ∀ k spec n, (s.line l).cfg.scanLink = some k → s.knotSpec l = some spec →
          (s.line l).cfg.countsPerRev = some n → count ∨ index →
          let high := GateHigh (t.knot l) (gateBounds spec n)
          let row := s.knot l
          let gates := some (gateBounds spec n)
          let lost : Prop := count ∧ ¬index ∧ row.sync ≠ .lost ∧ turn ≤ row.angle + 1
          let linkFrom := fun x : State =>
            (lost → t.link = (x.offerCause l .shaftIndex).chooseFrame.link) ∧ (¬lost → t.link = x.chooseFrame.link)
          (t.knot l).gateTaken = gates ∧
          (¬(high ∧ (s.scanLink k).gate = false ∧ (s.scanLink k).scan ≠ none) → linkFrom s) ∧
          (∀ j, j ≠ k → t.scanLink j = s.scanLink j) ∧
          (high → (s.scanLink k).gate = false → t.scanLink k = { s.scanLink k with gate := true, scan := none } ∧
            ((s.scanLink k).scan = none →
              t.knot l = { row with angle := (t.knot l).angle, sync := (t.knot l).sync, gateTaken := gates } ∧
                t.spanRecs = s.spanRecs) ∧
            ∀ scan, (s.scanLink k).scan = some scan →
              (t.knot l).rowIndex = (row.rowIndex + 1) % 4294967296 ∧ (t.knot l).lastRowPos = some scan.closePos ∧
              (t.knot l).columns = row.columns ∧
              (∃ x, (t.knot l).lastScan = some x ∧ x.outcome = .overrun ∧ x.endBoard = none ∧
                x.columns = List.replicate spec.columnsUsed .unknown) ∧
              t.spanRecs = (s.judgeRow l scan .overrun none).spanRecs ∧ linkFrom (s.judgeRow l scan .overrun none)) ∧
          (¬high → (s.scanLink k).gate = true →
            t.scanLink k = { s.scanLink k with gate := false, scan := some ⟨(s.pos l).position, []⟩ } ∧
            t.knot l = { row with angle := (t.knot l).angle, sync := (t.knot l).sync, gateTaken := gates } ∧
            t.spanRecs = s.spanRecs) ∧
          ((high ↔ (s.scanLink k).gate = true) → t.scanLink k = s.scanLink k ∧
            t.knot l = { row with angle := (t.knot l).angle, sync := (t.knot l).sync, gateTaken := gates } ∧
            t.spanRecs = s.spanRecs)

/-- SPLICE_EDGE, accepted: a rising phase A as read is counted; for a running line an edge that passes the spacing test is captured at
the position, and its coordinate, unless one held is equal or nearer than the spacing, joins the splice list in order, or the
tally when 16 are held, with SPAN_OVERFLOW at the first loss (R31, R43, R120, R125). -/
def Obligations.SpliceEdgeCapturesSplice : Prop :=
  ∀ (s : State) (w : ChannelChange) (a b : Bool), Accepted s w → (s.channel w.channel).role = .splice →
    a ≠ (s.channel w.channel).refA → a ≠ (s.channel w.channel).invert →
    let ch := w.channel
    let c := s.channel ch
    let c' : Channel := { c with refA := a, refB := b, count := c.count + 1 }
    ((∀ l, s.servedLine ch = some l → s.runOpen l = false) →
      ∃ t : State, exec (.spliceEdge w a b) s = .next t.chooseFrame ∧ t.channel ch = c' ∧
        (∀ d, d ≠ ch → t.channel d = s.channel d) ∧ t = { s with channels := t.channels }) ∧
    ∀ l, s.servedLine ch = some l → s.runOpen l = true →
      let p := (s.pos l).position
      let x := p + (s.line l).cfg.spliceOffset.getD 0 * 1000000
      let spacing := (s.line l).cfg.spliceSpacing.getD 0 * 1000000
      ∃ t : State, exec (.spliceEdge w a b) s = .next t ∧ (∀ d, d ≠ ch → t.channel d = s.channel d) ∧
        t = { s with channels := t.channels, spanRecs := t.spanRecs, link := t.link } ∧
        (∀ y, y ≠ l → t.spanRec y = s.spanRec y) ∧
        (∀ y, c.capture = some y → y < p + spacing → p < y + spacing →
          t.channel ch = c' ∧ t.spanRec l = s.spanRec l) ∧
        ((∀ y, c.capture = some y → p + spacing ≤ y ∨ y + spacing ≤ p) →
          t.channel ch = { c' with capture := some p } ∧
          ((∃ y ∈ (s.spanRec l).splices, x = y ∨ x < y + spacing ∧ y < x + spacing) → t.spanRec l = s.spanRec l) ∧
          ((∀ y ∈ (s.spanRec l).splices, x ≠ y ∧ (x + spacing ≤ y ∨ y + spacing ≤ x)) →
            ((s.spanRec l).splices.length < 16 → (t.spanRec l).lostSplices = (s.spanRec l).lostSplices ∧
              (t.spanRec l).splices =
                (s.spanRec l).splices.takeWhile (· ≤ x) ++ x :: (s.spanRec l).splices.dropWhile (· ≤ x)) ∧
            (16 ≤ (s.spanRec l).splices.length → (t.spanRec l).splices = (s.spanRec l).splices ∧
              (t.spanRec l).lostSplices = min 65535 ((s.spanRec l).lostSplices + 1)))) ∧
        let lost : Prop := (∀ y, c.capture = some y → p + spacing ≤ y ∨ y + spacing ≤ p) ∧
          (∀ y ∈ (s.spanRec l).splices, x ≠ y ∧ (x + spacing ≤ y ∨ y + spacing ≤ x)) ∧
          16 ≤ (s.spanRec l).splices.length
        (lost → (s.spanRec l).lostSplices = 0 →
          t.link = (s.notify (some l) (.spliceOverflow (x / 1000000) (p / 1000000))).chooseFrame.link) ∧
        (¬lost ∨ (s.spanRec l).lostSplices ≠ 0 → t.link = s.chooseFrame.link)

/-! ## The Twist Supervisor -/

/-- An accepted HEAD SET stores the settings. A head that keeps its line and strand position keeps the rest and its copy;
else its measurements, conditions and limit count are cleared and its copy is invalidated. The trim is kept (R77, R78). -/
def Obligations.HeadSetStoresSettings : Prop :=
  ∀ (s : State) (tag : Byte) (h : HeadId) (u : HeadSettings), s.link.takesRequest = true →
    1 ≤ u.countsPerTurn → u.countsPerTurn ≤ 1024 → u.offset ≤ 200000 → (s.line u.line).state = .idle →
    (∀ v, (s.head h).settings = some v → (s.line v.line).state = .idle) →
    (∀ x v, x ≠ h → (s.head x).settings = some v → v.line = u.line → v.position ≠ u.position) →
    ∃ t : State, exec (.headSet tag ⟨h.val, LineId.code u.line, u.position.val, u.channel.val, u.countsPerTurn, u.offset,
        u.zSense.code⟩) s =
        .next (t.acceptedAs 0x04 tag (enc8 h.val ++ encLine u.line ++ enc8 u.position.val ++ enc8 u.channel.val ++
          enc16 u.countsPerTurn ++ enc32 u.offset ++ enc8 u.zSense.code ++ encI16 (s.head h).trim ++
          enc8 (t.copy h).state.code ++ encBool (t.servesHead u.channel h))) ∧
      (∀ v, (s.head h).settings = some v → v.line = u.line → v.position = u.position →
        t.head h = { s.head h with settings := some u } ∧ t.copies = s.copies) ∧
      ((∀ v, (s.head h).settings = some v → v.line ≠ u.line ∨ v.position ≠ u.position) →
        t.head h = ⟨some u, (s.head h).trim, (s.head h).window, false, false, 0, none, none, none⟩ ∧
        t.copy h = ⟨none, .invalid, 0⟩) ∧
      (∀ x, x ≠ h → t.head x = s.head x ∧ t.copy x = s.copy x) ∧
      t = { s.entered 0x04 tag with heads := t.heads, copies := t.copies }

/-- An accepted HEAD FREE of an assigned head leaves it UNASSIGNED with its twist window, conditions and last-window fields
cleared, its trim kept, its copy invalidated and its duty at 5,000, and reports the former trim and copy; of an unassigned head
it changes nothing (R79, R81). -/
def Obligations.HeadFreeUnassignsHead : Prop :=
  ∀ (s : State) (tag : Byte) (h : HeadId), s.link.takesRequest = true →
    (∀ v, (s.head h).settings = some v → (s.line v.line).state = .idle) →
    ∃ t : State, exec (.headFree tag h.val) s =
        .next (t.acceptedAs 0x05 tag (encI16 (s.head h).trim ++ encI16 (s.copy h).learned ++
          enc8 (s.copy h).state.code)) ∧
      ((s.head h).settings = none → t = s.entered 0x05 tag) ∧
      (∀ v, (s.head h).settings = some v → (t.head h).duty = 5000 ∧ t.copy h = ⟨none, .invalid, 0⟩ ∧
        t.head h = ⟨none, (s.head h).trim, none, false, false, 0, none, none, none⟩) ∧
      (∀ x, x ≠ h → t.head x = s.head x ∧ t.copy x = s.copy x) ∧
      t = { s.entered 0x05 tag with heads := t.heads, copies := t.copies }

/-! ## Reads -/

/-- The reads that change nothing: HEAD STATUS, SPANS READ, SPLICES READ, KNOT STATUS of a NET line, CUT STATUS, PACK STATUS,
and RECIPE READ of a full slot are accepted in every state, and only their reply is queued, with every value its rule names.
The head's state and each lane's are the first row of their tables that applies (R61, R76, R82, R97, R112, R123, R124, R130,
R132, R141, R144, R160). The widths and codes of the payloads follow assumption logs 12, 14 and 49, a column of the last scan
result without a judgment is left out (assumption log 46), the gate counts of KNOT STATUS are those taken at the last arrival
(deduced, assumption log 47), times to run are truncated (deduced, assumption log 39), that of an idle cutter pulse or step
timer and the band number of a step that is no band are absent (the model's choices, assumption logs 51, 54), and a NET line
whose bound slot holds a ROPE recipe is reported as one without a bound recipe (the model's choice, assumption log 53). -/
def Obligations.ReadsChangeNothing : Prop :=
  ∀ (s : State) (tag : Byte), s.link.takesRequest = true →
    (∀ h : HeadId, ∃ (code : Nat) (advance count distance : Option Int) (speed : Option Nat), let r := s.head h
      exec (.headStatus tag h.val) s = .next ((s.entered 0x32 tag).acceptedAs 0x32 tag (enc8 code ++ encBool r.stall ++
        encBool r.handFault ++ enc8 r.limitCount ++ encHeadSettings r.settings ++ encI16 r.trim ++ enc16 r.duty ++
        encOptSlot (s.copy h).slot ++ enc8 (s.copy h).state.code ++ encI16 (s.copy h).learned ++
        encOpt32 r.lastDensity ++ encOptI16 r.lastDeviation ++ encWindowFlags r.lastFlags ++
        (encOptI32 advance ++ encOptI32 count) ++ encOptI32 distance ++ encOpt32 speed)) ∧
      (r.settings = none → code = 0 ∧ speed = none) ∧
      (r.window = none ∨ r.settings = none → advance = none ∧ count = none ∧ distance = none) ∧
      ∀ u, r.settings = some u →
        let c := s.channel u.channel
        let serves : Prop := c.role = .flyer ∧ c.consumer = some (.head h)
        (∀ w, r.window = some w → advance = some ((((s.pos u.line).position : Int) - w.start).tdiv 1000000) ∧
          count = some w.count ∧ distance = some ((((s.pos u.line).position : Int) - w.stallRef).tdiv 1000000)) ∧
        (¬serves ∨ c.lastPeriod = none → speed = none) ∧
        (∀ p, serves → c.lastPeriod = some p →
          speed = some (if 10000000 ≤ p then 0 else 240000000 / (p * u.countsPerTurn))) ∧
        ((s.line u.line).state = .idle → code = 1) ∧
        ((s.line u.line).state ≠ .idle → r.stall = true → code = 2) ∧
        ((s.line u.line).state ≠ .idle → r.stall = false → r.handFault = true → code = 3) ∧
        ∀ x, s.boundRecipe u.line = some x → (s.line u.line).state ≠ .idle → r.stall = false → r.handFault = false →
          code = if r.limitCount = x.limitWindows then 4 else 5) ∧
    (∀ (l : LineId) (first : Nat), 1 ≤ first → first ≤ 48 →
      exec (.spansRead tag (LineId.code l) first) s = .next ((s.entered 0x34 tag).acceptedAs 0x34 tag (encLine l ++
        enc32 (s.spanRec l).edition ++ enc8 (s.spanRec l).spans.length ++ enc32 (s.spanRec l).lostSpans ++
        enc8 (s.spanRec l).lostKeys.length ++
        encList (fun e => enc8 e.2 ++ encSpan l e.1.kind e.1.source (!e.1.isOpen) e.1.carried false e.1.worst
          (e.1.start / 1000000) (e.1.stop.map (· / 1000000)))
          ((((s.spanRec l).spans.zipIdx 1).drop (first - 1)).take 10)))) ∧
    (∀ l : LineId, exec (.splicesRead tag (LineId.code l)) s = .next ((s.entered 0x35 tag).acceptedAs 0x35 tag
      (encLine l ++ enc32 (s.spanRec l).edition ++ enc32 (s.spanRec l).lostSplices ++
        enc8 (s.spanRec l).splices.length ++ (s.spanRec l).splices.flatMap fun x => enc32 (x / 1000000)))) ∧
    (∀ (l : LineId) (k : ScanLink) (column : Nat), 1 ≤ column → column ≤ 64 → (s.line l).kind = .net →
      (s.line l).cfg.scanLink = some k → ∃ (opens closes : Option Nat) (level : Bool) (columns : List Nat), let r := s.knot l
      exec (.knotStatus tag (LineId.code l) column) s = .next ((s.entered 0x39 tag).acceptedAs 0x39 tag
        (enc8 r.sync.code ++ enc16 r.angle ++ encOpt16 opens ++ encOpt16 closes ++
          encBool level ++ encBool (s.scanLink k).scan.isSome ++ enc32 r.rowIndex ++
          enc8 (ScanLink.code k) ++ enc8 (s.scanLink k).chain.code ++
          encList enc16 ((s.scanLink k).parity.toList.take ((s.line l).cfg.boardCount.getD 0)) ++
          encList (fun c => encColumn c (r.column c)) columns ++ encBool r.meshSpan.isSome ++ encBool r.unseenSpan.isSome ++
          encScanResult columns r.lastScan ++ encOpt32 (r.lastRowCoord.map (· / 1000000)))) ∧
      (s.knotSpec l = none → opens = none ∧ closes = none ∧ level = false ∧ columns = []) ∧
      (∀ spec, s.knotSpec l = some spec → columns = ((List.range spec.columnsUsed).drop (column - 1)).take 16) ∧
      ∀ spec n, s.knotSpec l = some spec → (s.line l).cfg.countsPerRev = some n → ∃ g, opens = some g.1 ∧ closes = some g.2 ∧
        (r.gateTaken = none → g = gateBounds spec n) ∧ (∀ x, r.gateTaken = some x → g = x) ∧
        (level = true ↔ GateHigh r g)) ∧
    (∀ l : LineId, ∃ (coil : List Byte) (holds : HoldSet) (own : Bool), let k := s.coilRec l
      exec (.cutStatus tag (LineId.code l)) s = .next ((s.entered 0x3A tag).acceptedAs 0x3A tag
        (encBool k.coil.isSome ++ enc32 k.number ++ coil ++
          (match k.stage with
            | .none => enc8 0 ++ enc32 0xFFFFFFFF ++ enc8 0
            | .placed p => enc8 1 ++ enc32 (p.target / 1000000) ++ enc8 (p.shifted.toNat + 2 * p.endSplice.toNat)
            | .held p => enc8 2 ++ enc32 (p.target / 1000000) ++ enc8 (p.shifted.toNat + 2 * p.endSplice.toNat)) ++
          encHolds holds ++ encBool k.pairedHold ++ encBool k.cutterPulse.isSome ++
          encOpt32 (k.cutterPulse.map fun e => (e - s.now) / 1000) ++ enc8 (s.lane l).queue.length ++ encBool own)) ∧
      (k.coil = none → coil = encOptSlot none ++ enc32 0xFFFFFFFF ++ enc32 0xFFFFFFFF ++ enc32 0xFFFFFFFF ++
        enc32 0xFFFFFFFF ++ enc32 0xFFFFFFFF ++ enc32 0xFFFFFFFF) ∧
      (∀ c r, k.coil = some c → s.recipe c.slot = some r →
        coil = encOptSlot (some c.slot) ++ enc32 (c.start / 1000000) ++
          enc32 (((s.pos l).position - c.start) / 1000000) ++ enc32 ((c.start + r.targetLength * 1000000) / 1000000) ++
          enc32 ((c.start + (r.targetLength + r.plusTolerance) * 1000000) / 1000000) ++ enc32 c.marks ++
          enc32 c.suppressed) ∧
      HoldsPresent s l holds ∧ (own = true ↔ ∀ x, (s.line l).cfg.leader = some x → (s.line x).state = .idle)) ∧
    (∃ (band : Option Nat) (code : LineId → Nat), let p := s.pack
      exec (.packStatus tag) s = .next ((s.entered 0x3B tag).acceptedAs 0x3B tag
        (enc8 p.state.code ++ encOptLine p.position ++ encOptLine p.attached ++ encOptStep p.step ++ encOpt8 band ++
          enc8 p.restarts ++ encOptLine (p.abeyance.map Prod.fst) ++ encOptStep (p.abeyance.map Prod.snd) ++
          encBool p.suspendPending ++ encBool p.holdPending ++
          encOpt32 (p.stepTimer.map fun e => (e - s.now) / 1000) ++ enc8 p.mode.code ++ p.rotation.flatMap encLine ++
          enc8 p.bandTimeout ++ enc8 p.labelTimeout ++
          (LineId.all.flatMap fun l => let q := s.lane l
            enc8 (code l) ++ encBool q.labelRequired ++ enc8 q.travelLimit ++ encBool q.coilReady ++ encBool q.rearmed ++
              encBool q.disablePending ++ encList (fun r => encCoilId r.line r.number) q.queue) ++
          enc8 s.completed.length ++ enc8 p.reserved)) ∧
      (∀ k, band = some k ↔ p.step = some (.band k)) ∧ ∀ l, LaneReports s l (code l)) ∧
    (∀ (n : Slot) (r : Recipe), s.recipe n = some r → ∃ holders : List HeadId,
      exec (.recipeRead tag (n.val + 1)) s = .next ((s.entered 0x11 tag).acceptedAs 0x11 tag (encRecipe r ++
        (LineId.all.flatMap fun l =>
          enc8 (if (s.line l).bound = some n then 0 else if (s.line l).pendingRecipe = some n then 1 else 2)) ++
        encList (fun h => enc8 h.val ++ enc8 (s.copy h).state.code ++ encI16 (s.copy h).learned) holders)) ∧
      holders.Pairwise (· < ·) ∧ ∀ h, h ∈ holders ↔ Holder s n h)

/-- SNAPSHOT reports the four lines at one instant and changes nothing; LINE STATUS reports a line and then clears its
REVERSE_CLAMP (R14, R46). That SNAPSHOT's four entries go without a count byte, and how the guard is sent, are the model's
choices (assumption logs 12, 14), the GUARD level follows assumption log 44, and a follower's cut held with its leader's
assumption log 43. -/
def Obligations.SnapshotAndLineStatusReportLines : Prop :=
  ∀ (s : State) (tag : Byte), s.link.takesRequest = true →
    let entry : LineId → List Byte := fun l =>
      enc8 (s.line l).state.code ++ enc32 ((s.pos l).position / 1000000) ++
        (match (s.coilRec l).coil with
          | some c => enc32 (((s.pos l).position - c.start) / 1000000)
          | none => enc32 0xFFFFFFFF) ++
        (match (s.line l).kind with
          | .net => enc32 (s.knot l).rowIndex
          | .rope => enc32 0xFFFFFFFF)
    exec (.snapshot tag) s = .next ((s.entered 0x33 tag).acceptedAs 0x33 tag
      (entry .a ++ entry .b ++ entry .c ++ entry .d ++ enc32 s.stamp)) ∧
    ∀ l : LineId, ∃ (t : State) (held : Bool), exec (.lineStatus tag (LineId.code l)) s =
        .next (t.acceptedAs 0x31 tag (enc8 (s.line l).kind.code ++ (enc8 (s.line l).state.code ++
          encCauses (s.line l).causes) ++ encOptSlot (s.line l).bound ++ encOptSlot (s.line l).pendingRecipe ++
          encOptLine (s.line l).cfg.leader ++ encOptLine (s.follower l) ++ enc32 ((s.pos l).position / 1000000) ++
          (match (s.coilRec l).coil with
            | some c => enc32 (((s.pos l).position - c.start) / 1000000)
            | none => enc32 0xFFFFFFFF) ++
          enc32 (s.coilRec l).number ++ encBool held ++ encBool (s.line l).reverseClamp ++ encBool (s.line l).warmStart ++
          (encBool s.guard.inputActive ++ encBool s.guard.armed ++ encBool s.guard.latch))) ∧
      (held = true ↔ CutIsHeld s l) ∧
      t.line l = { s.line l with reverseClamp := false } ∧ (∀ x, x ≠ l → t.line x = s.line x) ∧
      t = { s.entered 0x31 tag with lines := t.lines }

/-- COIL PEEK reports the oldest record of the completed coil list; COIL TAKE of that record removes it and reports how many
are left, and a FREE head then evaluates a grant (R150, R159). -/
def Obligations.CoilPeekAndTakeServeOldestRecord : Prop :=
  ∀ (s : State) (tag : Byte) (r : CoilRecord) (rest : List CoilRecord), s.link.takesRequest = true →
    s.completed = r :: rest →
    exec (.coilPeek tag) s = .next ((s.entered 0x36 tag).acceptedAs 0x36 tag
      (encCoilRecord r ++ enc8 (rest.length + 1))) ∧
    (r.number ≠ 0 → ∃ t : State, exec (.coilTake tag (LineId.code r.line) r.number) s =
        .next (t.acceptedAs 0x37 tag (encLine r.line ++ enc32 r.number ++ enc8 rest.length)) ∧
      t.completed = rest ∧ t = ({ s.entered 0x37 tag with completed := rest } : State).evaluateGrant ∧
      (s.pack.state ≠ .free → t = { s.entered 0x37 tag with completed := rest }) ∧
      t = { s.entered 0x37 tag with completed := rest, lanes := t.lanes, pack := t.pack } ∧
      ∀ l, (t.lane l).queue.map unserved = (s.lane l).queue.map unserved)

/-! ## Lines: configuration and recipes -/

/-- An accepted LINE SET of an IDLE line replaces its kind and configuration, dependent fields absent where R2 says so, and
leaves the rest of its record; a ROPE line's KS fields are at their power-on values (deduced, assumption log 24); nothing
else changes (R2, R3, R93). That its acceptance carries nothing is the model's choice (assumption log 12). -/
def Obligations.LineSetStoresConfiguration : Prop :=
  ∀ (s : State) (tag : Byte) (l : LineId) (f : LineSetArgs), s.link.takesRequest = true → f.line = LineId.code l →
    (s.line l).state = .idle → LineSetNumbers f → LineSetRanges f → LineSetPairing s l f →
    ∃ t : State, exec (.lineSet tag f) s = .next (t.acceptedAs 0x06 tag []) ∧
      (t.line l).kind = (if f.kind = 1 then .net else .rope) ∧
      t.line l = { s.line l with kind := (t.line l).kind, cfg := (t.line l).cfg } ∧
      (t.line l).cfg.haulChannel.map Fin.val = f.haulChannel ∧ (t.line l).cfg.haulPitch = f.haulPitch ∧
      (t.line l).cfg.wheelChannel.map Fin.val = f.wheelChannel ∧
      (t.line l).cfg.wheelPitch = (if f.wheelChannel = none then none else f.wheelPitch) ∧
      (t.line l).cfg.authority = (if f.authority = 1 then .wheel else .haul) ∧
      (t.line l).cfg.slipWindow = f.slipWindow ∧ (t.line l).cfg.slipLimit = f.slipLimit ∧
      (t.line l).cfg.spliceChannel.map Fin.val = f.spliceChannel ∧
      (t.line l).cfg.spliceOffset = (if f.spliceChannel = none then none else f.spliceOffset) ∧
      (t.line l).cfg.spliceSpacing = (if f.spliceChannel = none then none else f.spliceSpacing) ∧
      (t.line l).cfg.shaftChannel.map Fin.val = (if f.kind = 1 then f.shaftChannel else none) ∧
      (t.line l).cfg.countsPerRev = (if f.kind = 1 then f.countsPerRev else none) ∧
      (t.line l).cfg.scanLink.map ScanLink.code = (if f.kind = 1 then f.scanLink else none) ∧
      (t.line l).cfg.boardCount = (if f.kind = 1 then f.boardCount else none) ∧
      (t.line l).cfg.knotOffset = (if f.kind = 1 then f.knotOffset else none) ∧
      (t.line l).cfg.markerPulse = f.markerPulse ∧ (t.line l).cfg.cutterPulse = f.cutterPulse ∧
      (t.line l).cfg.leader.map LineId.code = f.leader ∧
      (t.line l).cfg.pairTolerance = (if f.leader = none then 0 else f.pairTolerance) ∧
      (f.kind = 0 → t.knot l = KnotRec.powerOn) ∧ (f.kind = 1 → t.knot l = s.knot l) ∧
      (∀ x, x ≠ l → t.line x = s.line x ∧ t.knot x = s.knot x) ∧
      t = { s.entered 0x06 tag with lines := t.lines, knots := t.knots }

/-- LINE BIND of a full slot of the line's kind: of an IDLE line it binds at once; of a running line bound to the slot it
withdraws the pending recipe; else it makes the slot pending, if the recipe fits the line (R63). -/
def Obligations.LineBindBindsOrPends : Prop :=
  ∀ (s : State) (tag : Byte) (l : LineId) (n : Slot) (r : Recipe), s.link.takesRequest = true → s.recipe n = some r →
    r.kind = (s.line l).kind →
    ((s.line l).state ≠ .idle → (s.line l).bound ≠ some n →
      (∀ h u, (s.head h).settings = some u → u.line = l → (r.specFor u).isSome = true) ∧
      ((s.line l).kind = .net → ∀ k, r.knot = some k → k.columnsUsed ≤ 8 * (s.line l).cfg.boardCount.getD 0) ∧
      ((s.line l).cfg.spliceChannel = none ∨ r.endZone + r.plusTolerance ≤ (s.line l).cfg.spliceOffset.getD 0)) →
    ∃ t : State, exec (.lineBind tag (LineId.code l) (n.val + 1)) s =
        .next (t.acceptedAs 0x14 tag (encOptSlot (t.line l).bound ++ encOptSlot (t.line l).pendingRecipe)) ∧
      ((s.line l).state = .idle → t.line l = { s.line l with bound := some n, pendingRecipe := none }) ∧
      ((s.line l).state ≠ .idle → (s.line l).bound = some n → t.line l = { s.line l with pendingRecipe := none }) ∧
      ((s.line l).state ≠ .idle → (s.line l).bound ≠ some n → t.line l = { s.line l with pendingRecipe := some n }) ∧
      (∀ x, x ≠ l → t.line x = s.line x) ∧ t = { s.entered 0x14 tag with lines := t.lines }

/-! ## Runs -/

/-- An accepted RUN START opens the run at position 0 with the coil number held, empty lists, twist windows at 0 and each
head at its learned or start trim within the trim limit, once the copies evicted have been written back and reported with the
pending recipe applied. The line's channels have no period and no capture, its scan link is at rest, and a follower's cut
placement is dropped, with CUT_HELD; lanes, packing, the guard and what else other lines have stay (R7, R8, R29, R31, R65, R68
to R70, R83, R93, R94, R130). Where R7's conditions hold the run opens whatever else the state holds; the number
that RECIPE_APPLIED gives is stated where every valid copy is of a full slot, the law of R66 (LearnedLaw). -/
def Obligations.RunStartOpensRun : Prop :=
  ∀ (s : State) (tag : Byte) (l : LineId) (n : Slot) (r : Recipe), s.link.takesRequest = true → RunReady s l n r →
    ∃ (t : State) (warm : Bool), exec (.runStart tag (LineId.code l)) s =
        .next (t.acceptedAs 0x20 tag (enc32 (s.coilRec l).number ++ encBool warm)) ∧
      (warm = true ↔ (∃ h u, (s.head h).settings = some u ∧ u.line = l) ∧
        ∀ h u, (s.head h).settings = some u → u.line = l → (s.copy h).state ≠ .invalid ∧ (s.copy h).slot = some n) ∧
      t.line l = { s.line l with
        state := .running
        causes := .empty
        bound := some n
        pendingRecipe := none
        reverseClamp := false
        warmStart := warm } ∧
      t.pos l = ⟨0, (s.line l).cfg.wheelChannel.map fun _ => ⟨0, 0, 0⟩, firstMark 0 r, (s.pos l).markerPulse⟩ ∧
      t.coilRec l = { s.coilRec l with coil := some ⟨n, 0, 0, 0⟩, stage := .none, pairedHold := false } ∧
      ListsEmpty (t.spanRec l) ∧
      (∀ h u, (s.head h).settings = some u → u.line = l → ∃ q, r.specFor u = some q ∧
        let base := if (s.copy h).state ≠ .invalid ∧ (s.copy h).slot = some n then (s.copy h).learned else q.startTrim
        t.head h = ⟨some u, clampAbs r.trimLimit base, some ⟨0, 0, 0⟩, false, false, 0, none, none, none⟩ ∧
        t.copy h = ⟨some n, if clampAbs r.trimLimit base = q.startTrim then .clean else .dirty,
          clampAbs r.trimLimit base⟩) ∧
      (∀ h, (∀ u, (s.head h).settings = some u → u.line ≠ l) → t.head h = s.head h ∧
        (t.copy h).slot = (s.copy h).slot ∧ (t.copy h).learned = (s.copy h).learned) ∧
      Reloaded s t (fun h m => AssignedTo s h l ∧ m = n) ∧
      ((s.line l).kind = .net → t.knot l = KnotRec.powerOn) ∧ (∀ x, x ≠ l → t.knot x = s.knot x) ∧
      (∀ k, t.scanLink k = if (s.line l).kind = .net ∧ (s.line l).cfg.scanLink = some k then
        { s.scanLink k with gate := false, scan := none, chain := .normal } else s.scanLink k) ∧
      (∀ c, s.servedLine c = some l → t.channel c = { s.channel c with
        timerFrom := none
        lastPeriod := none
        capture := if (s.channel c).role = .splice then none else (s.channel c).capture }) ∧
      (∀ c, s.servedLine c ≠ some l → t.channel c = s.channel c) ∧
      (∀ x, x ≠ l → t.pos x = s.pos x ∧ t.spanRec x = s.spanRec x ∧ (t.coilRec x).coil = (s.coilRec x).coil) ∧
      (∀ x, x ≠ l → s.follower l = some x → t.coilRec x = { s.coilRec x with stage := .none } ∧
        ((∀ p, (s.coilRec x).stage ≠ .held p) → t.line x = s.line x) ∧
        ∀ p, (s.coilRec x).stage = .held p → t.line x = withoutCutHeld (s.line x)) ∧
      (∀ x, x ≠ l → s.follower l ≠ some x → t.coilRec x = s.coilRec x ∧ t.line x = s.line x) ∧
      ((s.line l).pendingRecipe = none → t.link = (s.entered 0x20 tag).link) ∧
      ((s.line l).pendingRecipe = some n → (∀ h, LearnedLaw s h) → ∃ written,
        CountsHeads written (fun h => ∃ m, Evicts s (fun h m => AssignedTo s h l ∧ m = n) h m) ∧
        t.link = ((s.entered 0x20 tag).notify (some l)
          (.recipeApplied (s.line l).bound n (s.coilRec l).number written true)).link) ∧
      t.lanes = s.lanes ∧ t.pack = s.pack ∧ t.completed = s.completed ∧ SameSurroundings s t ∧ t.recipe n = some r

/-- Accepted CUT NOW and RUN END of a line that cuts alone: the record closed, at the end of the lane queue and told by
COIL_CUT, and what the line is left with: the next coil at the cut, under the pending recipe if there is one, told by
RECIPE_APPLIED, with its heads' copies written back and loaded, their trims and limit counts, and the columns above its
columns used settled, and the scan links as they were; or an IDLE line, with its lists emptied, its heads' windows and
conditions cleared, its KS spans absent and its scan abandoned. The other lines stay, but for CUT_HELD of a follower with the
paired hold, and with the record appended a grant is evaluated (R10, R64, R69, R83, R93, R97, R100, R111, R121, R122, R128,
R133 to R137, R143, R147, R150). The number that RECIPE_APPLIED gives is stated where every valid copy is of a full slot, the
law of R66 (LearnedLaw). -/
def Obligations.CutClosesCoilOfLineAlone : Prop :=
  ∀ (s : State) (tag : Byte) (l : LineId) (c : OpenCoil) (r : Recipe), s.link.takesRequest = true → CutReady s l c r →
    (∀ f, s.follower l = some f → (s.line f).state = .idle) →
    (∃ (t : State) (x : CoilRecord), exec (.cutNow tag (LineId.code l)) s =
        .next (t.acceptedAs 0x25 tag (enc8 1 ++ (encLine l ++ enc32 x.number ++ enc32 x.length ++
          encCoilFlags x.flags))) ∧
      CutAlone (s.entered 0x25 tag) t l c r x ∧
      (x.flags.short = true ↔ (s.pos l).position - c.start < r.targetLength * 1000000) ∧ x.flags.cutShifted = false ∧
      (x.flags.endSplice = true ↔ SpliceNear s l r)) ∧
    ∃ (t : State) (x : CoilRecord), exec (.runEnd tag (LineId.code l)) s =
        .next (t.acceptedAs 0x21 tag (enc8 1 ++ (encLine l ++ enc32 x.number))) ∧
      ClosedFrom s l c r x ∧ x.partner = none ∧ x.flags.short = false ∧ x.flags.cutShifted = false ∧
      (x.flags.endSplice = true ↔ SpliceNear s l r) ∧ x.flags.endOfRun = true ∧ x.flags.paired = false ∧
      x.flags.pairMismatch = false ∧
      (t.lane l).queue.map unserved = (s.lane l).queue.map unserved ++ [x] ∧
      (∀ y, y ≠ l → (t.lane y).queue.map unserved = (s.lane y).queue.map unserved) ∧
      QueuedAndGranted s t (fun y => if y = l then [x] else []) ∧ RunsEnded s t [l] ∧
      (∀ y, y ≠ l → s.follower l = some y → (s.coilRec y).pairedHold = true →
        t.line y = withoutCutHeld (s.line y) ∧ t.coilRec y = { s.coilRec y with pairedHold := false }) ∧
      t.link = (cutTold (s.entered 0x21 tag) l x).link ∧
      t.channels = s.channels ∧ t.completed = s.completed ∧ SameSurroundings s t

/-- A cut of a leader whose follower runs closes both coils in one event, each at its own line's position: each record is
PAIRED with the other as partner, and PAIR_MISMATCH tells lengths that differ by more than the follower's tolerance; pending
recipes of both are applied, but at RUN END, where both runs end. RECIPE_APPLIED, and then COIL_CUT, are sent for the leader
and then for the follower, and a grant is evaluated (R10, R64, R69, R93, R104, R134, R136, R138, R139, R143, R147, R150).
That one grant is evaluated for the pair, after both records are appended, is deduced (assumption log 30), and so are that
the leader's entry stands first in the acceptance and its RECIPE_APPLIED before the follower's (assumption log 34). -/
def Obligations.PairedCutClosesBothCoils : Prop :=
  ∀ (s : State) (tag : Byte) (l f : LineId) (c d : OpenCoil) (r q : Recipe), s.link.takesRequest = true →
    CutReady s l c r → s.follower l = some f → (s.line f).state ≠ .idle → (s.lane f).queue.length < 3 →
    (s.coilRec f).cutterPulse = none → (s.coilRec f).coil = some d → s.recipe d.slot = some q →
    (∃ (t : State) (x y : CoilRecord), exec (.cutNow tag (LineId.code l)) s = .next (t.acceptedAs 0x25 tag
        (enc8 2 ++ (encLine l ++ enc32 x.number ++ enc32 x.length ++ encCoilFlags x.flags) ++
          (encLine f ++ enc32 y.number ++ enc32 y.length ++ encCoilFlags y.flags))) ∧
      CutPair (s.entered 0x25 tag) t l f c d r q x y ∧ t.runOpen l = true ∧ t.runOpen f = true ∧
      (x.flags.short = true ↔ (s.pos l).position - c.start < r.targetLength * 1000000) ∧ x.flags.cutShifted = false ∧
      (x.flags.endSplice = true ↔ SpliceNear s l r)) ∧
    ∃ (t : State) (x y : CoilRecord), exec (.runEnd tag (LineId.code l)) s = .next (t.acceptedAs 0x21 tag
        (enc8 2 ++ (encLine l ++ enc32 x.number) ++ (encLine f ++ enc32 y.number))) ∧
      PairClosed (s.entered 0x21 tag) t l f c d r q x y ∧ x.flags.endOfRun = true ∧ y.flags.endOfRun = true ∧
      RunsEnded s t [l, f] ∧ t.link = (cutTold (cutTold (s.entered 0x21 tag) l x) f y).link ∧
      x.flags.short = false ∧ x.flags.cutShifted = false ∧ (x.flags.endSplice = true ↔ SpliceNear s l r)

/-- The placement of a cut: at the nominal point if no known splice lies less than E from it, else at the smallest splice
plus E from there to the placement limit that no known splice conflicts with, else at the nominal point with END_SPLICE. The
cut test of a line places its cut at the nominal point, unless its leader runs, and a placed cut at or above its target is
HELD with a hold reason, told by CUT_HELD, and without one performed in the same event, with the flags of its placement, and
with a grant (R130 to R132, R134, R136, R138, R143, R147, R150). That CUT_HELD comes before STOP_REQUESTED, and the leader's STOP_REQUESTED and
RECIPE_APPLIED before the follower's, are deduced (assumption logs 23, 34), and so is that a pair is given one grant, after both
records (assumption log 30). -/
def Obligations.PlacementKeepsClearOfSplices : Prop :=
  (∀ (splices : List Nat) (C T E : Nat), splices.Pairwise (· ≤ ·) →
    let near : Nat → Prop := fun q => ∃ x ∈ splices, x < q + E ∧ q < x + E
    let qualifies : Nat → Prop := fun q => (∃ x ∈ splices, q = x + E) ∧ C ≤ q ∧ q ≤ C + T ∧ ¬near q
    let p := placementFor splices C T E
    (¬near C → p = ⟨C, false, false⟩) ∧
    (near C → (∃ q, qualifies q) → p.shifted = true ∧ p.endSplice = false ∧ qualifies p.target ∧
      ∀ q, qualifies q → p.target ≤ q) ∧
    (near C → (¬∃ q, qualifies q) → p = ⟨C, false, true⟩)) ∧
  ∀ (s : State) (l : LineId) (c : OpenCoil) (r : Recipe), (s.coilRec l).coil = some c → s.recipe c.slot = some r →
    (s.line l).state ≠ .idle →
    let nominal := c.start + r.targetLength * 1000000
    let ledByRun : Prop := ∃ x, (s.line l).cfg.leader = some x ∧ (s.line x).state ≠ .idle
    let t := s.testCut l
    (∀ p, (s.coilRec l).stage = .held p → t = s) ∧
    ((s.coilRec l).stage = .none → ledByRun ∨ (s.pos l).position < nominal → t = s) ∧
    ∀ p, (s.coilRec l).stage = .placed p ∨ ((s.coilRec l).stage = .none ∧ ¬ledByRun ∧ nominal ≤ (s.pos l).position ∧
        p = placementFor (s.spanRec l).splices nominal (r.plusTolerance * 1000000) (r.endZone * 1000000)) →
      ((s.pos l).position < p.target → t = { s with coils := t.coils } ∧
        t.coilRec l = { s.coilRec l with stage := .placed p } ∧ ∀ x, x ≠ l → t.coilRec x = s.coilRec x) ∧
      (p.target ≤ (s.pos l).position → HoldReason s l → (∀ f, s.follower l = some f → f ≠ l) →
        t.coilRec l = { s.coilRec l with stage := .held p } ∧ t.line l = afterOffer (s.line l) .cutHeld ∧
          HeldTold s t l p ∧
          (∀ f, s.follower l = some f → (s.line f).state ≠ .idle →
            t.line f = afterOffer (s.line f) .cutHeld ∧ t.coilRec f = { s.coilRec f with pairedHold := true }) ∧
          (∀ y, y ≠ l → s.follower l ≠ some y ∨ (s.line y).state = .idle →
            t.line y = s.line y ∧ t.coilRec y = s.coilRec y) ∧
          t = { s with coils := t.coils, lines := t.lines, link := t.link }) ∧
      (p.target ≤ (s.pos l).position → ¬HoldReason s l → CutAtPlacement s t l p c r)

/-- The tests a count brings act at their targets: a due mark is fired and counted, or under the latch suppressed and
counted; a head at its stall length stalls and offers FLYER_STALL; a due cut with a hold reason is HELD and offers CUT_HELD to
the line and to a running follower, with its notice and that of each stop (R5, R54 to R56, R90, R132, R143). That CUT_HELD comes
before STOP_REQUESTED, and the line's before the follower's, is deduced (assumption log 23). -/
def Obligations.CountTestsActAtTheirTargets : Prop :=
  (∀ (s : State) (l : LineId) (m : Nat) (c : OpenCoil) (r : Recipe), (s.pos l).markTarget = some m →
    (s.coilRec l).coil = some c → s.recipe c.slot = some r → let t := s.testMark l
    ((s.pos l).position < m → t = s) ∧
    (m ≤ (s.pos l).position →
      (t.pos l).markTarget = some (m + r.markInterval * 1000000) ∧ (t.pos l).position = (s.pos l).position ∧
      (s.guard.latch = false → (t.pos l).markerPulse = some (s.now + (s.line l).cfg.markerPulse * 1000) ∧
        (t.coilRec l).coil = some { c with marks := min 65535 (c.marks + 1) }) ∧
      (s.guard.latch = true → (t.pos l).markerPulse = (s.pos l).markerPulse ∧
        (t.coilRec l).coil = some { c with suppressed := min 65535 (c.suppressed + 1) }) ∧
      t = { s with positions := t.positions, coils := t.coils })) ∧
  (∀ (s : State) (l : LineId) (h : HeadId) (w : TwistWindow) (u : HeadSettings) (r : Recipe),
    (s.head h).window = some w → (s.head h).settings = some u → s.boundRecipe l = some r → (s.head h).stall = false →
    let t := s.testStall l h
    ((s.pos l).position - w.stallRef < r.stallLength * 1000000 → t = s) ∧
    (r.stallLength * 1000000 ≤ (s.pos l).position - w.stallRef →
      t.head h = { s.head h with stall := true } ∧ t.line l = afterOffer (s.line l) .flyerStall ∧
      t.spanRecs =
        (s.submit l .stall (.head h) (.openSpan (w.stallRef + u.offset * 1000000) none 0)).spanRecs ∧
      t.link = ((s.submit l .stall (.head h) (.openSpan (w.stallRef + u.offset * 1000000) none 0)).offerCause l
        .flyerStall).link ∧
      (∀ x, x ≠ h → t.head x = s.head x) ∧ (∀ x, x ≠ l → t.line x = s.line x) ∧
      t = { s with heads := t.heads, lines := t.lines, spanRecs := t.spanRecs, link := t.link })) ∧
  ∀ (s : State) (l : LineId) (p : Placement),
    (s.guard.latch = true ∨ 3 ≤ (s.lane l).queue.length ∨ (s.coilRec l).cutterPulse ≠ none ∨
      ∃ f, s.follower l = some f ∧ (s.line f).state ≠ .idle ∧
        (3 ≤ (s.lane f).queue.length ∨ (s.coilRec f).cutterPulse ≠ none)) →
    (∀ f, s.follower l = some f → f ≠ l) → let t := s.testDue l p
    ((s.pos l).position < p.target → t = s) ∧
    (p.target ≤ (s.pos l).position →
      t.coilRec l = { s.coilRec l with stage := .held p } ∧ t.line l = afterOffer (s.line l) .cutHeld ∧
      (∀ f, s.follower l = some f → (s.line f).state ≠ .idle →
        t.line f = afterOffer (s.line f) .cutHeld ∧ t.coilRec f = { s.coilRec f with pairedHold := true }) ∧
      HeldTold s t l p ∧
      (∀ y, y ≠ l → s.follower l ≠ some y ∨ (s.line y).state = .idle → t.line y = s.line y ∧ t.coilRec y = s.coilRec y) ∧
      t = { s with coils := t.coils, lines := t.lines, link := t.link })

/-! ## Stops, resets and the guard -/

/-- LINE STOP adds HOST to the set of a line with a run open, under the guard latch too; a RUNNING line moves to
STOP_REQUESTED with its notice; for an IDLE line it is refused BAD_STATE (R11). -/
def Obligations.LineStopAddsHost : Prop :=
  ∀ (s : State) (tag : Byte) (l : LineId), s.link.takesRequest = true →
    ((s.line l).state = .idle →
      exec (.lineStop tag (LineId.code l)) s = .next ((s.entered 0x22 tag).refused tag ⟨.badState, 0⟩).chooseFrame) ∧
    ((s.line l).state ≠ .idle → ∃ t u : State, exec (.lineStop tag (LineId.code l)) s =
        .next (t.acceptedAs 0x22 tag (enc8 LineState.stopRequested.code ++ encCauses ((s.line l).causes.add .host))) ∧
      u.line l = { s.line l with state := .stopRequested, causes := (s.line l).causes.add .host } ∧
      (∀ x, x ≠ l → u.line x = s.line x) ∧ u = { s.entered 0x22 tag with lines := u.lines } ∧
      ((s.line l).state = .stopRequested → t = u) ∧
      ((s.line l).state = .running →
        t = u.notify (some l) (.stopRequested .host ((s.line l).causes.add .host))))

/-- LINE RESUME with the latch clear leaves the causes whose conditions are still present, cause by cause as `CausePresent`
states them, and a line without one returns to RUNNING; of a RUNNING line it changes nothing (R6, R12, R76). -/
def Obligations.LineResumeLeavesPresentCauses : Prop :=
  ∀ (s : State) (tag : Byte) (l : LineId), s.link.takesRequest = true → s.guard.latch = false →
    (s.line l).state ≠ .idle →
    ∃ t : State, exec (.lineResume tag (LineId.code l)) s =
        .next (t.acceptedAs 0x23 tag (enc8 (t.line l).state.code ++ encCauses (t.line l).causes)) ∧
      ((s.line l).state = .running → t = s.entered 0x23 tag) ∧
      ((s.line l).state = .stopRequested →
        (∀ x, (t.line l).causes.has x = true ↔ (s.line l).causes.has x = true ∧ CausePresent s l x) ∧
        ((t.line l).causes = .empty → (t.line l).state = .running) ∧
        ((t.line l).causes ≠ .empty → (t.line l).state = .stopRequested) ∧
        t.line l = { s.line l with state := (t.line l).state, causes := (t.line l).causes }) ∧
      (∀ x, x ≠ l → t.line x = s.line x) ∧ t = { s.entered 0x23 tag with lines := t.lines }

/-- LINE RESET in every state: the line is IDLE with at most GUARD in its set, its coil discarded without a record and its
number kept, its position 0, its lists empty, its heads' copies invalidated and, with the latch clear, their trims 0; its own
lane queue and pulses are kept. A NET line's scan is abandoned without judging its row and its gate released. A follower with
the paired hold of the line's held cut is released, and the held cut of its leader is tested again (R13, R83, R104, R133,
R134, R138); what a pair so cut has beyond the spec's words is deduced (assumption logs 30, 34). That its acceptance carries
nothing is the model's choice (assumption log 12). -/
def Obligations.LineResetDiscardsRun : Prop :=
  ∀ (s : State) (tag : Byte) (l : LineId), s.link.takesRequest = true →
    ∃ t u : State, exec (.lineReset tag (LineId.code l)) s = .next (t.acceptedAs 0x24 tag []) ∧
      t.line l = { s.line l with
        state := .idle
        causes := { CauseSet.empty with guard := (s.line l).causes.guard }
        reverseClamp := false
        warmStart := false } ∧
      t.pos l = ⟨0, none, none, (s.pos l).markerPulse⟩ ∧
      t.coilRec l = ⟨(s.coilRec l).number, none, .none, false, (s.coilRec l).cutterPulse⟩ ∧
      ListsEmpty (t.spanRec l) ∧ ((s.line l).kind = .net → t.knot l = KnotRec.powerOn) ∧
      (∀ h u, (s.head h).settings = some u → u.line = l → t.copy h = ⟨none, .invalid, 0⟩ ∧
        t.head h = ⟨some u, if s.guard.latch then (s.head h).trim else 0, none, false, false, 0, none, none, none⟩) ∧
      (t.lane l).queue.map unserved = (s.lane l).queue.map unserved ∧ t.channels = s.channels ∧
      t.completed = s.completed ∧ SameSurroundings s t ∧
      (∀ x, (t.pos x).position = if x = l then 0 else (s.pos x).position) ∧
      u = { s.entered 0x24 tag with
        lines := u.lines, positions := u.positions, copies := u.copies, heads := u.heads, knots := u.knots
        linkK1 := u.linkK1, linkK2 := u.linkK2, spanRecs := u.spanRecs, coils := u.coils } ∧
      (∀ h, (∀ v, (s.head h).settings = some v → v.line ≠ l) → u.head h = s.head h ∧ u.copy h = s.copy h) ∧
      (∀ x, x ≠ l → u.pos x = s.pos x ∧ u.spanRec x = s.spanRec x ∧ u.knot x = s.knot x) ∧
      ((s.line l).kind = .rope → u.knot l = s.knot l) ∧
      (∀ k, u.scanLink k = if (s.line l).kind = .net ∧ (s.line l).cfg.scanLink = some k then
        { s.scanLink k with gate := false, scan := none } else s.scanLink k) ∧
      (∀ f, f ≠ l → (∃ p, (s.coilRec l).stage = .held p) → s.follower l = some f → (s.coilRec f).pairedHold = true →
        u.line f = withoutCutHeld (s.line f) ∧ u.coilRec f = { s.coilRec f with pairedHold := false }) ∧
      (∀ f, f ≠ l → (∀ p, (s.coilRec l).stage ≠ .held p) ∨ s.follower l ≠ some f ∨ (s.coilRec f).pairedHold = false →
        u.line f = s.line f ∧ u.coilRec f = s.coilRec f) ∧
      ((s.line l).cfg.leader = none → t = u) ∧ ∀ x, (s.line l).cfg.leader = some x → Retested u t x

/-- The guard event, from the input becoming active while armed or from GUARD ARM with the input active: the latch is
set, GUARD joins every set, marker and cutter outputs are released, the packing head goes to GUARDED with its service
in abeyance, and GUARD tells the lines moved. Without it only the level and the arming change (R15 to R17, R20, R158). GUARD_EVENT and GUARD_INPUT_CHANGE of
the same input act alike (assumption log 11), that a band in progress keeps its restarts is noted (assumption log 27), and the
acceptance of GUARD ARM sends an active input as 1 (assumption log 44). -/
def Obligations.GuardEventReleasesOutputs : Prop :=
  ∀ (s : State) (tag : Byte) (held : Nat), 2 ≤ held →
    let moved := LineId.all.filter fun l => decide ((s.line l).state = .running)
    let latched := fun (t : State) (told : Link) =>
      t.guard.latch = true ∧ t.guard.inputActive = true ∧ t.guard.armed = true ∧
      (∀ l, t.line l = afterOffer (s.line l) .guard ∧ t.pos l = { s.pos l with markerPulse := none } ∧
        t.coilRec l = { s.coilRec l with cutterPulse := none }) ∧
      (s.pack.state = .held ∨ s.pack.state = .guarded ∨ s.pack.state = .fault → t.pack = s.pack) ∧
      (¬(s.pack.state = .held ∨ s.pack.state = .guarded ∨ s.pack.state = .fault) → t.pack = { s.pack with
        state := .guarded
        position := if s.pack.state = .travel then none else s.pack.position
        bandRepeats := decide (s.pack.state = .banding) || (decide (s.pack.state = .suspended) && s.pack.bandRepeats)
        abeyance := s.pack.attached.bind fun l => s.pack.step.map fun k => (l, k)
        attached := none
        step := none
        arrivalStep := none
        stepTimer := none
        suspendPending := false }) ∧
      t.travelOut = false ∧ t.strapOut = false ∧ t.labelOut = false ∧ t.link = told ∧
      t = { s with guard := t.guard, lines := t.lines, positions := t.positions, coils := t.coils, pack := t.pack,
                   link := t.link }
    (s.guard = ⟨false, true, false⟩ →
      ∃ t : State, exec (.guardEvent held) s = .next t ∧ exec (.guardInputChange true held) s = .next t ∧
        latched t (s.notify none (.guardSet moved)).chooseFrame.link) ∧
    (s.guard ≠ ⟨false, true, false⟩ → ∃ t : State, exec (.guardEvent held) s = .next t ∧
      exec (.guardInputChange true held) s = .next t ∧
      t = ({ s with guard := { s.guard with inputActive := true } } : State).chooseFrame) ∧
    exec (.guardInputChange false held) s =
      .next ({ s with guard := { s.guard with inputActive := false } } : State).chooseFrame ∧
    (s.link.takesRequest = true → ∃ t : State, exec (.guardArm tag) s =
        .next (t.acceptedAs 0x2B tag (encBool true ++ encBool s.guard.inputActive ++ encBool t.guard.latch)) ∧
      (s.guard.inputActive = true → s.guard.latch = false →
        latched t ((s.entered 0x2B tag).notify none (.guardSet moved)).link) ∧
      (s.guard.inputActive = false ∨ s.guard.latch = true →
        t = { s.entered 0x2B tag with guard := { s.guard with armed := true } }))

/-- GUARD CLEAR: with the latch clear nothing changes; with it set and the input active it is refused; with it set and the
input inactive it is accepted, the latch is cleared, GUARD leaves every set and a GUARDED head is SUSPENDED with its service
attached again. Where the head is GUARDED, HELD or in FAULT under the latch, an invariant (HeadGuarded), the notice of the
suspension is sent and the held cut of each line that has one is tested again, which moves no line but that one and a
follower with its paired hold, or cut with it. Where no cut is held no line leaves its state (R18, R133, R134, R138, R158,
R160). The order among the held cuts is free (assumption log 18); that a line left with no cause by its cut returns to
RUNNING, that the clearing is reported last, and that the leader's RECIPE_APPLIED of a pair so cut comes before the
follower's, are deduced (assumption logs 29, 35 and 34). That both acceptances carry nothing is the model's choice
(assumption log 12). That SUSPENDED carries the attached lane in its header and again among its fields is the model's choice
(assumption log 55). -/
def Obligations.GuardClearSuspendsHead : Prop :=
  ∀ (s : State) (tag : Byte), s.link.takesRequest = true →
    (s.guard.latch = false → exec (.guardClear tag) s = .next ((s.entered 0x2C tag).acceptedAs 0x2C tag [])) ∧
    (s.guard.latch = true → s.guard.inputActive = true →
      exec (.guardClear tag) s = .next ((s.entered 0x2C tag).refused tag ⟨.badState, 0⟩).chooseFrame) ∧
    (s.guard.latch = true → s.guard.inputActive = false →
      ∃ t : State, exec (.guardClear tag) s = .next (t.acceptedAs 0x2C tag []) ∧
        t.guard = { s.guard with latch := false } ∧ (∀ l, (t.line l).causes.guard = false) ∧
        (s.pack.state = .guarded → t.pack = { s.pack with
          state := .suspended
          attached := s.pack.abeyance.map Prod.fst
          step := s.pack.abeyance.map Prod.snd
          abeyance := none }) ∧
        (s.pack.state = .held ∨ s.pack.state = .fault → t.pack = s.pack) ∧
        (∀ l, (t.pos l).position = (s.pos l).position) ∧
        (HeadGuarded s → ∃ (u v : State) (order : List LineId),
          (∀ l, u.line l = { s.line l with causes := (s.line l).causes.drop .guard }) ∧
          u.guard = { s.guard with latch := false } ∧ u.pack = t.pack ∧
          u = { s.entered 0x2C tag with
            guard := u.guard, lines := u.lines, pack := u.pack, link := u.link, choices := u.choices } ∧
          (s.pack.state = .guarded → u.link = ((s.entered 0x2C tag).notify (s.pack.abeyance.map Prod.fst)
            (.suspended .guard (s.pack.abeyance.map Prod.fst) (s.pack.abeyance.map Prod.snd))).link) ∧
          (s.pack.state ≠ .guarded → u.link = (s.entered 0x2C tag).link) ∧
          order.Nodup ∧ (∀ l, l ∈ order ↔ ∃ p, (s.coilRec l).stage = .held p) ∧ RetestedAll order u v ∧
          t = v.notify none .guardCleared) ∧
        ((∀ l p, (s.coilRec l).stage ≠ .held p) →
          (∀ l, t.line l = { s.line l with causes := (s.line l).causes.drop .guard }) ∧
          t = { s with guard := t.guard, lines := t.lines, pack := t.pack, link := t.link }))

/-- Under the guard latch RUN START of an IDLE line, RUN END, CUT NOW and LINE RESUME of a running line without a running
leader, and PACK RESUME of a GUARDED head are refused GUARDED and change nothing else (R19, R137, R156). -/
def Obligations.GuardLatchRefusesRequests : Prop :=
  ∀ (s : State) (tag : Byte) (l : LineId), s.link.takesRequest = true → s.guard.latch = true →
    let turnedAway : Byte → Host.Outcome State Fault Refusal := fun kind =>
      .next ((s.entered kind tag).refused tag ⟨.guarded, 0⟩).chooseFrame
    ((s.line l).state = .idle → exec (.runStart tag (LineId.code l)) s = turnedAway 0x20) ∧
    ((s.line l).state ≠ .idle → exec (.lineResume tag (LineId.code l)) s = turnedAway 0x23) ∧
    ((s.line l).state ≠ .idle → (∀ x, (s.line l).cfg.leader = some x → (s.line x).state = .idle) →
      exec (.runEnd tag (LineId.code l)) s = turnedAway 0x21 ∧
      exec (.cutNow tag (LineId.code l)) s = turnedAway 0x25) ∧
    (s.pack.state = .guarded → exec (.packResume tag) s = turnedAway 0x29)

/-- At the end of a pulse the time base has reached its end instant and the output is released; a cutter pulse's end
tests the held cuts of the line and its leader again, and changes nothing else where none is held (R55, R133 to R135, R138,
R147, R150). That the command moves the time base is the model's choice (assumption log 3); that a pair cut then has one grant,
and its leader's RECIPE_APPLIED first, is deduced (assumption logs 30, 34). -/
def Obligations.PulseEndReleasesOutput : Prop :=
  ∀ (s : State) (l : LineId) (e : Nat),
    ((s.pos l).markerPulse = some e → ∃ t : State, exec (.markerPulseEnd l) s = .next t.chooseFrame ∧
      t.markerOut l = false ∧ t.now = (if s.now < e then e else s.now) ∧ t.pos l = { s.pos l with markerPulse := none } ∧
      (∀ x, x ≠ l → t.pos x = s.pos x) ∧
      t = { s with positions := t.positions, now := t.now, drivenDuty := t.drivenDuty }) ∧
    ((s.coilRec l).cutterPulse = some e → ∃ t u : State, exec (.cutterPulseEnd l) s = .next t.chooseFrame ∧
      t.now = (if s.now < e then e else s.now) ∧ t.guard = s.guard ∧ t.pending = s.pending ∧
      (∀ x, (t.pos x).position = (s.pos x).position) ∧
      u = { s with coils := u.coils, now := u.now, drivenDuty := u.drivenDuty } ∧ u.now = t.now ∧
      u.cutterOut l = false ∧ u.coilRec l = { s.coilRec l with cutterPulse := none } ∧
      (∀ x, x ≠ l → u.coilRec x = s.coilRec x) ∧ RetestedAround u t l ∧
      ((∀ p, (s.coilRec l).stage ≠ .held p) →
        (∀ x, (s.line l).cfg.leader = some x → ∀ p, (s.coilRec x).stage ≠ .held p) → t = u))

/-! ## The Recipe Store -/

/-- An accepted RECIPE STORE replaces the slot's contents with the recipe carried and invalidates every valid copy of the
slot without write-back, and tells how many; trims, other slots and other copies stay (R58 to R60, R73). -/
def Obligations.RecipeStoreReplacesSlot : Prop :=
  ∀ (s : State) (tag : Byte) (n : Slot) (f : RecipeArgs), s.link.takesRequest = true → RecipeInRange f → SlotFree s n →
    ∃ (t : State) (r : Recipe) (gone : Nat), exec (.recipeStore tag (n.val + 1) f) s =
        .next (t.acceptedAs 0x10 tag (enc8 (n.val + 1) ++ encName f.name ++ enc8 gone)) ∧
      CountsHeads gone (Holder s n) ∧
      t.recipe n = some r ∧ r.name = f.name ∧ r.kind = (if f.kind = 1 then .net else .rope) ∧
      (∀ p : StrandPos, ((f.positions.get p).target = none → r.positions.get p = none) ∧
        ((f.positions.get p).target ≠ none → ∃ q, r.positions.get p = some q ∧
          f.positions.get p = ⟨some q.target, some q.hand.code, some q.startTrim⟩)) ∧
      r.trimLimit = f.trimLimit ∧ r.gain = f.gain ∧ r.slew = f.slew ∧ r.tolerance = f.tolerance ∧ r.window = f.window ∧
      r.stallLength = f.stallLength ∧ r.limitWindows = f.limitWindows ∧ r.targetLength = f.targetLength ∧
      r.plusTolerance = f.plusTolerance ∧ r.endZone = f.endZone ∧ r.markInterval = f.markInterval ∧
      r.bandCount = f.bandCount ∧ (f.kind = 0 → r.knot = none) ∧
      (f.kind = 1 → ∃ k, r.knot = some k ∧ f.columnsUsed = some k.columnsUsed ∧ f.gateOpen = some k.gateOpen ∧
        f.gateClose = some k.gateClose ∧ f.breakThreshold = some k.breakThreshold ∧ f.meshPitch = some k.meshPitch ∧
        f.meshTolerance = some k.meshTolerance ∧ f.stopOnBreak = some k.stopOnBreak.toNat) ∧
      (∀ h, Holder s n h → t.copy h = ⟨none, .invalid, 0⟩) ∧ (∀ h, ¬Holder s n h → t.copy h = s.copy h) ∧
      (∀ m, m ≠ n → t.recipe m = s.recipe m) ∧ t = { s.entered 0x10 tag with slots := t.slots, copies := t.copies }

/-- RECIPE FLUSH writes the learned trim of every DIRTY copy of the slot into its strand position, the highest-numbered head
last, and re-marks every copy of the slot; RECIPE PURGE of a slot not in use does the same and then invalidates every copy;
nothing else changes. The acceptances tell how many copies were written back, and how many are left DIRTY or were invalidated
(R67, R69 to R73). -/
def Obligations.FlushAndPurgeWriteDirtyCopiesBack : Prop :=
  ∀ (s : State) (tag : Byte) (n : Slot) (r : Recipe), s.link.takesRequest = true → s.recipe n = some r →
    ∃ (t : State) (q : Recipe) (written left : Nat), exec (.recipeFlush tag (n.val + 1)) s =
        .next (t.acceptedAs 0x12 tag (enc8 (n.val + 1) ++ enc8 written ++ enc8 left)) ∧
      CountsHeads written (DirtyHolder s n) ∧ CountsHeads left (DirtyHolder t n) ∧
      t.recipe n = some q ∧ q = { r with positions := q.positions } ∧
      (∀ p : StrandPos, (q.positions.get p).map (fun x => (x.target, x.hand)) =
        (r.positions.get p).map (fun x => (x.target, x.hand))) ∧
      (∀ h u, DirtyHolder s n h → (s.head h).settings = some u → (r.specFor u).isSome = true →
        (∀ g v, h < g → DirtyHolder s n g → (s.head g).settings = some v → v.position ≠ u.position) →
        (q.specFor u).map (·.startTrim) = some (s.copy h).learned) ∧
      (∀ p : StrandPos, (∀ h u, DirtyHolder s n h → (s.head h).settings = some u → u.position ≠ p) →
        q.positions.get p = r.positions.get p) ∧
      (∀ h, Holder s n h → t.copy h = ⟨some n, if t.startTrim n h = some (s.copy h).learned then .clean else .dirty,
        (s.copy h).learned⟩) ∧
      (∀ h, ¬Holder s n h → t.copy h = s.copy h) ∧ (∀ m, m ≠ n → t.recipe m = s.recipe m) ∧
      t = { s.entered 0x12 tag with slots := t.slots, copies := t.copies } ∧
      (SlotFree s n → ∃ (u : State) (gone : Nat), exec (.recipePurge tag (n.val + 1)) s =
          .next (u.acceptedAs 0x13 tag (enc8 (n.val + 1) ++ enc8 written ++ enc8 gone)) ∧
        CountsHeads gone (Holder s n) ∧
        u.slots = t.slots ∧ (∀ h, Holder s n h → u.copy h = ⟨none, .invalid, 0⟩) ∧
        (∀ h, ¬Holder s n h → u.copy h = s.copy h) ∧
        u = { s.entered 0x13 tag with slots := u.slots, copies := u.copies })

/-! ## The Packing Arbiter -/

/-- LANE SET of a DISABLED lane, PACK SET with no lane ENABLED and the head FREE, and PACK MODE store their settings
and change nothing else (R145, R150). What their acceptances carry follows assumption log 12, and that PACK MODE evaluates no
grant is the model's choice (deduced, assumption log 41). -/
def Obligations.PackingSettingsAreStored : Prop :=
  ∀ (s : State) (tag : Byte), s.link.takesRequest = true →
    (∀ (l : LineId) (label : Bool) (limit : Nat), (s.lane l).enable = .disabled → 1 ≤ limit → limit ≤ 60 →
      ∃ t : State, exec (.laneSet tag (LineId.code l) label.toNat limit) s =
          .next (t.acceptedAs 0x07 tag (encBool label ++ enc8 limit)) ∧
        t.lane l = { s.lane l with labelRequired := label, travelLimit := limit } ∧
        (∀ x, x ≠ l → t.lane x = s.lane x) ∧ t = { s.entered 0x07 tag with lanes := t.lanes }) ∧
    (∀ band label : Nat, (∀ l, (s.lane l).enable ≠ .enabled) → s.pack.state = .free → 1 ≤ band → band ≤ 30 → 1 ≤ label →
      label ≤ 30 →
      exec (.packSet tag band label) s = .next (({ s.entered 0x08 tag with
        pack := { s.pack with bandTimeout := band, labelTimeout := label } } : State).acceptedAs 0x08 tag
          (enc8 band ++ enc8 label))) ∧
    ∀ m : GrantMode, exec (.packMode tag m.code) s =
      .next (({ s.entered 0x09 tag with pack := { s.pack with mode := m } } : State).acceptedAs 0x09 tag [])

/-- LANE ENABLE enables a lane and evaluates a grant, or withdraws a pending disable; LANE DISABLE disables a lane at once,
or at the end of its present service; a COIL READY input that becomes active evaluates a grant, and one that becomes inactive
rearms its lane (R144, R146, R147). That these two events change nothing while the input already has that level is deduced
(assumption log 11). -/
def Obligations.LaneEventsEnableAndRearm : Prop :=
  ∀ (s : State) (tag : Byte) (l : LineId) (held : Nat), 2 ≤ held →
    (s.link.takesRequest = true → ∃ (t u : State) (code : Nat), exec (.laneEnable tag (LineId.code l)) s =
        .next (t.acceptedAs 0x26 tag (enc8 code ++ encBool (t.lane l).disablePending)) ∧ LaneReports t l code ∧
      ((s.lane l).enable = .enabled → t = u ∧ u.lane l = { s.lane l with disablePending := false }) ∧
      ((s.lane l).enable ≠ .enabled → t = u.evaluateGrant ∧ u.lane l = { s.lane l with enable := .enabled }) ∧
      (∀ x, x ≠ l → u.lane x = s.lane x) ∧ u = { s.entered 0x26 tag with lanes := u.lanes }) ∧
    (s.link.takesRequest = true → ∃ (t : State) (code : Nat), exec (.laneDisable tag (LineId.code l)) s =
        .next (t.acceptedAs 0x27 tag (enc8 code ++ encBool (t.lane l).disablePending)) ∧ LaneReports t l code ∧
      ((s.lane l).enable = .enabled → (s.pack.attached = some l ∨ ∃ k, s.pack.abeyance = some (l, k)) →
        t.lane l = { s.lane l with disablePending := true }) ∧
      (¬((s.lane l).enable = .enabled ∧ (s.pack.attached = some l ∨ ∃ k, s.pack.abeyance = some (l, k))) →
        t.lane l = { s.lane l with enable := .disabled }) ∧
      (∀ x, x ≠ l → t.lane x = s.lane x) ∧ t = { s.entered 0x27 tag with lanes := t.lanes }) ∧
    (∃ u : State, u = { s with lanes := u.lanes } ∧ u.lane l = { s.lane l with coilReady := true } ∧
      (∀ x, x ≠ l → u.lane x = s.lane x) ∧ exec (.coilReadyActive l held) s =
        .next (if (s.lane l).coilReady then s else u.evaluateGrant).chooseFrame) ∧
    ∃ u : State, u = { s with lanes := u.lanes } ∧ exec (.coilReadyInactive l held) s = .next u.chooseFrame ∧
      u.lane l = (if (s.lane l).coilReady then { s.lane l with coilReady := false, rearmed := true } else s.lane l) ∧
      ∀ x, x ≠ l → u.lane x = s.lane x

/-- A grant is evaluated for a FREE head alone: HOLD REQ goes first; else the first requesting lane of the mode's order is
attached, its place in the completed coil list reserved and its front record's attempt counted, and the head starts band 1
at the lane or travels to it. Restarts in band are 0 from the start of band 1, and stand until then (R147, R150 to R152). That
hold pending ends with the hold granted is deduced, and so is what restarts in band hold between bands (assumption logs 26,
27). -/
def Obligations.GrantServesFirstRequestingLane : Prop :=
  ∀ s : State, let t := s.evaluateGrant
    (s.pack.state ≠ .free → t = s) ∧
    (s.pack.state = .free → s.pack.holdReq = true →
      t = { s with pack := { s.pack with state := .held, position := none, holdPending := false } }) ∧
    (s.pack.state = .free → s.pack.holdReq = false → (∀ l, ¬Requests s l) → t = s) ∧
    (s.pack.state = .free → s.pack.holdReq = false →
      (∃ x, Requests s x ∧ (s.pack.mode = .rotating → x ∈ s.pack.rotation)) →
      ∃ (l : LineId) (r : CoilRecord) (rest : List CoilRecord), Requests s l ∧ (s.lane l).queue = r :: rest ∧
        (s.pack.mode = .fixed →
          (∀ x, LineId.code x < LineId.code l → ¬Requests s x) ∧ t.pack.rotation = s.pack.rotation) ∧
        (s.pack.mode = .rotating → ∃ before after, s.pack.rotation = before ++ l :: after ∧
          (∀ x ∈ before, ¬Requests s x) ∧ t.pack.rotation = before ++ after ++ [l]) ∧
        t.lane l = { s.lane l with queue := { r with attempts := min 255 (r.attempts + 1), bandsDone := 0 } :: rest } ∧
        (∀ x, x ≠ l → t.lane x = s.lane x) ∧ t.pack.reserved = 1 ∧ t.pack.attached = some l ∧
        t.pack.bandRepeats = false ∧
        (s.pack.position = some l → t.pack.state = .banding ∧ t.pack.step = some (.band 1) ∧ t.pack.restarts = 0 ∧
          t.pack.stepTimer = some (s.now + s.pack.bandTimeout * 1000000)) ∧
        (s.pack.position ≠ some l → t.pack.state = .travel ∧ t.pack.step = some .travel ∧
          t.pack.restarts = s.pack.restarts ∧
          t.pack.arrivalStep = some (.band 1) ∧ t.laneSelectOut l = true ∧
          t.pack.stepTimer = some (s.now + (s.lane l).travelLimit * 1000000)) ∧
        t.pack.position = s.pack.position ∧ t = { s with lanes := t.lanes, pack := t.pack })

/-- HEAD_AT_LANE brings a travelling head to its arrival step; BAND_DONE counts the band and goes on to the next, to the
label or to the end of the service; LABEL_DONE ends the service, and the record moves with its pack time to the completed
coil list, told by COIL_PACKED; the held cuts that the room in the lane queue can release are tested again. A pending
suspension takes effect at each of these steps, told by SUSPENDED; else a grant is evaluated at the end (R133, R138, R147,
R150 to R153, R155, R160). In states that do not await them these events, and CLAMP_SLIP, change nothing (R152; deduced for
the others, assumption log 11). Restarts in band are 0 from the start of a band, but for one that the guard event broke off
(R152, R156). HEAD_AT_LANE is the arrival of a travelling head (assumption log 28), what restarts in band hold between bands
is deduced (assumption log 27), the order of the end's two tasks is free (assumption log 18), and that a pair whose held cut
is then performed has one grant, and its leader's RECIPE_APPLIED first, is deduced (assumption logs 30, 34). That SUSPENDED
carries the attached lane in its header and again among its fields is the model's choice (assumption log 55). -/
def Obligations.ServiceRunsBandsAndPacksRecord : Prop :=
  (∀ (s : State) (held : Nat),
    (s.pack.state ≠ .travel → exec (.headAtLane held) s = .next s.chooseFrame) ∧
    (s.pack.state ≠ .banding → exec (.bandDone held) s = .next s.chooseFrame ∧
      exec (.clampSlip held) s = .next s.chooseFrame) ∧
    (s.pack.state ≠ .labelling → exec (.labelDone held) s = .next s.chooseFrame)) ∧
  ∀ (s : State) (l : LineId) (held : Nat), 2 ≤ held → s.pack.attached = some l →
    let suspendedFrom := fun k : PackStep => (s.notify (some l) (.suspended .host (some l) (some k))).chooseFrame.link
    (s.pack.state = .travel → ∀ k, s.pack.arrivalStep = some (.band k) → ∃ t : State, exec (.headAtLane held) s = .next t ∧
      (s.pack.suspendPending = false → t = ({ s with pack := { s.pack with
        position := some l, state := .banding, step := some (.band k), arrivalStep := none
        restarts := carriedRestarts s.pack, bandRepeats := false
        stepTimer := some (s.now + s.pack.bandTimeout * 1000000) } } : State).chooseFrame) ∧
      (s.pack.suspendPending = true → t.pack = { s.pack with
        position := some l, state := .suspended, step := some (.band k), arrivalStep := none, stepTimer := none
        suspendPending := false } ∧ t.link = suspendedFrom (.band k) ∧ t = { s with pack := t.pack, link := t.link })) ∧
    (s.pack.state = .travel → s.pack.arrivalStep = some .label → s.pack.suspendPending = false →
      exec (.headAtLane held) s = .next ({ s with pack := { s.pack with
        position := some l, state := .labelling, step := some .label, arrivalStep := none
        stepTimer := some (s.now + s.pack.labelTimeout * 1000000) } } : State).chooseFrame) ∧
    (s.pack.state = .travel → s.pack.arrivalStep = some .label → s.pack.suspendPending = true →
      ∃ t : State, exec (.headAtLane held) s = .next t ∧ t.pack = { s.pack with
        position := some l, state := .suspended, step := some .label, arrivalStep := none, stepTimer := none
        suspendPending := false } ∧ t.link = suspendedFrom .label ∧ t = { s with pack := t.pack, link := t.link }) ∧
    (∀ (k : Nat) (r : CoilRecord) (rest : List CoilRecord), s.pack.state = .banding → s.pack.step = some (.band k) →
      (s.lane l).queue = r :: rest →
      (k < r.bandCount ∨ (s.lane l).labelRequired = true → ∃ t : State, exec (.bandDone held) s = .next t ∧
        t.lane l = { s.lane l with queue := { r with bandsDone := r.bandsDone + 1 } :: rest } ∧
        (∀ x, x ≠ l → t.lane x = s.lane x) ∧ t.pack.attached = some l ∧
        t.pack.step = some (if k < r.bandCount then .band (k + 1) else .label) ∧
        (s.pack.suspendPending = true →
          t.pack.state = .suspended ∧ t.pack.stepTimer = none ∧ t.pack.restarts = s.pack.restarts ∧
          t.link = suspendedFrom (if k < r.bandCount then .band (k + 1) else .label)) ∧
        (s.pack.suspendPending = false → t.link = s.chooseFrame.link) ∧
        (s.pack.suspendPending = false → k < r.bandCount →
          t.strapOut = true ∧ t.pack.stepTimer = some (s.now + s.pack.bandTimeout * 1000000) ∧
          t.pack.restarts = carriedRestarts s.pack ∧ t.pack.bandRepeats = false) ∧
        (s.pack.suspendPending = false → ¬k < r.bandCount →
          t.labelOut = true ∧ t.pack.stepTimer = some (s.now + s.pack.labelTimeout * 1000000) ∧
          t.pack.restarts = s.pack.restarts) ∧
        t = { s with lanes := t.lanes, pack := t.pack, link := t.link }) ∧
      (¬k < r.bandCount → (s.lane l).labelRequired = false → ∃ t : State, exec (.bandDone held) s = .next t.chooseFrame ∧
        t.completed = s.completed ++ [{ r with bandsDone := r.bandsDone + 1, packTime := some s.stamp }] ∧
        ServiceEnds s t l { r with bandsDone := r.bandsDone + 1, packTime := some s.stamp } rest)) ∧
    ∀ (r : CoilRecord) (rest : List CoilRecord), s.pack.state = .labelling → (s.lane l).queue = r :: rest →
      ∃ t : State, exec (.labelDone held) s = .next t.chooseFrame ∧
        t.completed = s.completed ++ [{ r with packTime := some s.stamp }] ∧
        ServiceEnds s t l { r with packTime := some s.stamp } rest

/-- The station's faults: a step timer that runs out in TRAVEL, BANDING or LABELLING, and the fourth clamp slip of a band.
The head enters FAULT, the attached lane is FAULTED with its queue kept. A slip before that restarts the band. A fault is
told by HEAD_FAULT with its kind, the step, the front record and the restarts in band, as they stood before it. HEAD CLEAR
leaves FAULT (R152, R154, R160). That a timeout moves the time base is the model's choice (assumption log 3), and what
restarts in band HEAD_FAULT gives between bands is deduced (assumption log 27). That the acceptance of HEAD CLEAR carries
nothing is the model's choice (assumption log 12). That SUSPENDED carries the attached lane in its header and again among its
fields is the model's choice (assumption log 55). -/
def Obligations.FaultsStopHeadUntilHeadClear : Prop :=
  ∀ (s : State) (l : LineId) (held : Nat), 2 ≤ held → s.pack.attached = some l →
    (∀ (c : Instr) (during : PackState) (fault : PackFault) (e : Nat),
      (c, during, fault) ∈ [(.travelTimeout, .travel, .travelTimeout), (.bandTimeout, .banding, .bandTimeout),
        (.labelTimeout, .labelling, .labelTimeout)] →
      s.pack.state = during → s.pack.stepTimer = some e → ∃ t : State, exec c s = .next t ∧
        t.pack = afterFault s.pack ∧ t.lane l = { s.lane l with enable := .faulted, disablePending := false } ∧
        (∀ x, x ≠ l → t.lane x = s.lane x) ∧ t.now = (if s.now < e then e else s.now) ∧
        (∀ r rest, (s.lane l).queue = r :: rest → t.link = (({ s with now := t.now } : State).notify (some l)
          (.headFault fault s.pack.step r.number r.bandsDone s.pack.restarts)).chooseFrame.link) ∧
        t = { s with pack := t.pack, lanes := t.lanes, now := t.now, drivenDuty := t.drivenDuty, link := t.link }) ∧
    (∀ (k : Nat) (r : CoilRecord) (rest : List CoilRecord), s.pack.state = .banding → s.pack.step = some (.band k) →
      (s.lane l).queue = r :: rest → ∃ t : State, exec (.clampSlip held) s = .next t ∧
        (t.lane l).queue = { r with restarts := min 65535 (r.restarts + 1) } :: rest ∧
        (∀ x, x ≠ l → t.lane x = s.lane x) ∧
        (s.pack.restarts < 3 → t.pack = { s.pack with
          restarts := s.pack.restarts + 1, bandRepeats := false, arrivalStep := none
          stepTimer := some (s.now + s.pack.bandTimeout * 1000000) } ∧ (t.lane l).enable = (s.lane l).enable ∧
          t.link = s.chooseFrame.link) ∧
        (3 ≤ s.pack.restarts → t.pack = afterFault s.pack ∧ (t.lane l).enable = .faulted ∧
          (t.lane l).disablePending = false ∧ t.link = (s.notify (some l)
            (.headFault .slipExcess (some (.band k)) r.number r.bandsDone s.pack.restarts)).chooseFrame.link) ∧
        t = { s with pack := t.pack, lanes := t.lanes, link := t.link }) ∧
    ∀ (u : State) (tag : Byte), u.link.takesRequest = true → u.pack.state = .fault →
      ∃ v w : State, exec (.headClear tag) u = .next (v.acceptedAs 0x2A tag []) ∧
        (u.guard.latch = true → v = { u.entered 0x2A tag with
          pack := { u.pack with state := .guarded, suspendPending := false } }) ∧
        (u.guard.latch = false → u.pack.suspendPending = true → v.pack = { u.pack with
          state := .suspended, attached := none, step := none, arrivalStep := none, stepTimer := none
          suspendPending := false } ∧ v.link = ((u.entered 0x2A tag).notify none (.suspended .host none none)).link ∧
          v = { u with pack := v.pack, link := v.link }) ∧
        (u.guard.latch = false → u.pack.suspendPending = false → v = w.evaluateGrant ∧ w = { u.entered 0x2A tag with
          pack := { u.pack with state := .free, attached := none, step := none, arrivalStep := none, stepTimer := none } })

/-- PACK SUSPEND suspends a FREE head at once and sets suspend pending in the states that end later; PACK RESUME withdraws
it, frees a head without a service or continues the service; HOLD REQ holds a FREE head at once, else sets hold pending, and
its end withdraws that or lets a HELD head go (R155 to R157, R160, R164). Hold pending is clear once the hold is granted, and
a band that the guard event broke off keeps its restarts (deduced, assumption logs 26, 27). PACK SUSPEND is answered with the
state it has set pending; that this is one byte, whether suspend pending is set, in every head state, is the model's choice
(assumption log 52), and that HOLD REQ's events change nothing while the input already has that level is deduced (assumption
log 11). That SUSPENDED carries the attached lane in its header and again among its fields is the model's choice (assumption
log 55). -/
def Obligations.SuspendResumeAndHoldMoveHead : Prop :=
  ∀ (s : State) (tag : Byte) (held : Nat), 2 ≤ held →
    (s.link.takesRequest = true →
      (∃ t : State, exec (.packSuspend tag) s = .next (t.acceptedAs 0x28 tag (encBool t.pack.suspendPending)) ∧
        (s.pack.state = .free → t.pack = { s.pack with
          state := .suspended, attached := none, step := none, arrivalStep := none, stepTimer := none
          suspendPending := false } ∧ t.link = ((s.entered 0x28 tag).notify none (.suspended .host none none)).link ∧
          t = { s with pack := t.pack, link := t.link }) ∧
        (s.pack.state = .suspended ∨ s.pack.state = .guarded → t = s.entered 0x28 tag) ∧
        (s.pack.state ∈ [.travel, .banding, .labelling, .held, .fault] →
          t = { s.entered 0x28 tag with pack := { s.pack with suspendPending := true } })) ∧
      (s.pack.state ≠ .guarded → ∃ t u : State, exec (.packResume tag) s =
          .next (t.acceptedAs 0x29 tag (enc8 t.pack.state.code)) ∧
        (s.pack.state = .free → t = s.entered 0x29 tag) ∧
        (s.pack.state ∈ [.travel, .banding, .labelling, .held, .fault] →
          t = { s.entered 0x29 tag with pack := { s.pack with suspendPending := false } }) ∧
        (s.pack.state = .suspended → s.pack.attached = none → t = u.evaluateGrant ∧ u = { s.entered 0x29 tag with
          pack := { s.pack with state := .free, attached := none, step := none, arrivalStep := none, stepTimer := none } }) ∧
        (∀ l x k, s.pack.state = .suspended → s.pack.attached = some l → s.pack.position = some x →
          s.pack.step = some (.band k) → t = { s.entered 0x29 tag with pack := { s.pack with
            state := .banding, arrivalStep := none, restarts := carriedRestarts s.pack, bandRepeats := false
            stepTimer := some (s.now + s.pack.bandTimeout * 1000000) } }) ∧
        (∀ l x, s.pack.state = .suspended → s.pack.attached = some l → s.pack.position = some x →
          s.pack.step = some .label → t = { s.entered 0x29 tag with pack := { s.pack with
            state := .labelling, arrivalStep := none
            stepTimer := some (s.now + s.pack.labelTimeout * 1000000) } }) ∧
        (∀ l k, s.pack.state = .suspended → s.pack.attached = some l → s.pack.position = none → s.pack.step = some k →
          t = { s.entered 0x29 tag with pack := { s.pack with
            state := .travel, step := some .travel, arrivalStep := some (if k = .travel then .band 1 else k)
            stepTimer := some (s.now + (s.lane l).travelLimit * 1000000) } }))) ∧
    (s.pack.holdReq = true → exec (.holdReqActive held) s = .next s.chooseFrame) ∧
    (s.pack.holdReq = false → exec (.holdReqInactive held) s = .next s.chooseFrame) ∧
    (s.pack.holdReq = false → exec (.holdReqActive held) s = .next ({ s with
      pack := if s.pack.state = .free then
          { s.pack with holdReq := true, state := .held, position := none, holdPending := false }
        else { s.pack with holdReq := true, holdPending := true } } : State).chooseFrame) ∧
    (s.pack.holdReq = true → ∃ t u : State, exec (.holdReqInactive held) s = .next t.chooseFrame ∧
      (s.pack.state ≠ .held → t = { s with pack := { s.pack with holdReq := false, holdPending := false } }) ∧
      (s.pack.state = .held → s.guard.latch = true → t = { s with pack := { s.pack with
        holdReq := false, holdPending := false, state := .guarded, suspendPending := false } }) ∧
      (s.pack.state = .held → s.guard.latch = false → s.pack.suspendPending = true → t.pack = { s.pack with
        holdReq := false, holdPending := false, state := .suspended, attached := none, step := none, arrivalStep := none
        stepTimer := none, suspendPending := false } ∧ t.link = (s.notify none (.suspended .host none none)).link ∧
        t = { s with pack := t.pack, link := t.link }) ∧
      (s.pack.state = .held → s.guard.latch = false → s.pack.suspendPending = false → t = u.evaluateGrant ∧
        u = { s with pack := { s.pack with
          holdReq := false, holdPending := false, state := .free, attached := none, step := none, arrivalStep := none
          stepTimer := none } }))

/-! ## Knots, twist windows and spans -/

/-- BOARD_FRAME reads the next board of a scan: its parity count, BOARD_FAULT at 3 and above, and the end of the scan at
END = 1 or at the board count, with the chain state and the judged row. SCAN_FAULT tells the count that reaches 3, before
BOARD_FAULT is offered, and the chain state that changes to SHORT or LONG (R99 to R102, R105, R113). Without a scan it changes
nothing, and SCAN_FAULT comes before the offer (deduced, assumption logs 11 and 23); whether the row or the
chain state comes first is free (assumption log 19), and that the notice of CHAIN_LONG has no board is the model's choice
(assumption log 48). The row index that SCAN_FAULT carries, that of the last row judged when it is sent, is deduced (assumption
log 37). -/
def Obligations.BoardFrameReadsNextBoard : Prop :=
  ∀ (s : State) (k : ScanLink) (bits : BitVec 10),
    ((s.scanLink k).scan = none → exec (.boardFrame k bits) s = .next s.chooseFrame) ∧
    ∀ (scan : Scan) (l : LineId) (spec : KnotSpec), (s.scanLink k).scan = some scan → s.linkOwner k = some l →
      s.runOpen l = true → s.knotSpec l = some spec → scan.frames.length < 8 →
      let b := scan.frames.length
      let boards := (s.line l).cfg.boardCount.getD 0
      let good : Bool := decide (((List.range 9).countP fun i => bits.getLsbD i) % 2 = 1)
      let count := if good then 0 else min 255 (((s.scanLink k).parity[b]?).getD 0 + 1)
      let told := if count = 3 then s.notify (some l) (.scanFault k .boardFault (some (b + 1)) (s.knot l).rowIndex) else s
      let checked := if 3 ≤ count then told.offerCause l .boardFault else s
      let outcome : ScanOutcome :=
        if b + 1 < boards then .short else if bits.getLsbD 9 = true then .complete else .long
      let chain : ChainState := if b + 1 < boards then .short else if bits.getLsbD 9 = true then .normal else .long
      let endBoard := if bits.getLsbD 9 = true then some (b + 1) else none
      let judgedFrom := fun x : State =>
        x.judgeRow l { scan with frames := scan.frames ++ [⟨good, bits.setWidth 8⟩] } outcome endBoard
      let chainNotice := fun row : Nat => if b + 1 < boards then
          NoticeBody.scanFault k .chainShort (some (b + 1)) row
        else .scanFault k .chainLong none row
      ∃ t : State, exec (.boardFrame k bits) s = .next t ∧
        (∀ i, (t.scanLink k).parity[i]? = if i = b then some count else (s.scanLink k).parity[i]?) ∧
        (t.scanLink k).gate = (s.scanLink k).gate ∧ (∀ j, j ≠ k → t.scanLink j = s.scanLink j) ∧
        (3 ≤ count → StoppedFor (t.line l) .boardFault) ∧
        (b + 1 < boards → bits.getLsbD 9 = false →
          (t.scanLink k).scan = some { scan with frames := scan.frames ++ [⟨good, bits.setWidth 8⟩] } ∧
          (t.scanLink k).chain = (s.scanLink k).chain ∧ t.knots = s.knots) ∧
        (b + 1 < boards → bits.getLsbD 9 = true →
          (t.scanLink k).scan = none ∧ (t.scanLink k).chain = .short) ∧
        (boards ≤ b + 1 → (t.scanLink k).scan = none ∧
          (t.scanLink k).chain = if bits.getLsbD 9 then .normal else .long) ∧
        (boards ≤ b + 1 ∨ bits.getLsbD 9 = true →
          (t.knot l).rowIndex = ((s.knot l).rowIndex + 1) % 4294967296 ∧
          (t.knot l).lastRowPos = some scan.closePos ∧
          (t.knot l).lastRowCoord =
            some (max (scan.closePos + (s.line l).cfg.knotOffset.getD 0 * 1000000) (s.coilStart l)) ∧
          let judged := judgedFrom s
          t.knots = judged.knots ∧ t.spanRecs = judged.spanRecs) ∧
        (b + 1 < boards → bits.getLsbD 9 = false → t.link = checked.chooseFrame.link) ∧
        (boards ≤ b + 1 ∨ bits.getLsbD 9 = true →
          (outcome = .complete ∨ (s.scanLink k).chain = chain → t.link = (judgedFrom checked).chooseFrame.link) ∧
          (outcome ≠ .complete → (s.scanLink k).chain ≠ chain →
            t.link = ((judgedFrom checked).notify (some l) (chainNotice (((s.knot l).rowIndex + 1) % 4294967296))).chooseFrame.link ∨
            t.link = (judgedFrom (checked.notify (some l) (chainNotice (s.knot l).rowIndex))).chooseFrame.link)) ∧
        (∀ y, y ≠ l → t.knot y = s.knot y ∧ t.line y = s.line y ∧ t.spanRec y = s.spanRec y) ∧ SameSurroundings s t ∧
        t = { s with
          knots := t.knots, lines := t.lines, spanRecs := t.spanRecs, linkK1 := t.linkK1, linkK2 := t.linkK2
          choices := t.choices, link := t.link }

/-- The judgment of a row: its index and coordinate, each column used by its board's frame in ascending order, the UNSEEN
span, the mesh pitch, and the last scan result. Of a column UNKNOWN changes nothing; TIED sets the miss count to 0 and closes
the span held; MISSED counts to 15 and opens or extends the span, which at the break threshold is upgraded to
BREAK with a TWINE_BREAK notice, and TWINE_BREAK is offered if the recipe stops on a break. An overrun row opens or extends the
UNSEEN span and any other closes it; a mesh deviation beyond the tolerance opens or extends the MESH span and any other closes
it (R105 to R110, R113). That the notice comes before the offer, and when it says that the cause was added, are deduced
(assumption logs 23 and 31). -/
def Obligations.ColumnJudgmentCountsMisses : Prop :=
  (∀ (s : State) (l : LineId) (scan : Scan) (outcome : ScanOutcome) (endBoard : Option Nat) (spec : KnotSpec),
    s.knotSpec l = some spec →
    let t := s.judgeRow l scan outcome endBoard
    let coord := max (scan.closePos + (s.line l).cfg.knotOffset.getD 0 * 1000000) (s.coilStart l)
    let last := (s.knot l).lastRowCoord.getD coord
    ∃ (u v : State) (marks : List ColumnMark) (x : ScanResult),
      marks.length = spec.columnsUsed ∧
      (∀ c m, marks[c]? = some m → ColumnJudged scan.frames (decide (outcome = .overrun)) c m) ∧
      u = { s with knots := u.knots } ∧ (∀ y, y ≠ l → u.knot y = s.knot y) ∧
      u.knot l = { s.knot l with rowIndex := ((s.knot l).rowIndex + 1) % 4294967296 } ∧
      v = ((marks.zipIdx.foldl (fun a m => a.judgedColumn l spec m.2 coord m.1) u).judgeUnseen l
        (decide (outcome = .overrun)) (min last coord) (max last coord)).judgeMesh l spec scan.closePos (min last coord)
          (max last coord) ∧
      t = { v with knots := t.knots } ∧ (∀ y, y ≠ l → t.knot y = v.knot y) ∧
      t.knot l = { v.knot l with lastRowPos := some scan.closePos, lastRowCoord := some coord, lastScan := some x } ∧
      x.row = (u.knot l).rowIndex ∧ x.coordinate = coord ∧ x.outcome = outcome ∧ x.endBoard = endBoard ∧
      x.columns = marks ∧ x.boards.length = (s.line l).cfg.boardCount.getD 0 ∧
      ∀ (i : Nat) (m : BoardMark), x.boards[i]? = some m → (scan.frames[i]? = none → m = .unread) ∧
        ∀ b : BoardRead, scan.frames[i]? = some b → m = if b.good then .good else .bad) ∧
  (∀ (s : State) (l : LineId) (overrun : Bool) (lo hi : Nat),
    let t := s.judgeUnseen l overrun lo hi
    let held := (s.knot l).unseenSpan
    t = { s with knots := t.knots, spanRecs := t.spanRecs, link := t.link } ∧ (∀ y, y ≠ l → t.knot y = s.knot y) ∧
    t.knot l = { s.knot l with unseenSpan := if overrun then some (held.getD lo) else none } ∧
    (overrun = true → held = none →
      t.spanRecs = (s.submit l .unseen .line (.openOrExtend lo hi 0)).spanRecs) ∧
    (∀ start, overrun = true → held = some start →
      t.spanRecs = (s.submit l .unseen .line (.extend (max hi start) 0)).spanRecs) ∧
    (∀ start, overrun = false → held = some start →
      t.spanRecs = (s.submit l .unseen .line (.close (max lo start))).spanRecs) ∧
    (overrun = false → held = none → t = s)) ∧
  (∀ (s : State) (l : LineId) (spec : KnotSpec) (closePos lo hi : Nat),
    let t := s.judgeMesh l spec closePos lo hi
    let held := (s.knot l).meshSpan
    let nominal : Int := (spec.meshPitch : Int) * 1000000
    ((s.knot l).lastRowPos = none → t = s) ∧
    ∀ last, (s.knot l).lastRowPos = some last →
      let dev := (max (-999) (min 999 ((((closePos : Int) - last - nominal) * 1000).tdiv nominal))).natAbs
      t = { s with knots := t.knots, spanRecs := t.spanRecs, link := t.link } ∧ (∀ y, y ≠ l → t.knot y = s.knot y) ∧
      t.knot l = { s.knot l with meshSpan := if spec.meshTolerance < dev then some (held.getD lo) else none } ∧
      (spec.meshTolerance < dev → held = none →
        t.spanRecs = (s.submit l .mesh .line (.openOrExtend lo hi dev)).spanRecs) ∧
      (∀ start, spec.meshTolerance < dev → held = some start →
        t.spanRecs = (s.submit l .mesh .line (.extend (max hi start) dev)).spanRecs) ∧
      (∀ start, dev ≤ spec.meshTolerance → held = some start →
        t.spanRecs = (s.submit l .mesh .line (.close (max lo start))).spanRecs) ∧
      (dev ≤ spec.meshTolerance → held = none → t = s)) ∧
  ∀ (s : State) (l : LineId) (spec : KnotSpec) (c coord : Nat), c < 64 → s.runOpen l = true →
    let h := (s.knot l).column c
    let count := if h.misses < 15 then h.misses + 1 else 15
    s.judgedColumn l spec c coord .unknown = s ∧
    (∃ t : State, s.judgedColumn l spec c coord .tied = t ∧ (t.knot l).column c = ⟨0, none⟩ ∧
      (∀ d, d ≠ c → (t.knot l).column d = (s.knot l).column d) ∧ t = { s with knots := t.knots, spanRecs := t.spanRecs } ∧
      (h.span = none → t.spanRecs = s.spanRecs) ∧
      ∀ kind start, h.span = some (kind, start) →
        t.spanRecs = (s.submit l kind.kind (.column (c + 1)) (.close (max coord start))).spanRecs) ∧
    ∃ t : State, s.judgedColumn l spec c coord .missed = t ∧ ((t.knot l).column c).misses = count ∧
      (∀ d, d ≠ c → (t.knot l).column d = (s.knot l).column d) ∧
      (∃ kind, ((t.knot l).column c).span = some (kind, (h.span.map Prod.snd).getD coord) ∧
        (kind = .break ↔ (∃ start, h.span = some (.break, start)) ∨ spec.breakThreshold ≤ count)) ∧
      (count < spec.breakThreshold → h.span = none →
        t.spanRecs = (s.submit l .knot (.column (c + 1)) (.openSpan coord (some coord) count)).spanRecs) ∧
      (∀ kind start, count < spec.breakThreshold → h.span = some (kind, start) →
        t.spanRecs = (s.submit l kind.kind (.column (c + 1)) (.extend (max coord start) count)).spanRecs) ∧
      (spec.breakThreshold ≤ count → ∀ w : State,
        (h.span = none → w = s.submit l .knot (.column (c + 1)) (.openSpan coord (some coord) count)) →
        (∀ kind start, h.span = some (kind, start) →
          w = s.submit l kind.kind (.column (c + 1)) (.extend (max coord start) count)) →
        ((∃ start, h.span = some (.break, start)) → t.spanRecs = w.spanRecs ∧
          t.link = (if spec.stopOnBreak then w.offerCause l .twineBreak else w).link) ∧
        ((∀ start, h.span ≠ some (.break, start)) →
          let v := w.submit l .break (.column (c + 1)) .upgrade
          let told := v.notify (some l) (.twineBreak (c + 1) (s.knot l).rowIndex
            ((h.span.map Prod.snd).getD coord / 1000000) count (spec.stopOnBreak && !(s.line l).causes.twineBreak))
          t.spanRecs = v.spanRecs ∧ t.link = (if spec.stopOnBreak then told.offerCause l .twineBreak else told).link)) ∧
      (spec.breakThreshold ≤ count → spec.stopOnBreak = true → StoppedFor (t.line l) .twineBreak) ∧
      (count < spec.breakThreshold ∨ spec.stopOnBreak = false → t.lines = s.lines) ∧
      t = { s with knots := t.knots, spanRecs := t.spanRecs, lines := t.lines, link := t.link }

/-- A twist window closes at W of advance and the next one opens there. A HAND window is not judged and submits its HAND span;
else the HAND span is closed, the density, the deviation and the window's flags follow, a TWIST span is opened or extended out
of tolerance and closed in it, and, with the latch clear and a gain, the slewed and limited trim and the learned trim follow,
the copy is re-marked CLEAN or DIRTY, and TRIM_EXHAUSTED is offered while the limit count stands at K (R67, R84 to R89). The
flags of a HAND window follow assumption log 32. -/
def Obligations.TwistWindowJudgesAndCorrects : Prop :=
  ∀ (s : State) (l : LineId) (h : HeadId) (w : TwistWindow) (u : HeadSettings) (r : Recipe) (q : PositionSpec),
    (s.head h).window = some w → (s.head h).settings = some u → s.boundRecipe l = some r → r.specFor u = some q →
    let p := (s.pos l).position
    let size := u.countsPerTurn * (p - w.start)
    let opposite := OppositeHand u.zSense q.hand w.count
    let start := w.start + u.offset * 1000000
    let stop := p + u.offset * 1000000
    let handEnded := if (s.head h).handFault then s.submit l .hand (.head h) (.close start) else s
    let taken := fun n : Nat => n = w.count.natAbs ∧ ¬opposite ∨ n = 0 ∧ opposite
    let t := s.testWindow l h
    (p - w.start < r.window * 1000000 → t = s) ∧
    (r.window * 1000000 ≤ p - w.start →
      (t.head h).window = some { w with start := p, count := 0 } ∧ (∀ x, x ≠ h → t.head x = s.head x) ∧
      (∀ x, x ≠ h → t.copy x = s.copy x) ∧
      t = { s with heads := t.heads, copies := t.copies, lines := t.lines, spanRecs := t.spanRecs, link := t.link } ∧
      (opposite → 2 * u.countsPerTurn < w.count.natAbs →
        t.head h = { s.head h with
          handFault := true
          lastFlags := some ⟨.hand, false, false⟩
          window := some { w with start := p, count := 0 } } ∧ t.copy h = s.copy h ∧ t.lines = s.lines ∧
        t.spanRecs = (s.submit l .hand (.head h) (.openOrExtend start stop 0)).spanRecs ∧
        t.link = (s.submit l .hand (.head h) (.openOrExtend start stop 0)).link) ∧
      (¬opposite ∨ w.count.natAbs ≤ 2 * u.countsPerTurn → ∃ n d dev, taken n ∧
        d = min 65535 ((n * 100000000000 + size / 2) / size) ∧
        dev = clampAbs 999 ((((q.target : Int) - d) * 1000).tdiv q.target) ∧
        (t.head h).lastDensity = some d ∧ (t.head h).lastDeviation = some dev ∧ (t.head h).handFault = false ∧
        (∃ flags, (t.head h).lastFlags = some flags ∧ (opposite → flags.kind = .backlash) ∧
          (¬opposite → flags.kind = .normal) ∧
          (flags.densityClamp = true ↔ 65535 < (n * 100000000000 + size / 2) / size) ∧
          (flags.corrected = true ↔ s.guard.latch = false ∧ r.gain ≠ 0)) ∧
        let judged := handEnded.submit l .twist (.head h)
          (if r.tolerance < dev.natAbs then .openOrExtend start stop dev.natAbs else .close start)
        t.spanRecs = judged.spanRecs ∧
        (s.guard.latch = false → r.gain ≠ 0 → (t.head h).limitCount = r.limitWindows →
          t.line l = afterOffer (s.line l) .trimExhausted ∧ (∀ x, x ≠ l → t.line x = s.line x) ∧
            t.link = (judged.offerCause l .trimExhausted).link) ∧
        (s.guard.latch = true ∨ r.gain = 0 ∨ (t.head h).limitCount ≠ r.limitWindows →
          t.lines = s.lines ∧ t.link = judged.link) ∧
        (s.guard.latch = true ∨ r.gain = 0 → (t.head h).trim = (s.head h).trim ∧
          (t.head h).limitCount = (s.head h).limitCount ∧ t.copy h = s.copy h) ∧
        (s.guard.latch = false → r.gain ≠ 0 →
          (t.head h).trim =
            clampAbs r.trimLimit ((s.head h).trim + clampAbs r.slew ((dev * r.gain * 10).tdiv 256)) ∧
          (t.head h).limitCount = (if (t.head h).trim.natAbs = r.trimLimit ∧ r.tolerance < dev.natAbs then
            min r.limitWindows ((s.head h).limitCount + 1) else 0) ∧
          ((s.copy h).state ≠ .invalid → (t.copy h).learned = (t.head h).trim ∧ (t.copy h).slot = (s.copy h).slot ∧
            ∀ n x y, (s.copy h).slot = some n → s.recipe n = some x → x.specFor u = some y →
              (t.copy h).state = if (t.head h).trim = y.startTrim then .clean else .dirty))))

/-- The five submissions to a line's span list with a run open, by the state of their key, and the take at a cut: entries
join in order of start and arrival, with an absent end where one is opened without, while an open that carries an end does
what open-or-extend does; a full list counts them, with SPAN_OVERFLOW at the first loss, whichever of them it was; an extend
raises the end and the worst value, an upgrade makes KNOT BREAK in place, a close ends the open entry, and nothing but that
line's list and the notice changes. A take gives the record a copy of each entry that starts below the cut, at most 12 of
them, and leaves the part of each that lies above, in order anew; nothing that stays lies below the cut (R114 to R122, R125).
That SPAN_OVERFLOW carries the start raised to the open coil's is deduced (assumption log 33), and when the edition counts
follows assumption log 25. -/
def Obligations.SpanSubmissionsAndTakeKeepList : Prop :=
  ∀ (s : State) (l : LineId) (kind : SpanKind) (source : SpanSource) (start stop worst : Nat),
    let key : SpanKey := ⟨if kind = .break then .knot else kind, source⟩
    let isKey := fun e : SpanEntry => e.isOpen && e.key == key
    let r := s.spanRec l
    let from' := max start (s.coilStart l)
    let below := fun e : SpanEntry => decide (e.start < from' ∨ (e.start = from' ∧ e.arrival ≤ r.arrival))
    let changed := fun spans : List SpanEntry => { r with spans := spans, edition := (r.edition + 1) % 65536 }
    let opened := (s.submit l kind source (.openOrExtend start stop worst)).spanRec l
    let closed := (s.submit l kind source (.close stop)).spanRec l
    let begun := (s.submit l kind source (.openSpan start none worst)).spanRec l
    let extended := (s.submit l kind source (.extend stop worst)).spanRec l
    let upgraded := (s.submit l kind source .upgrade).spanRec l
    (s.runOpen l = false → ∀ x, s.submit l kind source x = s) ∧
    (s.runOpen l = true → r.spans.any isKey = true →
      opened = changed (r.spans.map fun e =>
        if isKey e then { e with stop := some (max stop e.start), worst := max e.worst worst } else e) ∧
      closed = changed (r.spans.map fun e =>
        if isKey e then { e with stop := some (max stop e.start), isOpen := false } else e) ∧
      begun = changed (r.spans.map fun e => if isKey e then { e with worst := max e.worst worst } else e) ∧
      extended = opened ∧
      (∀ e ∈ r.spans, isKey e = true → e.kind = .knot → upgraded = changed (r.spans.map fun e =>
        if isKey e then { e with kind := if e.kind = .knot then .break else e.kind } else e)) ∧
      ((∀ e ∈ r.spans, isKey e = true → e.kind ≠ .knot) → upgraded = r)) ∧
    (s.runOpen l = true → r.spans.any isKey = false → key ∈ r.lostKeys →
      opened = r ∧ begun = r ∧ extended = r ∧ upgraded = r ∧
      closed = { r with lostKeys := r.lostKeys.filter fun k => decide (k ≠ key) }) ∧
    (s.runOpen l = true → r.spans.any isKey = false → key ∉ r.lostKeys →
      closed = r ∧ extended = r ∧ upgraded = r ∧
      (r.spans.length < 48 →
        opened = { changed (r.spans.takeWhile below ++
          ⟨kind, source, from', some (max stop from'), true, worst, decide (start < s.coilStart l), r.arrival⟩ ::
            r.spans.dropWhile below) with arrival := r.arrival + 1 } ∧
        begun = { changed (r.spans.takeWhile below ++
          ⟨kind, source, from', none, true, worst, decide (start < s.coilStart l), r.arrival⟩ ::
            r.spans.dropWhile below) with arrival := r.arrival + 1 }) ∧
      (48 ≤ r.spans.length →
        opened = { r with lostSpans := min 65535 (r.lostSpans + 1), lostKeys := r.lostKeys ++ [key] } ∧ begun = opened ∧
        ∀ x ∈ [.openOrExtend start stop worst, .openSpan start (some stop) worst, .openSpan start none worst],
          (r.lostSpans ≠ 0 → (s.submit l kind source x).link = s.link) ∧
          (r.lostSpans = 0 → ∃ u : State, u = { s with spanRecs := u.spanRecs } ∧
            s.submit l kind source x = u.notify (some l)
              (.spanOverflow kind source (from' / 1000000) ((s.pos l).position / 1000000))))) ∧
    s.submit l kind source (.openSpan start (some stop) worst) =
      s.submit l kind source (.openOrExtend start stop worst) ∧
    (∀ x : Submission, let t := s.submit l kind source x
      t = { s with spanRecs := t.spanRecs, link := t.link } ∧ (∀ y, y ≠ l → t.spanRec y = s.spanRec y) ∧
      (r.spans.any isKey = true ∨ key ∈ r.lostKeys ∨ r.spans.length < 48 → t.link = s.link)) ∧
    ∀ c : Nat, TakenAt (r.afterTake c) c ∧ spansInOrder (r.afterTake c).spans ∧
      (r.afterTake c).spans.Perm (r.spans.filterMap (staysAt c)) ∧
      r.afterTake c = { changed (r.afterTake c).spans with
        splices := r.splices.filter (c ≤ ·), lostSpans := 0, lostSplices := 0 } ∧
      (r.take c).spans = (r.spans.filterMap (copiedAt c)).take 12 ∧
      (r.take c).lostSpans = min 65535 ((r.spans.countP fun e => decide (e.start < c)) - 12 + r.lostSpans) ∧
      (r.take c).splices = ((r.splices.filter (· < c)).take 8).map (· / 1000000) ∧
      (r.take c).lostSplices = min 65535 ((r.splices.countP fun x => decide (x < c)) - 8 + r.lostSplices) ∧
      ∀ x ∈ (r.take c).spans, x.stop ≤ c / 1000000

/-! ## Invariants of every step -/

/-- In every state the laws of the guard are kept by every step: under the latch no cutter, marker, strap or label output is
asserted, the packing head is GUARDED, HELD or in FAULT, and no head's trim changes. So are, together, the laws of the recipe
store and the working copies: every trim within 2,000, a CLEAN copy's learned trim its slot's start trim, and a valid copy's
within its slot's trim limit (R17, R58, R66, R74, R92, R158). -/
def Obligations.EveryStepKeepsGuardLaws : Prop :=
  (∀ s s' : State, StoreLaws s → step s = .next s' → StoreLaws s') ∧
  ∀ s s' : State, GuardLaw s → HeadGuarded s → step s = .next s' → GuardLaw s' ∧ HeadGuarded s' ∧
    (s.guard.latch = true → s'.guard.latch = true → ∀ h, (s'.head h).trim = (s.head h).trim)

/-- Every step keeps the bounds of the queues: at most 3 records in a lane queue, at most 2 requests in the buffer with a
place for every reply, and no line its own leader. It keeps each law of a line's causes, coil, position, span list and its
order, and the laws of the packing station (R3 to R5, R39, R114, R118, R127, R147, R148, R159, R163, R166). -/
def Obligations.EveryStepKeepsQueueBounds : Prop :=
  (∀ s s' : State, step s = .next s' →
    ((∀ l, CausesLaw s l) → ∀ l, CausesLaw s' l) ∧ ((∀ l, CoilLaw s l) → ∀ l, CoilLaw s' l) ∧
    ((∀ l, PositionLaw s l) → ∀ l, PositionLaw s' l) ∧ ((∀ l, SpanLaw s l) → ∀ l, SpanLaw s' l) ∧
    ((∀ l, SpanOrderLaw s l) → ∀ l, SpanOrderLaw s' l) ∧ (StationLaws s → StationLaws s')) ∧
  ∀ s s' : State, (∀ l, LaneLaw s l) → NoOwnLeader s → BufferLaw s → step s = .next s' →
    (∀ l, LaneLaw s' l) ∧ NoOwnLeader s' ∧ BufferLaw s'
end

