-- ==== Sys2Proof/Laws/State.lean ====
section
/-! SUPPORT. What each update of one block's record leaves and gives: one lemma for each field and accessor. -/

namespace Sys2Proof

variable {α : Type}

theorem PerLine.get_set (p : PerLine α) (l x : LineId) (v : α) : (p.set l v).get x = if x = l then v else p.get x := by
  cases l <;> cases x <;> rfl

@[simp] theorem PerLine.get_set_self (p : PerLine α) (l : LineId) (v : α) : (p.set l v).get l = v := by
  cases l <;> rfl

@[simp] theorem PerLine.get_all (v : α) (l : LineId) : (PerLine.all v).get l = v := by cases l <;> rfl

theorem PerLine.ext_get {p q : PerLine α} (h : ∀ l, p.get l = q.get l) : p = q := by
  cases p; cases q
  simp only [PerLine.mk.injEq]
  exact ⟨h .a, h .b, h .c, h .d⟩

/-- Reading a vector after one place of it was set. -/
theorem get_set_vector {n : Nat} (v : Vector α n) (i j : Fin n) (x : α) :
    (v.set i.val x i.isLt).get j = if j = i then x else v.get j := by
  have h : ∀ w : Vector α n, w.get j = w[j.val] := fun _ => rfl
  rw [h, h, Vector.getElem_set]
  simp only [Fin.ext_iff, eq_comm]

namespace Machine

variable (s : State)

/-! ## `modLine` -/

@[simp] theorem modLine_now (l : LineId) (f : LineRec → LineRec) : (s.modLine l f).now = s.now := rfl
@[simp] theorem modLine_epoch (l : LineId) (f : LineRec → LineRec) : (s.modLine l f).epoch = s.epoch := rfl
@[simp] theorem modLine_link (l : LineId) (f : LineRec → LineRec) : (s.modLine l f).link = s.link := rfl
@[simp] theorem modLine_guard (l : LineId) (f : LineRec → LineRec) : (s.modLine l f).guard = s.guard := rfl
@[simp] theorem modLine_channels (l : LineId) (f : LineRec → LineRec) : (s.modLine l f).channels = s.channels := rfl
@[simp] theorem modLine_positions (l : LineId) (f : LineRec → LineRec) : (s.modLine l f).positions = s.positions := rfl
@[simp] theorem modLine_slots (l : LineId) (f : LineRec → LineRec) : (s.modLine l f).slots = s.slots := rfl
@[simp] theorem modLine_copies (l : LineId) (f : LineRec → LineRec) : (s.modLine l f).copies = s.copies := rfl
@[simp] theorem modLine_heads (l : LineId) (f : LineRec → LineRec) : (s.modLine l f).heads = s.heads := rfl
@[simp] theorem modLine_drivenDuty (l : LineId) (f : LineRec → LineRec) : (s.modLine l f).drivenDuty = s.drivenDuty := rfl
@[simp] theorem modLine_knots (l : LineId) (f : LineRec → LineRec) : (s.modLine l f).knots = s.knots := rfl
@[simp] theorem modLine_linkK1 (l : LineId) (f : LineRec → LineRec) : (s.modLine l f).linkK1 = s.linkK1 := rfl
@[simp] theorem modLine_linkK2 (l : LineId) (f : LineRec → LineRec) : (s.modLine l f).linkK2 = s.linkK2 := rfl
@[simp] theorem modLine_spanRecs (l : LineId) (f : LineRec → LineRec) : (s.modLine l f).spanRecs = s.spanRecs := rfl
@[simp] theorem modLine_coils (l : LineId) (f : LineRec → LineRec) : (s.modLine l f).coils = s.coils := rfl
@[simp] theorem modLine_lanes (l : LineId) (f : LineRec → LineRec) : (s.modLine l f).lanes = s.lanes := rfl
@[simp] theorem modLine_pack (l : LineId) (f : LineRec → LineRec) : (s.modLine l f).pack = s.pack := rfl
@[simp] theorem modLine_completed (l : LineId) (f : LineRec → LineRec) : (s.modLine l f).completed = s.completed := rfl
@[simp] theorem modLine_choices (l : LineId) (f : LineRec → LineRec) : (s.modLine l f).choices = s.choices := rfl
@[simp] theorem modLine_pending (l : LineId) (f : LineRec → LineRec) : (s.modLine l f).pending = s.pending := rfl
@[simp] theorem modLine_pos (l : LineId) (f : LineRec → LineRec) (x : LineId) : (s.modLine l f).pos x = s.pos x := rfl
@[simp] theorem modLine_knot (l : LineId) (f : LineRec → LineRec) (x : LineId) : (s.modLine l f).knot x = s.knot x := rfl
@[simp] theorem modLine_spanRec (l : LineId) (f : LineRec → LineRec) (x : LineId) : (s.modLine l f).spanRec x = s.spanRec x := rfl
@[simp] theorem modLine_coilRec (l : LineId) (f : LineRec → LineRec) (x : LineId) : (s.modLine l f).coilRec x = s.coilRec x := rfl
@[simp] theorem modLine_lane (l : LineId) (f : LineRec → LineRec) (x : LineId) : (s.modLine l f).lane x = s.lane x := rfl
@[simp] theorem modLine_channel (l : LineId) (f : LineRec → LineRec) (x : ChannelId) : (s.modLine l f).channel x = s.channel x := rfl
@[simp] theorem modLine_head (l : LineId) (f : LineRec → LineRec) (x : HeadId) : (s.modLine l f).head x = s.head x := rfl
@[simp] theorem modLine_copy (l : LineId) (f : LineRec → LineRec) (x : HeadId) : (s.modLine l f).copy x = s.copy x := rfl
@[simp] theorem modLine_recipe (l : LineId) (f : LineRec → LineRec) (x : Slot) : (s.modLine l f).recipe x = s.recipe x := rfl
@[simp] theorem modLine_scanLink (l : LineId) (f : LineRec → LineRec) (x : ScanLink) : (s.modLine l f).scanLink x = s.scanLink x := rfl
@[simp] theorem modLine_line_self (l : LineId) (f : LineRec → LineRec) : (s.modLine l f).line l = f (s.line l) := PerLine.get_set_self _ _ _
theorem modLine_line (l : LineId) (f : LineRec → LineRec) (x : LineId) :
    (s.modLine l f).line x = if x = l then f (s.line l) else s.line x := PerLine.get_set _ _ _ _
@[simp] theorem modLine_line_of_ne (l : LineId) (f : LineRec → LineRec) {x : LineId} (h : x ≠ l) : (s.modLine l f).line x = s.line x := by
  rw [modLine_line, if_neg h]

/-! ## `modPos` -/

@[simp] theorem modPos_now (l : LineId) (f : PositionRec → PositionRec) : (s.modPos l f).now = s.now := rfl
@[simp] theorem modPos_epoch (l : LineId) (f : PositionRec → PositionRec) : (s.modPos l f).epoch = s.epoch := rfl
@[simp] theorem modPos_link (l : LineId) (f : PositionRec → PositionRec) : (s.modPos l f).link = s.link := rfl
@[simp] theorem modPos_guard (l : LineId) (f : PositionRec → PositionRec) : (s.modPos l f).guard = s.guard := rfl
@[simp] theorem modPos_channels (l : LineId) (f : PositionRec → PositionRec) : (s.modPos l f).channels = s.channels := rfl
@[simp] theorem modPos_lines (l : LineId) (f : PositionRec → PositionRec) : (s.modPos l f).lines = s.lines := rfl
@[simp] theorem modPos_slots (l : LineId) (f : PositionRec → PositionRec) : (s.modPos l f).slots = s.slots := rfl
@[simp] theorem modPos_copies (l : LineId) (f : PositionRec → PositionRec) : (s.modPos l f).copies = s.copies := rfl
@[simp] theorem modPos_heads (l : LineId) (f : PositionRec → PositionRec) : (s.modPos l f).heads = s.heads := rfl
@[simp] theorem modPos_drivenDuty (l : LineId) (f : PositionRec → PositionRec) : (s.modPos l f).drivenDuty = s.drivenDuty := rfl
@[simp] theorem modPos_knots (l : LineId) (f : PositionRec → PositionRec) : (s.modPos l f).knots = s.knots := rfl
@[simp] theorem modPos_linkK1 (l : LineId) (f : PositionRec → PositionRec) : (s.modPos l f).linkK1 = s.linkK1 := rfl
@[simp] theorem modPos_linkK2 (l : LineId) (f : PositionRec → PositionRec) : (s.modPos l f).linkK2 = s.linkK2 := rfl
@[simp] theorem modPos_spanRecs (l : LineId) (f : PositionRec → PositionRec) : (s.modPos l f).spanRecs = s.spanRecs := rfl
@[simp] theorem modPos_coils (l : LineId) (f : PositionRec → PositionRec) : (s.modPos l f).coils = s.coils := rfl
@[simp] theorem modPos_lanes (l : LineId) (f : PositionRec → PositionRec) : (s.modPos l f).lanes = s.lanes := rfl
@[simp] theorem modPos_pack (l : LineId) (f : PositionRec → PositionRec) : (s.modPos l f).pack = s.pack := rfl
@[simp] theorem modPos_completed (l : LineId) (f : PositionRec → PositionRec) : (s.modPos l f).completed = s.completed := rfl
@[simp] theorem modPos_choices (l : LineId) (f : PositionRec → PositionRec) : (s.modPos l f).choices = s.choices := rfl
@[simp] theorem modPos_pending (l : LineId) (f : PositionRec → PositionRec) : (s.modPos l f).pending = s.pending := rfl
@[simp] theorem modPos_line (l : LineId) (f : PositionRec → PositionRec) (x : LineId) : (s.modPos l f).line x = s.line x := rfl
@[simp] theorem modPos_knot (l : LineId) (f : PositionRec → PositionRec) (x : LineId) : (s.modPos l f).knot x = s.knot x := rfl
@[simp] theorem modPos_spanRec (l : LineId) (f : PositionRec → PositionRec) (x : LineId) : (s.modPos l f).spanRec x = s.spanRec x := rfl
@[simp] theorem modPos_coilRec (l : LineId) (f : PositionRec → PositionRec) (x : LineId) : (s.modPos l f).coilRec x = s.coilRec x := rfl
@[simp] theorem modPos_lane (l : LineId) (f : PositionRec → PositionRec) (x : LineId) : (s.modPos l f).lane x = s.lane x := rfl
@[simp] theorem modPos_channel (l : LineId) (f : PositionRec → PositionRec) (x : ChannelId) : (s.modPos l f).channel x = s.channel x := rfl
@[simp] theorem modPos_head (l : LineId) (f : PositionRec → PositionRec) (x : HeadId) : (s.modPos l f).head x = s.head x := rfl
@[simp] theorem modPos_copy (l : LineId) (f : PositionRec → PositionRec) (x : HeadId) : (s.modPos l f).copy x = s.copy x := rfl
@[simp] theorem modPos_recipe (l : LineId) (f : PositionRec → PositionRec) (x : Slot) : (s.modPos l f).recipe x = s.recipe x := rfl
@[simp] theorem modPos_scanLink (l : LineId) (f : PositionRec → PositionRec) (x : ScanLink) : (s.modPos l f).scanLink x = s.scanLink x := rfl
@[simp] theorem modPos_pos_self (l : LineId) (f : PositionRec → PositionRec) : (s.modPos l f).pos l = f (s.pos l) := PerLine.get_set_self _ _ _
theorem modPos_pos (l : LineId) (f : PositionRec → PositionRec) (x : LineId) :
    (s.modPos l f).pos x = if x = l then f (s.pos l) else s.pos x := PerLine.get_set _ _ _ _
@[simp] theorem modPos_pos_of_ne (l : LineId) (f : PositionRec → PositionRec) {x : LineId} (h : x ≠ l) : (s.modPos l f).pos x = s.pos x := by
  rw [modPos_pos, if_neg h]

/-! ## `modKnot` -/

@[simp] theorem modKnot_now (l : LineId) (f : KnotRec → KnotRec) : (s.modKnot l f).now = s.now := rfl
@[simp] theorem modKnot_epoch (l : LineId) (f : KnotRec → KnotRec) : (s.modKnot l f).epoch = s.epoch := rfl
@[simp] theorem modKnot_link (l : LineId) (f : KnotRec → KnotRec) : (s.modKnot l f).link = s.link := rfl
@[simp] theorem modKnot_guard (l : LineId) (f : KnotRec → KnotRec) : (s.modKnot l f).guard = s.guard := rfl
@[simp] theorem modKnot_channels (l : LineId) (f : KnotRec → KnotRec) : (s.modKnot l f).channels = s.channels := rfl
@[simp] theorem modKnot_lines (l : LineId) (f : KnotRec → KnotRec) : (s.modKnot l f).lines = s.lines := rfl
@[simp] theorem modKnot_positions (l : LineId) (f : KnotRec → KnotRec) : (s.modKnot l f).positions = s.positions := rfl
@[simp] theorem modKnot_slots (l : LineId) (f : KnotRec → KnotRec) : (s.modKnot l f).slots = s.slots := rfl
@[simp] theorem modKnot_copies (l : LineId) (f : KnotRec → KnotRec) : (s.modKnot l f).copies = s.copies := rfl
@[simp] theorem modKnot_heads (l : LineId) (f : KnotRec → KnotRec) : (s.modKnot l f).heads = s.heads := rfl
@[simp] theorem modKnot_drivenDuty (l : LineId) (f : KnotRec → KnotRec) : (s.modKnot l f).drivenDuty = s.drivenDuty := rfl
@[simp] theorem modKnot_linkK1 (l : LineId) (f : KnotRec → KnotRec) : (s.modKnot l f).linkK1 = s.linkK1 := rfl
@[simp] theorem modKnot_linkK2 (l : LineId) (f : KnotRec → KnotRec) : (s.modKnot l f).linkK2 = s.linkK2 := rfl
@[simp] theorem modKnot_spanRecs (l : LineId) (f : KnotRec → KnotRec) : (s.modKnot l f).spanRecs = s.spanRecs := rfl
@[simp] theorem modKnot_coils (l : LineId) (f : KnotRec → KnotRec) : (s.modKnot l f).coils = s.coils := rfl
@[simp] theorem modKnot_lanes (l : LineId) (f : KnotRec → KnotRec) : (s.modKnot l f).lanes = s.lanes := rfl
@[simp] theorem modKnot_pack (l : LineId) (f : KnotRec → KnotRec) : (s.modKnot l f).pack = s.pack := rfl
@[simp] theorem modKnot_completed (l : LineId) (f : KnotRec → KnotRec) : (s.modKnot l f).completed = s.completed := rfl
@[simp] theorem modKnot_choices (l : LineId) (f : KnotRec → KnotRec) : (s.modKnot l f).choices = s.choices := rfl
@[simp] theorem modKnot_pending (l : LineId) (f : KnotRec → KnotRec) : (s.modKnot l f).pending = s.pending := rfl
@[simp] theorem modKnot_line (l : LineId) (f : KnotRec → KnotRec) (x : LineId) : (s.modKnot l f).line x = s.line x := rfl
@[simp] theorem modKnot_pos (l : LineId) (f : KnotRec → KnotRec) (x : LineId) : (s.modKnot l f).pos x = s.pos x := rfl
@[simp] theorem modKnot_spanRec (l : LineId) (f : KnotRec → KnotRec) (x : LineId) : (s.modKnot l f).spanRec x = s.spanRec x := rfl
@[simp] theorem modKnot_coilRec (l : LineId) (f : KnotRec → KnotRec) (x : LineId) : (s.modKnot l f).coilRec x = s.coilRec x := rfl
@[simp] theorem modKnot_lane (l : LineId) (f : KnotRec → KnotRec) (x : LineId) : (s.modKnot l f).lane x = s.lane x := rfl
@[simp] theorem modKnot_channel (l : LineId) (f : KnotRec → KnotRec) (x : ChannelId) : (s.modKnot l f).channel x = s.channel x := rfl
@[simp] theorem modKnot_head (l : LineId) (f : KnotRec → KnotRec) (x : HeadId) : (s.modKnot l f).head x = s.head x := rfl
@[simp] theorem modKnot_copy (l : LineId) (f : KnotRec → KnotRec) (x : HeadId) : (s.modKnot l f).copy x = s.copy x := rfl
@[simp] theorem modKnot_recipe (l : LineId) (f : KnotRec → KnotRec) (x : Slot) : (s.modKnot l f).recipe x = s.recipe x := rfl
@[simp] theorem modKnot_scanLink (l : LineId) (f : KnotRec → KnotRec) (x : ScanLink) : (s.modKnot l f).scanLink x = s.scanLink x := rfl
@[simp] theorem modKnot_knot_self (l : LineId) (f : KnotRec → KnotRec) : (s.modKnot l f).knot l = f (s.knot l) := PerLine.get_set_self _ _ _
theorem modKnot_knot (l : LineId) (f : KnotRec → KnotRec) (x : LineId) :
    (s.modKnot l f).knot x = if x = l then f (s.knot l) else s.knot x := PerLine.get_set _ _ _ _
@[simp] theorem modKnot_knot_of_ne (l : LineId) (f : KnotRec → KnotRec) {x : LineId} (h : x ≠ l) : (s.modKnot l f).knot x = s.knot x := by
  rw [modKnot_knot, if_neg h]

/-! ## `modSpanRec` -/

@[simp] theorem modSpanRec_now (l : LineId) (f : SpanRec → SpanRec) : (s.modSpanRec l f).now = s.now := rfl
@[simp] theorem modSpanRec_epoch (l : LineId) (f : SpanRec → SpanRec) : (s.modSpanRec l f).epoch = s.epoch := rfl
@[simp] theorem modSpanRec_link (l : LineId) (f : SpanRec → SpanRec) : (s.modSpanRec l f).link = s.link := rfl
@[simp] theorem modSpanRec_guard (l : LineId) (f : SpanRec → SpanRec) : (s.modSpanRec l f).guard = s.guard := rfl
@[simp] theorem modSpanRec_channels (l : LineId) (f : SpanRec → SpanRec) : (s.modSpanRec l f).channels = s.channels := rfl
@[simp] theorem modSpanRec_lines (l : LineId) (f : SpanRec → SpanRec) : (s.modSpanRec l f).lines = s.lines := rfl
@[simp] theorem modSpanRec_positions (l : LineId) (f : SpanRec → SpanRec) : (s.modSpanRec l f).positions = s.positions := rfl
@[simp] theorem modSpanRec_slots (l : LineId) (f : SpanRec → SpanRec) : (s.modSpanRec l f).slots = s.slots := rfl
@[simp] theorem modSpanRec_copies (l : LineId) (f : SpanRec → SpanRec) : (s.modSpanRec l f).copies = s.copies := rfl
@[simp] theorem modSpanRec_heads (l : LineId) (f : SpanRec → SpanRec) : (s.modSpanRec l f).heads = s.heads := rfl
@[simp] theorem modSpanRec_drivenDuty (l : LineId) (f : SpanRec → SpanRec) : (s.modSpanRec l f).drivenDuty = s.drivenDuty := rfl
@[simp] theorem modSpanRec_knots (l : LineId) (f : SpanRec → SpanRec) : (s.modSpanRec l f).knots = s.knots := rfl
@[simp] theorem modSpanRec_linkK1 (l : LineId) (f : SpanRec → SpanRec) : (s.modSpanRec l f).linkK1 = s.linkK1 := rfl
@[simp] theorem modSpanRec_linkK2 (l : LineId) (f : SpanRec → SpanRec) : (s.modSpanRec l f).linkK2 = s.linkK2 := rfl
@[simp] theorem modSpanRec_coils (l : LineId) (f : SpanRec → SpanRec) : (s.modSpanRec l f).coils = s.coils := rfl
@[simp] theorem modSpanRec_lanes (l : LineId) (f : SpanRec → SpanRec) : (s.modSpanRec l f).lanes = s.lanes := rfl
@[simp] theorem modSpanRec_pack (l : LineId) (f : SpanRec → SpanRec) : (s.modSpanRec l f).pack = s.pack := rfl
@[simp] theorem modSpanRec_completed (l : LineId) (f : SpanRec → SpanRec) : (s.modSpanRec l f).completed = s.completed := rfl
@[simp] theorem modSpanRec_choices (l : LineId) (f : SpanRec → SpanRec) : (s.modSpanRec l f).choices = s.choices := rfl
@[simp] theorem modSpanRec_pending (l : LineId) (f : SpanRec → SpanRec) : (s.modSpanRec l f).pending = s.pending := rfl
@[simp] theorem modSpanRec_line (l : LineId) (f : SpanRec → SpanRec) (x : LineId) : (s.modSpanRec l f).line x = s.line x := rfl
@[simp] theorem modSpanRec_pos (l : LineId) (f : SpanRec → SpanRec) (x : LineId) : (s.modSpanRec l f).pos x = s.pos x := rfl
@[simp] theorem modSpanRec_knot (l : LineId) (f : SpanRec → SpanRec) (x : LineId) : (s.modSpanRec l f).knot x = s.knot x := rfl
@[simp] theorem modSpanRec_coilRec (l : LineId) (f : SpanRec → SpanRec) (x : LineId) : (s.modSpanRec l f).coilRec x = s.coilRec x := rfl
@[simp] theorem modSpanRec_lane (l : LineId) (f : SpanRec → SpanRec) (x : LineId) : (s.modSpanRec l f).lane x = s.lane x := rfl
@[simp] theorem modSpanRec_channel (l : LineId) (f : SpanRec → SpanRec) (x : ChannelId) : (s.modSpanRec l f).channel x = s.channel x := rfl
@[simp] theorem modSpanRec_head (l : LineId) (f : SpanRec → SpanRec) (x : HeadId) : (s.modSpanRec l f).head x = s.head x := rfl
@[simp] theorem modSpanRec_copy (l : LineId) (f : SpanRec → SpanRec) (x : HeadId) : (s.modSpanRec l f).copy x = s.copy x := rfl
@[simp] theorem modSpanRec_recipe (l : LineId) (f : SpanRec → SpanRec) (x : Slot) : (s.modSpanRec l f).recipe x = s.recipe x := rfl
@[simp] theorem modSpanRec_scanLink (l : LineId) (f : SpanRec → SpanRec) (x : ScanLink) : (s.modSpanRec l f).scanLink x = s.scanLink x := rfl
@[simp] theorem modSpanRec_spanRec_self (l : LineId) (f : SpanRec → SpanRec) : (s.modSpanRec l f).spanRec l = f (s.spanRec l) := PerLine.get_set_self _ _ _
theorem modSpanRec_spanRec (l : LineId) (f : SpanRec → SpanRec) (x : LineId) :
    (s.modSpanRec l f).spanRec x = if x = l then f (s.spanRec l) else s.spanRec x := PerLine.get_set _ _ _ _
@[simp] theorem modSpanRec_spanRec_of_ne (l : LineId) (f : SpanRec → SpanRec) {x : LineId} (h : x ≠ l) : (s.modSpanRec l f).spanRec x = s.spanRec x := by
  rw [modSpanRec_spanRec, if_neg h]

/-! ## `modCoil` -/

@[simp] theorem modCoil_now (l : LineId) (f : CoilRec → CoilRec) : (s.modCoil l f).now = s.now := rfl
@[simp] theorem modCoil_epoch (l : LineId) (f : CoilRec → CoilRec) : (s.modCoil l f).epoch = s.epoch := rfl
@[simp] theorem modCoil_link (l : LineId) (f : CoilRec → CoilRec) : (s.modCoil l f).link = s.link := rfl
@[simp] theorem modCoil_guard (l : LineId) (f : CoilRec → CoilRec) : (s.modCoil l f).guard = s.guard := rfl
@[simp] theorem modCoil_channels (l : LineId) (f : CoilRec → CoilRec) : (s.modCoil l f).channels = s.channels := rfl
@[simp] theorem modCoil_lines (l : LineId) (f : CoilRec → CoilRec) : (s.modCoil l f).lines = s.lines := rfl
@[simp] theorem modCoil_positions (l : LineId) (f : CoilRec → CoilRec) : (s.modCoil l f).positions = s.positions := rfl
@[simp] theorem modCoil_slots (l : LineId) (f : CoilRec → CoilRec) : (s.modCoil l f).slots = s.slots := rfl
@[simp] theorem modCoil_copies (l : LineId) (f : CoilRec → CoilRec) : (s.modCoil l f).copies = s.copies := rfl
@[simp] theorem modCoil_heads (l : LineId) (f : CoilRec → CoilRec) : (s.modCoil l f).heads = s.heads := rfl
@[simp] theorem modCoil_drivenDuty (l : LineId) (f : CoilRec → CoilRec) : (s.modCoil l f).drivenDuty = s.drivenDuty := rfl
@[simp] theorem modCoil_knots (l : LineId) (f : CoilRec → CoilRec) : (s.modCoil l f).knots = s.knots := rfl
@[simp] theorem modCoil_linkK1 (l : LineId) (f : CoilRec → CoilRec) : (s.modCoil l f).linkK1 = s.linkK1 := rfl
@[simp] theorem modCoil_linkK2 (l : LineId) (f : CoilRec → CoilRec) : (s.modCoil l f).linkK2 = s.linkK2 := rfl
@[simp] theorem modCoil_spanRecs (l : LineId) (f : CoilRec → CoilRec) : (s.modCoil l f).spanRecs = s.spanRecs := rfl
@[simp] theorem modCoil_lanes (l : LineId) (f : CoilRec → CoilRec) : (s.modCoil l f).lanes = s.lanes := rfl
@[simp] theorem modCoil_pack (l : LineId) (f : CoilRec → CoilRec) : (s.modCoil l f).pack = s.pack := rfl
@[simp] theorem modCoil_completed (l : LineId) (f : CoilRec → CoilRec) : (s.modCoil l f).completed = s.completed := rfl
@[simp] theorem modCoil_choices (l : LineId) (f : CoilRec → CoilRec) : (s.modCoil l f).choices = s.choices := rfl
@[simp] theorem modCoil_pending (l : LineId) (f : CoilRec → CoilRec) : (s.modCoil l f).pending = s.pending := rfl
@[simp] theorem modCoil_line (l : LineId) (f : CoilRec → CoilRec) (x : LineId) : (s.modCoil l f).line x = s.line x := rfl
@[simp] theorem modCoil_pos (l : LineId) (f : CoilRec → CoilRec) (x : LineId) : (s.modCoil l f).pos x = s.pos x := rfl
@[simp] theorem modCoil_knot (l : LineId) (f : CoilRec → CoilRec) (x : LineId) : (s.modCoil l f).knot x = s.knot x := rfl
@[simp] theorem modCoil_spanRec (l : LineId) (f : CoilRec → CoilRec) (x : LineId) : (s.modCoil l f).spanRec x = s.spanRec x := rfl
@[simp] theorem modCoil_lane (l : LineId) (f : CoilRec → CoilRec) (x : LineId) : (s.modCoil l f).lane x = s.lane x := rfl
@[simp] theorem modCoil_channel (l : LineId) (f : CoilRec → CoilRec) (x : ChannelId) : (s.modCoil l f).channel x = s.channel x := rfl
@[simp] theorem modCoil_head (l : LineId) (f : CoilRec → CoilRec) (x : HeadId) : (s.modCoil l f).head x = s.head x := rfl
@[simp] theorem modCoil_copy (l : LineId) (f : CoilRec → CoilRec) (x : HeadId) : (s.modCoil l f).copy x = s.copy x := rfl
@[simp] theorem modCoil_recipe (l : LineId) (f : CoilRec → CoilRec) (x : Slot) : (s.modCoil l f).recipe x = s.recipe x := rfl
@[simp] theorem modCoil_scanLink (l : LineId) (f : CoilRec → CoilRec) (x : ScanLink) : (s.modCoil l f).scanLink x = s.scanLink x := rfl
@[simp] theorem modCoil_coilRec_self (l : LineId) (f : CoilRec → CoilRec) : (s.modCoil l f).coilRec l = f (s.coilRec l) := PerLine.get_set_self _ _ _
theorem modCoil_coilRec (l : LineId) (f : CoilRec → CoilRec) (x : LineId) :
    (s.modCoil l f).coilRec x = if x = l then f (s.coilRec l) else s.coilRec x := PerLine.get_set _ _ _ _
@[simp] theorem modCoil_coilRec_of_ne (l : LineId) (f : CoilRec → CoilRec) {x : LineId} (h : x ≠ l) : (s.modCoil l f).coilRec x = s.coilRec x := by
  rw [modCoil_coilRec, if_neg h]

/-! ## `modLane` -/

@[simp] theorem modLane_now (l : LineId) (f : LaneRec → LaneRec) : (s.modLane l f).now = s.now := rfl
@[simp] theorem modLane_epoch (l : LineId) (f : LaneRec → LaneRec) : (s.modLane l f).epoch = s.epoch := rfl
@[simp] theorem modLane_link (l : LineId) (f : LaneRec → LaneRec) : (s.modLane l f).link = s.link := rfl
@[simp] theorem modLane_guard (l : LineId) (f : LaneRec → LaneRec) : (s.modLane l f).guard = s.guard := rfl
@[simp] theorem modLane_channels (l : LineId) (f : LaneRec → LaneRec) : (s.modLane l f).channels = s.channels := rfl
@[simp] theorem modLane_lines (l : LineId) (f : LaneRec → LaneRec) : (s.modLane l f).lines = s.lines := rfl
@[simp] theorem modLane_positions (l : LineId) (f : LaneRec → LaneRec) : (s.modLane l f).positions = s.positions := rfl
@[simp] theorem modLane_slots (l : LineId) (f : LaneRec → LaneRec) : (s.modLane l f).slots = s.slots := rfl
@[simp] theorem modLane_copies (l : LineId) (f : LaneRec → LaneRec) : (s.modLane l f).copies = s.copies := rfl
@[simp] theorem modLane_heads (l : LineId) (f : LaneRec → LaneRec) : (s.modLane l f).heads = s.heads := rfl
@[simp] theorem modLane_drivenDuty (l : LineId) (f : LaneRec → LaneRec) : (s.modLane l f).drivenDuty = s.drivenDuty := rfl
@[simp] theorem modLane_knots (l : LineId) (f : LaneRec → LaneRec) : (s.modLane l f).knots = s.knots := rfl
@[simp] theorem modLane_linkK1 (l : LineId) (f : LaneRec → LaneRec) : (s.modLane l f).linkK1 = s.linkK1 := rfl
@[simp] theorem modLane_linkK2 (l : LineId) (f : LaneRec → LaneRec) : (s.modLane l f).linkK2 = s.linkK2 := rfl
@[simp] theorem modLane_spanRecs (l : LineId) (f : LaneRec → LaneRec) : (s.modLane l f).spanRecs = s.spanRecs := rfl
@[simp] theorem modLane_coils (l : LineId) (f : LaneRec → LaneRec) : (s.modLane l f).coils = s.coils := rfl
@[simp] theorem modLane_pack (l : LineId) (f : LaneRec → LaneRec) : (s.modLane l f).pack = s.pack := rfl
@[simp] theorem modLane_completed (l : LineId) (f : LaneRec → LaneRec) : (s.modLane l f).completed = s.completed := rfl
@[simp] theorem modLane_choices (l : LineId) (f : LaneRec → LaneRec) : (s.modLane l f).choices = s.choices := rfl
@[simp] theorem modLane_pending (l : LineId) (f : LaneRec → LaneRec) : (s.modLane l f).pending = s.pending := rfl
@[simp] theorem modLane_line (l : LineId) (f : LaneRec → LaneRec) (x : LineId) : (s.modLane l f).line x = s.line x := rfl
@[simp] theorem modLane_pos (l : LineId) (f : LaneRec → LaneRec) (x : LineId) : (s.modLane l f).pos x = s.pos x := rfl
@[simp] theorem modLane_knot (l : LineId) (f : LaneRec → LaneRec) (x : LineId) : (s.modLane l f).knot x = s.knot x := rfl
@[simp] theorem modLane_spanRec (l : LineId) (f : LaneRec → LaneRec) (x : LineId) : (s.modLane l f).spanRec x = s.spanRec x := rfl
@[simp] theorem modLane_coilRec (l : LineId) (f : LaneRec → LaneRec) (x : LineId) : (s.modLane l f).coilRec x = s.coilRec x := rfl
@[simp] theorem modLane_channel (l : LineId) (f : LaneRec → LaneRec) (x : ChannelId) : (s.modLane l f).channel x = s.channel x := rfl
@[simp] theorem modLane_head (l : LineId) (f : LaneRec → LaneRec) (x : HeadId) : (s.modLane l f).head x = s.head x := rfl
@[simp] theorem modLane_copy (l : LineId) (f : LaneRec → LaneRec) (x : HeadId) : (s.modLane l f).copy x = s.copy x := rfl
@[simp] theorem modLane_recipe (l : LineId) (f : LaneRec → LaneRec) (x : Slot) : (s.modLane l f).recipe x = s.recipe x := rfl
@[simp] theorem modLane_scanLink (l : LineId) (f : LaneRec → LaneRec) (x : ScanLink) : (s.modLane l f).scanLink x = s.scanLink x := rfl
@[simp] theorem modLane_lane_self (l : LineId) (f : LaneRec → LaneRec) : (s.modLane l f).lane l = f (s.lane l) := PerLine.get_set_self _ _ _
theorem modLane_lane (l : LineId) (f : LaneRec → LaneRec) (x : LineId) :
    (s.modLane l f).lane x = if x = l then f (s.lane l) else s.lane x := PerLine.get_set _ _ _ _
@[simp] theorem modLane_lane_of_ne (l : LineId) (f : LaneRec → LaneRec) {x : LineId} (h : x ≠ l) : (s.modLane l f).lane x = s.lane x := by
  rw [modLane_lane, if_neg h]

/-! ## `modChannel` -/

@[simp] theorem modChannel_now (c : ChannelId) (f : Channel → Channel) : (s.modChannel c f).now = s.now := rfl
@[simp] theorem modChannel_epoch (c : ChannelId) (f : Channel → Channel) : (s.modChannel c f).epoch = s.epoch := rfl
@[simp] theorem modChannel_link (c : ChannelId) (f : Channel → Channel) : (s.modChannel c f).link = s.link := rfl
@[simp] theorem modChannel_guard (c : ChannelId) (f : Channel → Channel) : (s.modChannel c f).guard = s.guard := rfl
@[simp] theorem modChannel_lines (c : ChannelId) (f : Channel → Channel) : (s.modChannel c f).lines = s.lines := rfl
@[simp] theorem modChannel_positions (c : ChannelId) (f : Channel → Channel) : (s.modChannel c f).positions = s.positions := rfl
@[simp] theorem modChannel_slots (c : ChannelId) (f : Channel → Channel) : (s.modChannel c f).slots = s.slots := rfl
@[simp] theorem modChannel_copies (c : ChannelId) (f : Channel → Channel) : (s.modChannel c f).copies = s.copies := rfl
@[simp] theorem modChannel_heads (c : ChannelId) (f : Channel → Channel) : (s.modChannel c f).heads = s.heads := rfl
@[simp] theorem modChannel_drivenDuty (c : ChannelId) (f : Channel → Channel) : (s.modChannel c f).drivenDuty = s.drivenDuty := rfl
@[simp] theorem modChannel_knots (c : ChannelId) (f : Channel → Channel) : (s.modChannel c f).knots = s.knots := rfl
@[simp] theorem modChannel_linkK1 (c : ChannelId) (f : Channel → Channel) : (s.modChannel c f).linkK1 = s.linkK1 := rfl
@[simp] theorem modChannel_linkK2 (c : ChannelId) (f : Channel → Channel) : (s.modChannel c f).linkK2 = s.linkK2 := rfl
@[simp] theorem modChannel_spanRecs (c : ChannelId) (f : Channel → Channel) : (s.modChannel c f).spanRecs = s.spanRecs := rfl
@[simp] theorem modChannel_coils (c : ChannelId) (f : Channel → Channel) : (s.modChannel c f).coils = s.coils := rfl
@[simp] theorem modChannel_lanes (c : ChannelId) (f : Channel → Channel) : (s.modChannel c f).lanes = s.lanes := rfl
@[simp] theorem modChannel_pack (c : ChannelId) (f : Channel → Channel) : (s.modChannel c f).pack = s.pack := rfl
@[simp] theorem modChannel_completed (c : ChannelId) (f : Channel → Channel) : (s.modChannel c f).completed = s.completed := rfl
@[simp] theorem modChannel_choices (c : ChannelId) (f : Channel → Channel) : (s.modChannel c f).choices = s.choices := rfl
@[simp] theorem modChannel_pending (c : ChannelId) (f : Channel → Channel) : (s.modChannel c f).pending = s.pending := rfl
@[simp] theorem modChannel_line (c : ChannelId) (f : Channel → Channel) (x : LineId) : (s.modChannel c f).line x = s.line x := rfl
@[simp] theorem modChannel_pos (c : ChannelId) (f : Channel → Channel) (x : LineId) : (s.modChannel c f).pos x = s.pos x := rfl
@[simp] theorem modChannel_knot (c : ChannelId) (f : Channel → Channel) (x : LineId) : (s.modChannel c f).knot x = s.knot x := rfl
@[simp] theorem modChannel_spanRec (c : ChannelId) (f : Channel → Channel) (x : LineId) : (s.modChannel c f).spanRec x = s.spanRec x := rfl
@[simp] theorem modChannel_coilRec (c : ChannelId) (f : Channel → Channel) (x : LineId) : (s.modChannel c f).coilRec x = s.coilRec x := rfl
@[simp] theorem modChannel_lane (c : ChannelId) (f : Channel → Channel) (x : LineId) : (s.modChannel c f).lane x = s.lane x := rfl
@[simp] theorem modChannel_head (c : ChannelId) (f : Channel → Channel) (x : HeadId) : (s.modChannel c f).head x = s.head x := rfl
@[simp] theorem modChannel_copy (c : ChannelId) (f : Channel → Channel) (x : HeadId) : (s.modChannel c f).copy x = s.copy x := rfl
@[simp] theorem modChannel_recipe (c : ChannelId) (f : Channel → Channel) (x : Slot) : (s.modChannel c f).recipe x = s.recipe x := rfl
@[simp] theorem modChannel_scanLink (c : ChannelId) (f : Channel → Channel) (x : ScanLink) : (s.modChannel c f).scanLink x = s.scanLink x := rfl
theorem modChannel_channel (c : ChannelId) (f : Channel → Channel) (x : ChannelId) :
    (s.modChannel c f).channel x = if x = c then f (s.channel c) else s.channel x := get_set_vector _ _ _ _
@[simp] theorem modChannel_channel_self (c : ChannelId) (f : Channel → Channel) : (s.modChannel c f).channel c = f (s.channel c) := by
  rw [modChannel_channel, if_pos rfl]
@[simp] theorem modChannel_channel_of_ne (c : ChannelId) (f : Channel → Channel) {x : ChannelId} (hx : x ≠ c) :
    (s.modChannel c f).channel x = s.channel x := by
  rw [modChannel_channel, if_neg hx]

/-! ## `modHead` -/

@[simp] theorem modHead_now (h : HeadId) (f : HeadRec → HeadRec) : (s.modHead h f).now = s.now := rfl
@[simp] theorem modHead_epoch (h : HeadId) (f : HeadRec → HeadRec) : (s.modHead h f).epoch = s.epoch := rfl
@[simp] theorem modHead_link (h : HeadId) (f : HeadRec → HeadRec) : (s.modHead h f).link = s.link := rfl
@[simp] theorem modHead_guard (h : HeadId) (f : HeadRec → HeadRec) : (s.modHead h f).guard = s.guard := rfl
@[simp] theorem modHead_channels (h : HeadId) (f : HeadRec → HeadRec) : (s.modHead h f).channels = s.channels := rfl
@[simp] theorem modHead_lines (h : HeadId) (f : HeadRec → HeadRec) : (s.modHead h f).lines = s.lines := rfl
@[simp] theorem modHead_positions (h : HeadId) (f : HeadRec → HeadRec) : (s.modHead h f).positions = s.positions := rfl
@[simp] theorem modHead_slots (h : HeadId) (f : HeadRec → HeadRec) : (s.modHead h f).slots = s.slots := rfl
@[simp] theorem modHead_copies (h : HeadId) (f : HeadRec → HeadRec) : (s.modHead h f).copies = s.copies := rfl
@[simp] theorem modHead_drivenDuty (h : HeadId) (f : HeadRec → HeadRec) : (s.modHead h f).drivenDuty = s.drivenDuty := rfl
@[simp] theorem modHead_knots (h : HeadId) (f : HeadRec → HeadRec) : (s.modHead h f).knots = s.knots := rfl
@[simp] theorem modHead_linkK1 (h : HeadId) (f : HeadRec → HeadRec) : (s.modHead h f).linkK1 = s.linkK1 := rfl
@[simp] theorem modHead_linkK2 (h : HeadId) (f : HeadRec → HeadRec) : (s.modHead h f).linkK2 = s.linkK2 := rfl
@[simp] theorem modHead_spanRecs (h : HeadId) (f : HeadRec → HeadRec) : (s.modHead h f).spanRecs = s.spanRecs := rfl
@[simp] theorem modHead_coils (h : HeadId) (f : HeadRec → HeadRec) : (s.modHead h f).coils = s.coils := rfl
@[simp] theorem modHead_lanes (h : HeadId) (f : HeadRec → HeadRec) : (s.modHead h f).lanes = s.lanes := rfl
@[simp] theorem modHead_pack (h : HeadId) (f : HeadRec → HeadRec) : (s.modHead h f).pack = s.pack := rfl
@[simp] theorem modHead_completed (h : HeadId) (f : HeadRec → HeadRec) : (s.modHead h f).completed = s.completed := rfl
@[simp] theorem modHead_choices (h : HeadId) (f : HeadRec → HeadRec) : (s.modHead h f).choices = s.choices := rfl
@[simp] theorem modHead_pending (h : HeadId) (f : HeadRec → HeadRec) : (s.modHead h f).pending = s.pending := rfl
@[simp] theorem modHead_line (h : HeadId) (f : HeadRec → HeadRec) (x : LineId) : (s.modHead h f).line x = s.line x := rfl
@[simp] theorem modHead_pos (h : HeadId) (f : HeadRec → HeadRec) (x : LineId) : (s.modHead h f).pos x = s.pos x := rfl
@[simp] theorem modHead_knot (h : HeadId) (f : HeadRec → HeadRec) (x : LineId) : (s.modHead h f).knot x = s.knot x := rfl
@[simp] theorem modHead_spanRec (h : HeadId) (f : HeadRec → HeadRec) (x : LineId) : (s.modHead h f).spanRec x = s.spanRec x := rfl
@[simp] theorem modHead_coilRec (h : HeadId) (f : HeadRec → HeadRec) (x : LineId) : (s.modHead h f).coilRec x = s.coilRec x := rfl
@[simp] theorem modHead_lane (h : HeadId) (f : HeadRec → HeadRec) (x : LineId) : (s.modHead h f).lane x = s.lane x := rfl
@[simp] theorem modHead_channel (h : HeadId) (f : HeadRec → HeadRec) (x : ChannelId) : (s.modHead h f).channel x = s.channel x := rfl
@[simp] theorem modHead_copy (h : HeadId) (f : HeadRec → HeadRec) (x : HeadId) : (s.modHead h f).copy x = s.copy x := rfl
@[simp] theorem modHead_recipe (h : HeadId) (f : HeadRec → HeadRec) (x : Slot) : (s.modHead h f).recipe x = s.recipe x := rfl
@[simp] theorem modHead_scanLink (h : HeadId) (f : HeadRec → HeadRec) (x : ScanLink) : (s.modHead h f).scanLink x = s.scanLink x := rfl
theorem modHead_head (h : HeadId) (f : HeadRec → HeadRec) (x : HeadId) :
    (s.modHead h f).head x = if x = h then f (s.head h) else s.head x := get_set_vector _ _ _ _
@[simp] theorem modHead_head_self (h : HeadId) (f : HeadRec → HeadRec) : (s.modHead h f).head h = f (s.head h) := by
  rw [modHead_head, if_pos rfl]
@[simp] theorem modHead_head_of_ne (h : HeadId) (f : HeadRec → HeadRec) {x : HeadId} (hx : x ≠ h) :
    (s.modHead h f).head x = s.head x := by
  rw [modHead_head, if_neg hx]

/-! ## `setCopy` -/

@[simp] theorem setCopy_now (h : HeadId) (c : WorkingCopy) : (s.setCopy h c).now = s.now := rfl
@[simp] theorem setCopy_epoch (h : HeadId) (c : WorkingCopy) : (s.setCopy h c).epoch = s.epoch := rfl
@[simp] theorem setCopy_link (h : HeadId) (c : WorkingCopy) : (s.setCopy h c).link = s.link := rfl
@[simp] theorem setCopy_guard (h : HeadId) (c : WorkingCopy) : (s.setCopy h c).guard = s.guard := rfl
@[simp] theorem setCopy_channels (h : HeadId) (c : WorkingCopy) : (s.setCopy h c).channels = s.channels := rfl
@[simp] theorem setCopy_lines (h : HeadId) (c : WorkingCopy) : (s.setCopy h c).lines = s.lines := rfl
@[simp] theorem setCopy_positions (h : HeadId) (c : WorkingCopy) : (s.setCopy h c).positions = s.positions := rfl
@[simp] theorem setCopy_slots (h : HeadId) (c : WorkingCopy) : (s.setCopy h c).slots = s.slots := rfl
@[simp] theorem setCopy_heads (h : HeadId) (c : WorkingCopy) : (s.setCopy h c).heads = s.heads := rfl
@[simp] theorem setCopy_drivenDuty (h : HeadId) (c : WorkingCopy) : (s.setCopy h c).drivenDuty = s.drivenDuty := rfl
@[simp] theorem setCopy_knots (h : HeadId) (c : WorkingCopy) : (s.setCopy h c).knots = s.knots := rfl
@[simp] theorem setCopy_linkK1 (h : HeadId) (c : WorkingCopy) : (s.setCopy h c).linkK1 = s.linkK1 := rfl
@[simp] theorem setCopy_linkK2 (h : HeadId) (c : WorkingCopy) : (s.setCopy h c).linkK2 = s.linkK2 := rfl
@[simp] theorem setCopy_spanRecs (h : HeadId) (c : WorkingCopy) : (s.setCopy h c).spanRecs = s.spanRecs := rfl
@[simp] theorem setCopy_coils (h : HeadId) (c : WorkingCopy) : (s.setCopy h c).coils = s.coils := rfl
@[simp] theorem setCopy_lanes (h : HeadId) (c : WorkingCopy) : (s.setCopy h c).lanes = s.lanes := rfl
@[simp] theorem setCopy_pack (h : HeadId) (c : WorkingCopy) : (s.setCopy h c).pack = s.pack := rfl
@[simp] theorem setCopy_completed (h : HeadId) (c : WorkingCopy) : (s.setCopy h c).completed = s.completed := rfl
@[simp] theorem setCopy_choices (h : HeadId) (c : WorkingCopy) : (s.setCopy h c).choices = s.choices := rfl
@[simp] theorem setCopy_pending (h : HeadId) (c : WorkingCopy) : (s.setCopy h c).pending = s.pending := rfl
@[simp] theorem setCopy_line (h : HeadId) (c : WorkingCopy) (x : LineId) : (s.setCopy h c).line x = s.line x := rfl
@[simp] theorem setCopy_pos (h : HeadId) (c : WorkingCopy) (x : LineId) : (s.setCopy h c).pos x = s.pos x := rfl
@[simp] theorem setCopy_knot (h : HeadId) (c : WorkingCopy) (x : LineId) : (s.setCopy h c).knot x = s.knot x := rfl
@[simp] theorem setCopy_spanRec (h : HeadId) (c : WorkingCopy) (x : LineId) : (s.setCopy h c).spanRec x = s.spanRec x := rfl
@[simp] theorem setCopy_coilRec (h : HeadId) (c : WorkingCopy) (x : LineId) : (s.setCopy h c).coilRec x = s.coilRec x := rfl
@[simp] theorem setCopy_lane (h : HeadId) (c : WorkingCopy) (x : LineId) : (s.setCopy h c).lane x = s.lane x := rfl
@[simp] theorem setCopy_channel (h : HeadId) (c : WorkingCopy) (x : ChannelId) : (s.setCopy h c).channel x = s.channel x := rfl
@[simp] theorem setCopy_head (h : HeadId) (c : WorkingCopy) (x : HeadId) : (s.setCopy h c).head x = s.head x := rfl
@[simp] theorem setCopy_recipe (h : HeadId) (c : WorkingCopy) (x : Slot) : (s.setCopy h c).recipe x = s.recipe x := rfl
@[simp] theorem setCopy_scanLink (h : HeadId) (c : WorkingCopy) (x : ScanLink) : (s.setCopy h c).scanLink x = s.scanLink x := rfl
theorem setCopy_copy (h : HeadId) (c : WorkingCopy) (x : HeadId) :
    (s.setCopy h c).copy x = if x = h then c else s.copy x := get_set_vector _ _ _ _
@[simp] theorem setCopy_copy_self (h : HeadId) (c : WorkingCopy) : (s.setCopy h c).copy h = c := by
  rw [setCopy_copy, if_pos rfl]
@[simp] theorem setCopy_copy_of_ne (h : HeadId) (c : WorkingCopy) {x : HeadId} (hx : x ≠ h) :
    (s.setCopy h c).copy x = s.copy x := by
  rw [setCopy_copy, if_neg hx]

/-! ## `setRecipe` -/

@[simp] theorem setRecipe_now (n : Slot) (r : Option Recipe) : (s.setRecipe n r).now = s.now := rfl
@[simp] theorem setRecipe_epoch (n : Slot) (r : Option Recipe) : (s.setRecipe n r).epoch = s.epoch := rfl
@[simp] theorem setRecipe_link (n : Slot) (r : Option Recipe) : (s.setRecipe n r).link = s.link := rfl
@[simp] theorem setRecipe_guard (n : Slot) (r : Option Recipe) : (s.setRecipe n r).guard = s.guard := rfl
@[simp] theorem setRecipe_channels (n : Slot) (r : Option Recipe) : (s.setRecipe n r).channels = s.channels := rfl
@[simp] theorem setRecipe_lines (n : Slot) (r : Option Recipe) : (s.setRecipe n r).lines = s.lines := rfl
@[simp] theorem setRecipe_positions (n : Slot) (r : Option Recipe) : (s.setRecipe n r).positions = s.positions := rfl
@[simp] theorem setRecipe_copies (n : Slot) (r : Option Recipe) : (s.setRecipe n r).copies = s.copies := rfl
@[simp] theorem setRecipe_heads (n : Slot) (r : Option Recipe) : (s.setRecipe n r).heads = s.heads := rfl
@[simp] theorem setRecipe_drivenDuty (n : Slot) (r : Option Recipe) : (s.setRecipe n r).drivenDuty = s.drivenDuty := rfl
@[simp] theorem setRecipe_knots (n : Slot) (r : Option Recipe) : (s.setRecipe n r).knots = s.knots := rfl
@[simp] theorem setRecipe_linkK1 (n : Slot) (r : Option Recipe) : (s.setRecipe n r).linkK1 = s.linkK1 := rfl
@[simp] theorem setRecipe_linkK2 (n : Slot) (r : Option Recipe) : (s.setRecipe n r).linkK2 = s.linkK2 := rfl
@[simp] theorem setRecipe_spanRecs (n : Slot) (r : Option Recipe) : (s.setRecipe n r).spanRecs = s.spanRecs := rfl
@[simp] theorem setRecipe_coils (n : Slot) (r : Option Recipe) : (s.setRecipe n r).coils = s.coils := rfl
@[simp] theorem setRecipe_lanes (n : Slot) (r : Option Recipe) : (s.setRecipe n r).lanes = s.lanes := rfl
@[simp] theorem setRecipe_pack (n : Slot) (r : Option Recipe) : (s.setRecipe n r).pack = s.pack := rfl
@[simp] theorem setRecipe_completed (n : Slot) (r : Option Recipe) : (s.setRecipe n r).completed = s.completed := rfl
@[simp] theorem setRecipe_choices (n : Slot) (r : Option Recipe) : (s.setRecipe n r).choices = s.choices := rfl
@[simp] theorem setRecipe_pending (n : Slot) (r : Option Recipe) : (s.setRecipe n r).pending = s.pending := rfl
@[simp] theorem setRecipe_line (n : Slot) (r : Option Recipe) (x : LineId) : (s.setRecipe n r).line x = s.line x := rfl
@[simp] theorem setRecipe_pos (n : Slot) (r : Option Recipe) (x : LineId) : (s.setRecipe n r).pos x = s.pos x := rfl
@[simp] theorem setRecipe_knot (n : Slot) (r : Option Recipe) (x : LineId) : (s.setRecipe n r).knot x = s.knot x := rfl
@[simp] theorem setRecipe_spanRec (n : Slot) (r : Option Recipe) (x : LineId) : (s.setRecipe n r).spanRec x = s.spanRec x := rfl
@[simp] theorem setRecipe_coilRec (n : Slot) (r : Option Recipe) (x : LineId) : (s.setRecipe n r).coilRec x = s.coilRec x := rfl
@[simp] theorem setRecipe_lane (n : Slot) (r : Option Recipe) (x : LineId) : (s.setRecipe n r).lane x = s.lane x := rfl
@[simp] theorem setRecipe_channel (n : Slot) (r : Option Recipe) (x : ChannelId) : (s.setRecipe n r).channel x = s.channel x := rfl
@[simp] theorem setRecipe_head (n : Slot) (r : Option Recipe) (x : HeadId) : (s.setRecipe n r).head x = s.head x := rfl
@[simp] theorem setRecipe_copy (n : Slot) (r : Option Recipe) (x : HeadId) : (s.setRecipe n r).copy x = s.copy x := rfl
@[simp] theorem setRecipe_scanLink (n : Slot) (r : Option Recipe) (x : ScanLink) : (s.setRecipe n r).scanLink x = s.scanLink x := rfl
theorem setRecipe_recipe (n : Slot) (r : Option Recipe) (x : Slot) :
    (s.setRecipe n r).recipe x = if x = n then r else s.recipe x := get_set_vector _ _ _ _
@[simp] theorem setRecipe_recipe_self (n : Slot) (r : Option Recipe) : (s.setRecipe n r).recipe n = r := by
  rw [setRecipe_recipe, if_pos rfl]
@[simp] theorem setRecipe_recipe_of_ne (n : Slot) (r : Option Recipe) {x : Slot} (hx : x ≠ n) :
    (s.setRecipe n r).recipe x = s.recipe x := by
  rw [setRecipe_recipe, if_neg hx]

/-! ## `modLink` -/

@[simp] theorem modLink_now (f : Link → Link) : (s.modLink f).now = s.now := rfl
@[simp] theorem modLink_epoch (f : Link → Link) : (s.modLink f).epoch = s.epoch := rfl
@[simp] theorem modLink_guard (f : Link → Link) : (s.modLink f).guard = s.guard := rfl
@[simp] theorem modLink_channels (f : Link → Link) : (s.modLink f).channels = s.channels := rfl
@[simp] theorem modLink_lines (f : Link → Link) : (s.modLink f).lines = s.lines := rfl
@[simp] theorem modLink_positions (f : Link → Link) : (s.modLink f).positions = s.positions := rfl
@[simp] theorem modLink_slots (f : Link → Link) : (s.modLink f).slots = s.slots := rfl
@[simp] theorem modLink_copies (f : Link → Link) : (s.modLink f).copies = s.copies := rfl
@[simp] theorem modLink_heads (f : Link → Link) : (s.modLink f).heads = s.heads := rfl
@[simp] theorem modLink_drivenDuty (f : Link → Link) : (s.modLink f).drivenDuty = s.drivenDuty := rfl
@[simp] theorem modLink_knots (f : Link → Link) : (s.modLink f).knots = s.knots := rfl
@[simp] theorem modLink_linkK1 (f : Link → Link) : (s.modLink f).linkK1 = s.linkK1 := rfl
@[simp] theorem modLink_linkK2 (f : Link → Link) : (s.modLink f).linkK2 = s.linkK2 := rfl
@[simp] theorem modLink_spanRecs (f : Link → Link) : (s.modLink f).spanRecs = s.spanRecs := rfl
@[simp] theorem modLink_coils (f : Link → Link) : (s.modLink f).coils = s.coils := rfl
@[simp] theorem modLink_lanes (f : Link → Link) : (s.modLink f).lanes = s.lanes := rfl
@[simp] theorem modLink_pack (f : Link → Link) : (s.modLink f).pack = s.pack := rfl
@[simp] theorem modLink_completed (f : Link → Link) : (s.modLink f).completed = s.completed := rfl
@[simp] theorem modLink_choices (f : Link → Link) : (s.modLink f).choices = s.choices := rfl
@[simp] theorem modLink_pending (f : Link → Link) : (s.modLink f).pending = s.pending := rfl
@[simp] theorem modLink_line (f : Link → Link) (x : LineId) : (s.modLink f).line x = s.line x := rfl
@[simp] theorem modLink_pos (f : Link → Link) (x : LineId) : (s.modLink f).pos x = s.pos x := rfl
@[simp] theorem modLink_knot (f : Link → Link) (x : LineId) : (s.modLink f).knot x = s.knot x := rfl
@[simp] theorem modLink_spanRec (f : Link → Link) (x : LineId) : (s.modLink f).spanRec x = s.spanRec x := rfl
@[simp] theorem modLink_coilRec (f : Link → Link) (x : LineId) : (s.modLink f).coilRec x = s.coilRec x := rfl
@[simp] theorem modLink_lane (f : Link → Link) (x : LineId) : (s.modLink f).lane x = s.lane x := rfl
@[simp] theorem modLink_channel (f : Link → Link) (x : ChannelId) : (s.modLink f).channel x = s.channel x := rfl
@[simp] theorem modLink_head (f : Link → Link) (x : HeadId) : (s.modLink f).head x = s.head x := rfl
@[simp] theorem modLink_copy (f : Link → Link) (x : HeadId) : (s.modLink f).copy x = s.copy x := rfl
@[simp] theorem modLink_recipe (f : Link → Link) (x : Slot) : (s.modLink f).recipe x = s.recipe x := rfl
@[simp] theorem modLink_scanLink (f : Link → Link) (x : ScanLink) : (s.modLink f).scanLink x = s.scanLink x := rfl
@[simp] theorem modLink_link (f : Link → Link) : (s.modLink f).link = f s.link := rfl

/-! ## `modPack` -/

@[simp] theorem modPack_now (f : PackRec → PackRec) : (s.modPack f).now = s.now := rfl
@[simp] theorem modPack_epoch (f : PackRec → PackRec) : (s.modPack f).epoch = s.epoch := rfl
@[simp] theorem modPack_link (f : PackRec → PackRec) : (s.modPack f).link = s.link := rfl
@[simp] theorem modPack_guard (f : PackRec → PackRec) : (s.modPack f).guard = s.guard := rfl
@[simp] theorem modPack_channels (f : PackRec → PackRec) : (s.modPack f).channels = s.channels := rfl
@[simp] theorem modPack_lines (f : PackRec → PackRec) : (s.modPack f).lines = s.lines := rfl
@[simp] theorem modPack_positions (f : PackRec → PackRec) : (s.modPack f).positions = s.positions := rfl
@[simp] theorem modPack_slots (f : PackRec → PackRec) : (s.modPack f).slots = s.slots := rfl
@[simp] theorem modPack_copies (f : PackRec → PackRec) : (s.modPack f).copies = s.copies := rfl
@[simp] theorem modPack_heads (f : PackRec → PackRec) : (s.modPack f).heads = s.heads := rfl
@[simp] theorem modPack_drivenDuty (f : PackRec → PackRec) : (s.modPack f).drivenDuty = s.drivenDuty := rfl
@[simp] theorem modPack_knots (f : PackRec → PackRec) : (s.modPack f).knots = s.knots := rfl
@[simp] theorem modPack_linkK1 (f : PackRec → PackRec) : (s.modPack f).linkK1 = s.linkK1 := rfl
@[simp] theorem modPack_linkK2 (f : PackRec → PackRec) : (s.modPack f).linkK2 = s.linkK2 := rfl
@[simp] theorem modPack_spanRecs (f : PackRec → PackRec) : (s.modPack f).spanRecs = s.spanRecs := rfl
@[simp] theorem modPack_coils (f : PackRec → PackRec) : (s.modPack f).coils = s.coils := rfl
@[simp] theorem modPack_lanes (f : PackRec → PackRec) : (s.modPack f).lanes = s.lanes := rfl
@[simp] theorem modPack_completed (f : PackRec → PackRec) : (s.modPack f).completed = s.completed := rfl
@[simp] theorem modPack_choices (f : PackRec → PackRec) : (s.modPack f).choices = s.choices := rfl
@[simp] theorem modPack_pending (f : PackRec → PackRec) : (s.modPack f).pending = s.pending := rfl
@[simp] theorem modPack_line (f : PackRec → PackRec) (x : LineId) : (s.modPack f).line x = s.line x := rfl
@[simp] theorem modPack_pos (f : PackRec → PackRec) (x : LineId) : (s.modPack f).pos x = s.pos x := rfl
@[simp] theorem modPack_knot (f : PackRec → PackRec) (x : LineId) : (s.modPack f).knot x = s.knot x := rfl
@[simp] theorem modPack_spanRec (f : PackRec → PackRec) (x : LineId) : (s.modPack f).spanRec x = s.spanRec x := rfl
@[simp] theorem modPack_coilRec (f : PackRec → PackRec) (x : LineId) : (s.modPack f).coilRec x = s.coilRec x := rfl
@[simp] theorem modPack_lane (f : PackRec → PackRec) (x : LineId) : (s.modPack f).lane x = s.lane x := rfl
@[simp] theorem modPack_channel (f : PackRec → PackRec) (x : ChannelId) : (s.modPack f).channel x = s.channel x := rfl
@[simp] theorem modPack_head (f : PackRec → PackRec) (x : HeadId) : (s.modPack f).head x = s.head x := rfl
@[simp] theorem modPack_copy (f : PackRec → PackRec) (x : HeadId) : (s.modPack f).copy x = s.copy x := rfl
@[simp] theorem modPack_recipe (f : PackRec → PackRec) (x : Slot) : (s.modPack f).recipe x = s.recipe x := rfl
@[simp] theorem modPack_scanLink (f : PackRec → PackRec) (x : ScanLink) : (s.modPack f).scanLink x = s.scanLink x := rfl
@[simp] theorem modPack_pack (f : PackRec → PackRec) : (s.modPack f).pack = f s.pack := rfl

/-! ## `modScanLink` -/

@[simp] theorem modScanLink_now (k : ScanLink) (f : LinkRec → LinkRec) : (s.modScanLink k f).now = s.now := by cases k <;> rfl
@[simp] theorem modScanLink_epoch (k : ScanLink) (f : LinkRec → LinkRec) : (s.modScanLink k f).epoch = s.epoch := by cases k <;> rfl
@[simp] theorem modScanLink_link (k : ScanLink) (f : LinkRec → LinkRec) : (s.modScanLink k f).link = s.link := by cases k <;> rfl
@[simp] theorem modScanLink_guard (k : ScanLink) (f : LinkRec → LinkRec) : (s.modScanLink k f).guard = s.guard := by cases k <;> rfl
@[simp] theorem modScanLink_channels (k : ScanLink) (f : LinkRec → LinkRec) : (s.modScanLink k f).channels = s.channels := by cases k <;> rfl
@[simp] theorem modScanLink_lines (k : ScanLink) (f : LinkRec → LinkRec) : (s.modScanLink k f).lines = s.lines := by cases k <;> rfl
@[simp] theorem modScanLink_positions (k : ScanLink) (f : LinkRec → LinkRec) : (s.modScanLink k f).positions = s.positions := by cases k <;> rfl
@[simp] theorem modScanLink_slots (k : ScanLink) (f : LinkRec → LinkRec) : (s.modScanLink k f).slots = s.slots := by cases k <;> rfl
@[simp] theorem modScanLink_copies (k : ScanLink) (f : LinkRec → LinkRec) : (s.modScanLink k f).copies = s.copies := by cases k <;> rfl
@[simp] theorem modScanLink_heads (k : ScanLink) (f : LinkRec → LinkRec) : (s.modScanLink k f).heads = s.heads := by cases k <;> rfl
@[simp] theorem modScanLink_drivenDuty (k : ScanLink) (f : LinkRec → LinkRec) : (s.modScanLink k f).drivenDuty = s.drivenDuty := by cases k <;> rfl
@[simp] theorem modScanLink_knots (k : ScanLink) (f : LinkRec → LinkRec) : (s.modScanLink k f).knots = s.knots := by cases k <;> rfl
@[simp] theorem modScanLink_spanRecs (k : ScanLink) (f : LinkRec → LinkRec) : (s.modScanLink k f).spanRecs = s.spanRecs := by cases k <;> rfl
@[simp] theorem modScanLink_coils (k : ScanLink) (f : LinkRec → LinkRec) : (s.modScanLink k f).coils = s.coils := by cases k <;> rfl
@[simp] theorem modScanLink_lanes (k : ScanLink) (f : LinkRec → LinkRec) : (s.modScanLink k f).lanes = s.lanes := by cases k <;> rfl
@[simp] theorem modScanLink_pack (k : ScanLink) (f : LinkRec → LinkRec) : (s.modScanLink k f).pack = s.pack := by cases k <;> rfl
@[simp] theorem modScanLink_completed (k : ScanLink) (f : LinkRec → LinkRec) : (s.modScanLink k f).completed = s.completed := by cases k <;> rfl
@[simp] theorem modScanLink_choices (k : ScanLink) (f : LinkRec → LinkRec) : (s.modScanLink k f).choices = s.choices := by cases k <;> rfl
@[simp] theorem modScanLink_pending (k : ScanLink) (f : LinkRec → LinkRec) : (s.modScanLink k f).pending = s.pending := by cases k <;> rfl
@[simp] theorem modScanLink_line (k : ScanLink) (f : LinkRec → LinkRec) (x : LineId) : (s.modScanLink k f).line x = s.line x := by cases k <;> rfl
@[simp] theorem modScanLink_pos (k : ScanLink) (f : LinkRec → LinkRec) (x : LineId) : (s.modScanLink k f).pos x = s.pos x := by cases k <;> rfl
@[simp] theorem modScanLink_knot (k : ScanLink) (f : LinkRec → LinkRec) (x : LineId) : (s.modScanLink k f).knot x = s.knot x := by cases k <;> rfl
@[simp] theorem modScanLink_spanRec (k : ScanLink) (f : LinkRec → LinkRec) (x : LineId) : (s.modScanLink k f).spanRec x = s.spanRec x := by cases k <;> rfl
@[simp] theorem modScanLink_coilRec (k : ScanLink) (f : LinkRec → LinkRec) (x : LineId) : (s.modScanLink k f).coilRec x = s.coilRec x := by cases k <;> rfl
@[simp] theorem modScanLink_lane (k : ScanLink) (f : LinkRec → LinkRec) (x : LineId) : (s.modScanLink k f).lane x = s.lane x := by cases k <;> rfl
@[simp] theorem modScanLink_channel (k : ScanLink) (f : LinkRec → LinkRec) (x : ChannelId) : (s.modScanLink k f).channel x = s.channel x := by cases k <;> rfl
@[simp] theorem modScanLink_head (k : ScanLink) (f : LinkRec → LinkRec) (x : HeadId) : (s.modScanLink k f).head x = s.head x := by cases k <;> rfl
@[simp] theorem modScanLink_copy (k : ScanLink) (f : LinkRec → LinkRec) (x : HeadId) : (s.modScanLink k f).copy x = s.copy x := by cases k <;> rfl
@[simp] theorem modScanLink_recipe (k : ScanLink) (f : LinkRec → LinkRec) (x : Slot) : (s.modScanLink k f).recipe x = s.recipe x := by cases k <;> rfl
@[simp] theorem modScanLink_scanLink_self (k : ScanLink) (f : LinkRec → LinkRec) :
    (s.modScanLink k f).scanLink k = f (s.scanLink k) := by cases k <;> rfl
@[simp] theorem modScanLink_scanLink_of_ne (k : ScanLink) (f : LinkRec → LinkRec) {x : ScanLink} (h : x ≠ k) :
    (s.modScanLink k f).scanLink x = s.scanLink x := by cases k <;> cases x <;> first | rfl | exact absurd rfl h

end Machine

end Sys2Proof
end

