-- ==== Sys2Proof/Laws/Link.lean ====
section
/-! SUPPORT. What the shared operations of the Message Link and the Line Controller can do: notices, causes, time, replies. -/

namespace Sys2Proof.Machine

open Sys2Proof.Safety

/-! ## Notices (R170, R171) -/

theorem length_insertNotice (n : Notice) (q : List Notice) : (insertNotice n q).length = q.length + 1 := by
  induction q with
  | nil => rfl
  | cons m ms ih => simp only [insertNotice]; split <;> simp [ih]

theorem insertNotice_eq (n : Notice) (q : List Notice) :
    insertNotice n q = q.takeWhile (fun m => n.level ≤ m.level) ++ n :: q.dropWhile (fun m => n.level ≤ m.level) := by
  induction q with
  | nil => rfl
  | cons m ms ih =>
    simp only [insertNotice]
    split
    · rename_i h; simp [List.takeWhile, List.dropWhile, Nat.not_le.mpr h]
    · rename_i h; simp [List.takeWhile, List.dropWhile, Nat.not_lt.mp h, ih]

theorem noticesInOrder_cons {m : Notice} {q : List Notice} :
    noticesInOrder (m :: q) ↔ (∀ n, q.head? = some n → n.level ≤ m.level) ∧ noticesInOrder q := by
  cases q <;> simp [noticesInOrder]

theorem noticesInOrder_insertNotice (n : Notice) (q : List Notice) (h : noticesInOrder q) :
    noticesInOrder (insertNotice n q) := by
  induction q with
  | nil => trivial
  | cons m ms ih =>
    simp only [insertNotice]
    split
    · rename_i hl; exact noticesInOrder_cons.mpr ⟨fun x hx => by simp at hx; subst hx; omega, h⟩
    · rename_i hl
      have h' := noticesInOrder_cons.mp h
      refine noticesInOrder_cons.mpr ⟨fun x hx => ?_, ih h'.2⟩
      cases ms with
      | nil => simp [insertNotice] at hx; subst hx; omega
      | cons k ks =>
        simp only [insertNotice] at hx
        split at hx
        · simp at hx; subst hx; omega
        · exact h'.1 x (by simpa using hx)

theorem noticesInOrder_dropLast (q : List Notice) (h : noticesInOrder q) : noticesInOrder q.dropLast := by
  induction q with
  | nil => trivial
  | cons m ms ih =>
    cases ms with
    | nil => trivial
    | cons k ks =>
      have h' := noticesInOrder_cons.mp h
      cases ks with
      | nil => trivial
      | cons j js => exact noticesInOrder_cons.mpr ⟨fun x hx => h'.1 x (by simpa using hx), ih h'.2⟩

/-- An offer keeps the order and the bound of the queue (R171). -/
theorem offerToQueue_keeps (n : Notice) (q : List Notice) (h : noticesInOrder q) (hl : q.length ≤ 32) :
    noticesInOrder (offerToQueue n q).1 ∧ (offerToQueue n q).1.length ≤ 32 := by
  simp only [offerToQueue]
  split
  · exact ⟨noticesInOrder_insertNotice n q h, by rw [length_insertNotice]; omega⟩
  · split
    · split
      · refine ⟨noticesInOrder_insertNotice n _ (noticesInOrder_dropLast q h), ?_⟩
        rw [length_insertNotice, List.length_dropLast]; omega
      · exact ⟨h, hl⟩
    · rename_i hn; simp at hn; subst hn; simp_all

/-- A notice offered changes the notice queue and the lost tally alone. -/
theorem notify_link (s : State) (l : Option LineId) (b : NoticeBody) :
    SameButNotices s.link (s.notify l b).link ∧ (NoticeLaw s → NoticeLaw (s.notify l b)) := by
  simp only [State.notify]
  split
  · exact ⟨rfl, id⟩
  · refine ⟨rfl, fun h => ?_⟩
    have := offerToQueue_keeps ⟨s.levelOf b.cls, l, s.stamp, b⟩ s.link.notices h.2 h.1
    exact ⟨this.2, this.1⟩

/-- No other block is touched by a notice. -/
@[simp] theorem notify_same (s : State) (l : Option LineId) (b : NoticeBody) :
    (s.notify l b).now = s.now ∧ (s.notify l b).epoch = s.epoch ∧ (s.notify l b).guard = s.guard ∧
    (s.notify l b).channels = s.channels ∧ (s.notify l b).lines = s.lines ∧ (s.notify l b).positions = s.positions ∧
    (s.notify l b).slots = s.slots ∧ (s.notify l b).copies = s.copies ∧ (s.notify l b).heads = s.heads ∧
    (s.notify l b).drivenDuty = s.drivenDuty ∧ (s.notify l b).knots = s.knots ∧ (s.notify l b).linkK1 = s.linkK1 ∧
    (s.notify l b).linkK2 = s.linkK2 ∧ (s.notify l b).spanRecs = s.spanRecs ∧ (s.notify l b).coils = s.coils ∧
    (s.notify l b).lanes = s.lanes ∧ (s.notify l b).pack = s.pack ∧ (s.notify l b).completed = s.completed ∧
    (s.notify l b).choices = s.choices ∧ (s.notify l b).pending = s.pending ∧
    (∀ i, (s.notify l b).line i = s.line i) ∧ (∀ i, (s.notify l b).pos i = s.pos i) ∧
    (∀ i, (s.notify l b).knot i = s.knot i) ∧ (∀ i, (s.notify l b).spanRec i = s.spanRec i) ∧
    (∀ i, (s.notify l b).coilRec i = s.coilRec i) ∧ (∀ i, (s.notify l b).lane i = s.lane i) ∧
    (∀ i, (s.notify l b).channel i = s.channel i) ∧ (∀ i, (s.notify l b).head i = s.head i) ∧
    (∀ i, (s.notify l b).copy i = s.copy i) ∧ (∀ i, (s.notify l b).recipe i = s.recipe i) ∧
    (∀ i, (s.notify l b).scanLink i = s.scanLink i) := by
  simp only [State.notify]; split <;> simp

/-! ## The transmitter and the requests (R163 to R166) -/

/-- The choice of a frame touches the ML alone. -/
@[simp] theorem chooseFrame_same (s : State)  :
    (s.chooseFrame).now = s.now ∧ (s.chooseFrame).epoch = s.epoch ∧ (s.chooseFrame).guard = s.guard ∧
    (s.chooseFrame).channels = s.channels ∧ (s.chooseFrame).lines = s.lines ∧
    (s.chooseFrame).positions = s.positions ∧ (s.chooseFrame).slots = s.slots ∧ (s.chooseFrame).copies = s.copies ∧
    (s.chooseFrame).heads = s.heads ∧ (s.chooseFrame).drivenDuty = s.drivenDuty ∧ (s.chooseFrame).knots = s.knots ∧
    (s.chooseFrame).linkK1 = s.linkK1 ∧ (s.chooseFrame).linkK2 = s.linkK2 ∧ (s.chooseFrame).spanRecs = s.spanRecs ∧
    (s.chooseFrame).coils = s.coils ∧ (s.chooseFrame).lanes = s.lanes ∧ (s.chooseFrame).pack = s.pack ∧
    (s.chooseFrame).completed = s.completed ∧ (s.chooseFrame).choices = s.choices ∧
    (s.chooseFrame).pending = s.pending ∧ (∀ i, (s.chooseFrame).line i = s.line i) ∧
    (∀ i, (s.chooseFrame).pos i = s.pos i) ∧ (∀ i, (s.chooseFrame).knot i = s.knot i) ∧
    (∀ i, (s.chooseFrame).spanRec i = s.spanRec i) ∧ (∀ i, (s.chooseFrame).coilRec i = s.coilRec i) ∧
    (∀ i, (s.chooseFrame).lane i = s.lane i) ∧ (∀ i, (s.chooseFrame).channel i = s.channel i) ∧
    (∀ i, (s.chooseFrame).head i = s.head i) ∧ (∀ i, (s.chooseFrame).copy i = s.copy i) ∧
    (∀ i, (s.chooseFrame).recipe i = s.recipe i) ∧ (∀ i, (s.chooseFrame).scanLink i = s.scanLink i) := by
  simp only [State.chooseFrame]; split; · simp
  split; · simp
  split <;> simp

/-- Queueing a reply touches the ML alone. -/
@[simp] theorem queueReply_same (s : State) (f : Frame) :
    (s.queueReply f).now = s.now ∧ (s.queueReply f).epoch = s.epoch ∧ (s.queueReply f).guard = s.guard ∧
    (s.queueReply f).channels = s.channels ∧ (s.queueReply f).lines = s.lines ∧
    (s.queueReply f).positions = s.positions ∧ (s.queueReply f).slots = s.slots ∧
    (s.queueReply f).copies = s.copies ∧ (s.queueReply f).heads = s.heads ∧
    (s.queueReply f).drivenDuty = s.drivenDuty ∧ (s.queueReply f).knots = s.knots ∧
    (s.queueReply f).linkK1 = s.linkK1 ∧ (s.queueReply f).linkK2 = s.linkK2 ∧
    (s.queueReply f).spanRecs = s.spanRecs ∧ (s.queueReply f).coils = s.coils ∧ (s.queueReply f).lanes = s.lanes ∧
    (s.queueReply f).pack = s.pack ∧ (s.queueReply f).completed = s.completed ∧
    (s.queueReply f).choices = s.choices ∧ (s.queueReply f).pending = s.pending ∧
    (∀ i, (s.queueReply f).line i = s.line i) ∧ (∀ i, (s.queueReply f).pos i = s.pos i) ∧
    (∀ i, (s.queueReply f).knot i = s.knot i) ∧ (∀ i, (s.queueReply f).spanRec i = s.spanRec i) ∧
    (∀ i, (s.queueReply f).coilRec i = s.coilRec i) ∧ (∀ i, (s.queueReply f).lane i = s.lane i) ∧
    (∀ i, (s.queueReply f).channel i = s.channel i) ∧ (∀ i, (s.queueReply f).head i = s.head i) ∧
    (∀ i, (s.queueReply f).copy i = s.copy i) ∧ (∀ i, (s.queueReply f).recipe i = s.recipe i) ∧
    (∀ i, (s.queueReply f).scanLink i = s.scanLink i) := by
  simp [State.queueReply]

/-- A request that enters the buffer touches the ML alone. -/
@[simp] theorem entered_same (s : State) (kind tag : Byte) :
    (s.entered kind tag).now = s.now ∧ (s.entered kind tag).epoch = s.epoch ∧ (s.entered kind tag).guard = s.guard ∧
    (s.entered kind tag).channels = s.channels ∧ (s.entered kind tag).lines = s.lines ∧
    (s.entered kind tag).positions = s.positions ∧ (s.entered kind tag).slots = s.slots ∧
    (s.entered kind tag).copies = s.copies ∧ (s.entered kind tag).heads = s.heads ∧
    (s.entered kind tag).drivenDuty = s.drivenDuty ∧ (s.entered kind tag).knots = s.knots ∧
    (s.entered kind tag).linkK1 = s.linkK1 ∧ (s.entered kind tag).linkK2 = s.linkK2 ∧
    (s.entered kind tag).spanRecs = s.spanRecs ∧ (s.entered kind tag).coils = s.coils ∧
    (s.entered kind tag).lanes = s.lanes ∧ (s.entered kind tag).pack = s.pack ∧
    (s.entered kind tag).completed = s.completed ∧ (s.entered kind tag).choices = s.choices ∧
    (s.entered kind tag).pending = s.pending ∧ (∀ i, (s.entered kind tag).line i = s.line i) ∧
    (∀ i, (s.entered kind tag).pos i = s.pos i) ∧ (∀ i, (s.entered kind tag).knot i = s.knot i) ∧
    (∀ i, (s.entered kind tag).spanRec i = s.spanRec i) ∧ (∀ i, (s.entered kind tag).coilRec i = s.coilRec i) ∧
    (∀ i, (s.entered kind tag).lane i = s.lane i) ∧ (∀ i, (s.entered kind tag).channel i = s.channel i) ∧
    (∀ i, (s.entered kind tag).head i = s.head i) ∧ (∀ i, (s.entered kind tag).copy i = s.copy i) ∧
    (∀ i, (s.entered kind tag).recipe i = s.recipe i) ∧ (∀ i, (s.entered kind tag).scanLink i = s.scanLink i) := by
  simp [State.entered]

/-- A refusal touches the ML alone. -/
@[simp] theorem refused_same (s : State) (tag : Byte) (d : Denial) :
    (s.refused tag d).now = s.now ∧ (s.refused tag d).epoch = s.epoch ∧ (s.refused tag d).guard = s.guard ∧
    (s.refused tag d).channels = s.channels ∧ (s.refused tag d).lines = s.lines ∧
    (s.refused tag d).positions = s.positions ∧ (s.refused tag d).slots = s.slots ∧
    (s.refused tag d).copies = s.copies ∧ (s.refused tag d).heads = s.heads ∧
    (s.refused tag d).drivenDuty = s.drivenDuty ∧ (s.refused tag d).knots = s.knots ∧
    (s.refused tag d).linkK1 = s.linkK1 ∧ (s.refused tag d).linkK2 = s.linkK2 ∧
    (s.refused tag d).spanRecs = s.spanRecs ∧ (s.refused tag d).coils = s.coils ∧ (s.refused tag d).lanes = s.lanes ∧
    (s.refused tag d).pack = s.pack ∧ (s.refused tag d).completed = s.completed ∧
    (s.refused tag d).choices = s.choices ∧ (s.refused tag d).pending = s.pending ∧
    (∀ i, (s.refused tag d).line i = s.line i) ∧ (∀ i, (s.refused tag d).pos i = s.pos i) ∧
    (∀ i, (s.refused tag d).knot i = s.knot i) ∧ (∀ i, (s.refused tag d).spanRec i = s.spanRec i) ∧
    (∀ i, (s.refused tag d).coilRec i = s.coilRec i) ∧ (∀ i, (s.refused tag d).lane i = s.lane i) ∧
    (∀ i, (s.refused tag d).channel i = s.channel i) ∧ (∀ i, (s.refused tag d).head i = s.head i) ∧
    (∀ i, (s.refused tag d).copy i = s.copy i) ∧ (∀ i, (s.refused tag d).recipe i = s.recipe i) ∧
    (∀ i, (s.refused tag d).scanLink i = s.scanLink i) := by
  simp [State.refused]

/-- A request that the ML takes and its owning block accepts (R164). -/
theorem request_accepted {s t : State} {kind tag : Byte} {handle : State → Result} {payload : List Byte}
    (h : s.link.takesRequest = true) (ha : handle (s.entered kind tag) = .ok (t, payload)) :
    request kind tag handle s = .next (t.acceptedAs kind tag payload) := by
  simp only [request, done, State.serve, h, State.answer, ha, State.acceptedAs, if_true]

/-- A request that the ML takes and its owning block refuses (R164, R165). -/
theorem request_refused {s : State} {kind tag : Byte} {handle : State → Result} {d : Denial}
    (h : s.link.takesRequest = true) (ha : handle (s.entered kind tag) = .error d) :
    request kind tag handle s = .next ((s.entered kind tag).refused tag d).chooseFrame := by
  simp only [request, done, State.serve, h, State.answer, ha, if_true]

@[simp] theorem ofCode_code (l : LineId) : LineId.ofCode (LineId.code l) = some l := by cases l <;> rfl

@[simp] theorem withLine_code (l : LineId) (k : LineId → Result) : withLine (LineId.code l) k = k l := by
  simp [withLine]

@[simp] theorem withHead_val (h : HeadId) (k : HeadId → Result) : withHead h.val k = k h := by simp [withHead]

@[simp] theorem withChannel_val (c : ChannelId) (k : ChannelId → Result) : withChannel c.val k = k c := by
  simp [withChannel]

@[simp] theorem withSlot_val (n : Slot) (k : Slot → Result) : withSlot (n.val + 1) k = k n := by
  have : 1 ≤ n.val + 1 ∧ n.val + 1 ≤ 24 := ⟨by omega, by omega⟩
  simp [withSlot, this]

/-! ## Time -/

/-- The time base moves on to an instant and never back. -/
theorem advanceTo_now (s : State) (t : Nat) : (s.advanceTo t).now = if s.now < t then t else s.now := by
  by_cases h : t ≤ s.now
  · simp [State.advanceTo, h, Nat.not_lt.mpr h]
  · simp [State.advanceTo, h, Nat.not_le.mp h]

/-- Time touches the time base and the trim outputs alone. -/
@[simp] theorem advanceTo_same (s : State) (t : Nat) :
    (s.advanceTo t).epoch = s.epoch ∧ (s.advanceTo t).link = s.link ∧ (s.advanceTo t).guard = s.guard ∧
    (s.advanceTo t).channels = s.channels ∧ (s.advanceTo t).lines = s.lines ∧
    (s.advanceTo t).positions = s.positions ∧ (s.advanceTo t).slots = s.slots ∧ (s.advanceTo t).copies = s.copies ∧
    (s.advanceTo t).heads = s.heads ∧ (s.advanceTo t).knots = s.knots ∧ (s.advanceTo t).linkK1 = s.linkK1 ∧
    (s.advanceTo t).linkK2 = s.linkK2 ∧ (s.advanceTo t).spanRecs = s.spanRecs ∧ (s.advanceTo t).coils = s.coils ∧
    (s.advanceTo t).lanes = s.lanes ∧ (s.advanceTo t).pack = s.pack ∧ (s.advanceTo t).completed = s.completed ∧
    (s.advanceTo t).choices = s.choices ∧ (s.advanceTo t).pending = s.pending ∧
    (∀ i, (s.advanceTo t).line i = s.line i) ∧ (∀ i, (s.advanceTo t).pos i = s.pos i) ∧
    (∀ i, (s.advanceTo t).knot i = s.knot i) ∧ (∀ i, (s.advanceTo t).spanRec i = s.spanRec i) ∧
    (∀ i, (s.advanceTo t).coilRec i = s.coilRec i) ∧ (∀ i, (s.advanceTo t).lane i = s.lane i) ∧
    (∀ i, (s.advanceTo t).channel i = s.channel i) ∧ (∀ i, (s.advanceTo t).head i = s.head i) ∧
    (∀ i, (s.advanceTo t).copy i = s.copy i) ∧ (∀ i, (s.advanceTo t).recipe i = s.recipe i) ∧
    (∀ i, (s.advanceTo t).scanLink i = s.scanLink i) := by
  simp only [State.advanceTo]; split <;> simp [State.line, State.pos, State.knot, State.spanRec, State.coilRec, State.lane,
    State.channel, State.head, State.copy, State.recipe, State.scanLink]

/-! ## Stop causes (R5, R6) -/

/-- What an offered cause does to the line it is offered to (R5). -/
@[simp] theorem offerCause_line_self (s : State) (l : LineId) (x : StopCause) :
    (s.offerCause l x).line l = afterOffer (s.line l) x := by
  simp only [State.offerCause, afterOffer]
  cases h : (s.line l).state
  case idle => by_cases hx : x = .guard <;> simp [hx, h]
  all_goals dsimp only
  case running => split <;> simp
  all_goals simp [h]

@[simp] theorem offerCause_line_of_ne (s : State) {l y : LineId} (h : y ≠ l) (x : StopCause) :
    (s.offerCause l x).line y = s.line y := by
  simp only [State.offerCause]
  split
  · split <;> simp [h]
  · simp [h]
  · split <;> simp [h]

/-- The ML is touched by its notices alone. -/
theorem offerCause_link (s : State) (l : LineId) (x : StopCause) :
    SameButNotices s.link (s.offerCause l x).link ∧ (NoticeLaw s → NoticeLaw (s.offerCause l x)) := by
  simp only [State.offerCause]
  split
  · split
    · exact ⟨rfl, id⟩
    · exact notify_link (s.modLine l _) _ _
  · exact ⟨rfl, id⟩
  · split <;> exact ⟨rfl, id⟩

/-- An offered cause touches the lines and the ML alone. -/
@[simp] theorem offerCause_same (s : State) (l : LineId) (x : StopCause) :
    (s.offerCause l x).now = s.now ∧ (s.offerCause l x).epoch = s.epoch ∧ (s.offerCause l x).guard = s.guard ∧
    (s.offerCause l x).channels = s.channels ∧ (s.offerCause l x).positions = s.positions ∧
    (s.offerCause l x).slots = s.slots ∧ (s.offerCause l x).copies = s.copies ∧ (s.offerCause l x).heads = s.heads ∧
    (s.offerCause l x).drivenDuty = s.drivenDuty ∧ (s.offerCause l x).knots = s.knots ∧
    (s.offerCause l x).linkK1 = s.linkK1 ∧ (s.offerCause l x).linkK2 = s.linkK2 ∧
    (s.offerCause l x).spanRecs = s.spanRecs ∧ (s.offerCause l x).coils = s.coils ∧
    (s.offerCause l x).lanes = s.lanes ∧ (s.offerCause l x).pack = s.pack ∧
    (s.offerCause l x).completed = s.completed ∧ (s.offerCause l x).choices = s.choices ∧
    (s.offerCause l x).pending = s.pending ∧ (∀ i, (s.offerCause l x).pos i = s.pos i) ∧
    (∀ i, (s.offerCause l x).knot i = s.knot i) ∧ (∀ i, (s.offerCause l x).spanRec i = s.spanRec i) ∧
    (∀ i, (s.offerCause l x).coilRec i = s.coilRec i) ∧ (∀ i, (s.offerCause l x).lane i = s.lane i) ∧
    (∀ i, (s.offerCause l x).channel i = s.channel i) ∧ (∀ i, (s.offerCause l x).head i = s.head i) ∧
    (∀ i, (s.offerCause l x).copy i = s.copy i) ∧ (∀ i, (s.offerCause l x).recipe i = s.recipe i) ∧
    (∀ i, (s.offerCause l x).scanLink i = s.scanLink i) := by
  simp only [State.offerCause]
  split
  · split <;> simp
  · simp
  · split <;> simp

/-- CUT_HELD removed touches the lines alone. -/
@[simp] theorem removeCutHeld_same (s : State) (l : LineId) :
    (s.removeCutHeld l).now = s.now ∧ (s.removeCutHeld l).epoch = s.epoch ∧ (s.removeCutHeld l).link = s.link ∧
    (s.removeCutHeld l).guard = s.guard ∧ (s.removeCutHeld l).channels = s.channels ∧
    (s.removeCutHeld l).positions = s.positions ∧ (s.removeCutHeld l).slots = s.slots ∧
    (s.removeCutHeld l).copies = s.copies ∧ (s.removeCutHeld l).heads = s.heads ∧
    (s.removeCutHeld l).drivenDuty = s.drivenDuty ∧ (s.removeCutHeld l).knots = s.knots ∧
    (s.removeCutHeld l).linkK1 = s.linkK1 ∧ (s.removeCutHeld l).linkK2 = s.linkK2 ∧
    (s.removeCutHeld l).spanRecs = s.spanRecs ∧ (s.removeCutHeld l).coils = s.coils ∧
    (s.removeCutHeld l).lanes = s.lanes ∧ (s.removeCutHeld l).pack = s.pack ∧
    (s.removeCutHeld l).completed = s.completed ∧ (s.removeCutHeld l).choices = s.choices ∧
    (s.removeCutHeld l).pending = s.pending ∧ (∀ i, (s.removeCutHeld l).pos i = s.pos i) ∧
    (∀ i, (s.removeCutHeld l).knot i = s.knot i) ∧ (∀ i, (s.removeCutHeld l).spanRec i = s.spanRec i) ∧
    (∀ i, (s.removeCutHeld l).coilRec i = s.coilRec i) ∧ (∀ i, (s.removeCutHeld l).lane i = s.lane i) ∧
    (∀ i, (s.removeCutHeld l).channel i = s.channel i) ∧ (∀ i, (s.removeCutHeld l).head i = s.head i) ∧
    (∀ i, (s.removeCutHeld l).copy i = s.copy i) ∧ (∀ i, (s.removeCutHeld l).recipe i = s.recipe i) ∧
    (∀ i, (s.removeCutHeld l).scanLink i = s.scanLink i) := by
  simp only [State.removeCutHeld]; split <;> simp

/-- What the removal of CUT_HELD leaves of a line record (R6, R12). -/
theorem removeCutHeld_line_self (s : State) (l : LineId) : (s.removeCutHeld l).line l = { s.line l with
    causes := (s.line l).causes.drop .cutHeld
    state := if (s.line l).causes.cutHeld = true ∧ (s.line l).state = .stopRequested ∧
      (s.line l).causes.drop .cutHeld = .empty then .running else (s.line l).state } := by
  simp only [State.removeCutHeld]
  split
  · rename_i h; simp [h]
  · rename_i h
    have hd : (s.line l).causes.drop .cutHeld = (s.line l).causes := by
      revert h; cases (s.line l).causes; simp [CauseSet.drop, CauseSet.put]
    simp [h, hd]

@[simp] theorem removeCutHeld_line_of_ne (s : State) {l y : LineId} (h : y ≠ l) :
    (s.removeCutHeld l).line y = s.line y := by
  simp only [State.removeCutHeld]; split <;> simp [h]

end Sys2Proof.Machine
end

