-- ==== Sys2Proof/Laws/Spans.lean ====
section
/-! SUPPORT. What the operations of the Span Recorder and on the working copies can do: submissions, splices, re-marking,
write-back and loads. -/

namespace Sys2Proof.Machine

open Sys2Proof.Safety

/-- A stored span touches the span recorder and the ML alone. -/
@[simp] theorem storeSpan_same (s : State) (l : LineId) (k : SpanKind) (c : SpanSource) (start : Nat)
    (stop : Option Nat) (worst : Nat) :
    (s.storeSpan l k c start stop worst).now = s.now ∧ (s.storeSpan l k c start stop worst).epoch = s.epoch ∧
    (s.storeSpan l k c start stop worst).guard = s.guard ∧
    (s.storeSpan l k c start stop worst).channels = s.channels ∧
    (s.storeSpan l k c start stop worst).lines = s.lines ∧
    (s.storeSpan l k c start stop worst).positions = s.positions ∧
    (s.storeSpan l k c start stop worst).slots = s.slots ∧ (s.storeSpan l k c start stop worst).copies = s.copies ∧
    (s.storeSpan l k c start stop worst).heads = s.heads ∧
    (s.storeSpan l k c start stop worst).drivenDuty = s.drivenDuty ∧
    (s.storeSpan l k c start stop worst).knots = s.knots ∧ (s.storeSpan l k c start stop worst).linkK1 = s.linkK1 ∧
    (s.storeSpan l k c start stop worst).linkK2 = s.linkK2 ∧ (s.storeSpan l k c start stop worst).coils = s.coils ∧
    (s.storeSpan l k c start stop worst).lanes = s.lanes ∧ (s.storeSpan l k c start stop worst).pack = s.pack ∧
    (s.storeSpan l k c start stop worst).completed = s.completed ∧
    (s.storeSpan l k c start stop worst).choices = s.choices ∧
    (s.storeSpan l k c start stop worst).pending = s.pending ∧
    (∀ i, (s.storeSpan l k c start stop worst).line i = s.line i) ∧
    (∀ i, (s.storeSpan l k c start stop worst).pos i = s.pos i) ∧
    (∀ i, (s.storeSpan l k c start stop worst).knot i = s.knot i) ∧
    (∀ i, (s.storeSpan l k c start stop worst).coilRec i = s.coilRec i) ∧
    (∀ i, (s.storeSpan l k c start stop worst).lane i = s.lane i) ∧
    (∀ i, (s.storeSpan l k c start stop worst).channel i = s.channel i) ∧
    (∀ i, (s.storeSpan l k c start stop worst).head i = s.head i) ∧
    (∀ i, (s.storeSpan l k c start stop worst).copy i = s.copy i) ∧
    (∀ i, (s.storeSpan l k c start stop worst).recipe i = s.recipe i) ∧
    (∀ i, (s.storeSpan l k c start stop worst).scanLink i = s.scanLink i) := by
  simp only [State.storeSpan]
  split
  · split <;> simp
  · simp

theorem storeSpan_link (s : State) (l : LineId) (k : SpanKind) (c : SpanSource) (start : Nat) (stop : Option Nat)
    (worst : Nat) : SameButNotices s.link (s.storeSpan l k c start stop worst).link ∧
      (NoticeLaw s → NoticeLaw (s.storeSpan l k c start stop worst)) := by
  simp only [State.storeSpan]
  split
  · split
    · exact notify_link (s.modSpanRec l _) _ _
    · exact ⟨rfl, id⟩
  · exact ⟨rfl, id⟩

@[simp] theorem storeSpan_spanRec_of_ne (s : State) {l y : LineId} (h : y ≠ l) (k : SpanKind) (c : SpanSource)
    (start : Nat) (stop : Option Nat) (worst : Nat) :
    (s.storeSpan l k c start stop worst).spanRec y = s.spanRec y := by
  simp only [State.storeSpan]
  split
  · split <;> simp [h]
  · simp [h]

/-- A submission touches the span recorder and the ML alone. -/
@[simp] theorem submit_same (s : State) (l : LineId) (k : SpanKind) (c : SpanSource) (x : Submission) :
    (s.submit l k c x).now = s.now ∧ (s.submit l k c x).epoch = s.epoch ∧ (s.submit l k c x).guard = s.guard ∧
    (s.submit l k c x).channels = s.channels ∧ (s.submit l k c x).lines = s.lines ∧
    (s.submit l k c x).positions = s.positions ∧ (s.submit l k c x).slots = s.slots ∧
    (s.submit l k c x).copies = s.copies ∧ (s.submit l k c x).heads = s.heads ∧
    (s.submit l k c x).drivenDuty = s.drivenDuty ∧ (s.submit l k c x).knots = s.knots ∧
    (s.submit l k c x).linkK1 = s.linkK1 ∧ (s.submit l k c x).linkK2 = s.linkK2 ∧
    (s.submit l k c x).coils = s.coils ∧ (s.submit l k c x).lanes = s.lanes ∧ (s.submit l k c x).pack = s.pack ∧
    (s.submit l k c x).completed = s.completed ∧ (s.submit l k c x).choices = s.choices ∧
    (s.submit l k c x).pending = s.pending ∧ (∀ i, (s.submit l k c x).line i = s.line i) ∧
    (∀ i, (s.submit l k c x).pos i = s.pos i) ∧ (∀ i, (s.submit l k c x).knot i = s.knot i) ∧
    (∀ i, (s.submit l k c x).coilRec i = s.coilRec i) ∧ (∀ i, (s.submit l k c x).lane i = s.lane i) ∧
    (∀ i, (s.submit l k c x).channel i = s.channel i) ∧ (∀ i, (s.submit l k c x).head i = s.head i) ∧
    (∀ i, (s.submit l k c x).copy i = s.copy i) ∧ (∀ i, (s.submit l k c x).recipe i = s.recipe i) ∧
    (∀ i, (s.submit l k c x).scanLink i = s.scanLink i) := by
  simp only [State.submit]
  split; · simp
  split
  · cases x <;> dsimp only
    case upgrade => split <;> simp
    all_goals simp
  split
  · cases x <;> simp
  · cases x <;> simp

theorem submit_link (s : State) (l : LineId) (k : SpanKind) (c : SpanSource) (x : Submission) :
    SameButNotices s.link (s.submit l k c x).link ∧ (NoticeLaw s → NoticeLaw (s.submit l k c x)) := by
  simp only [State.submit]
  split; · exact ⟨rfl, id⟩
  split
  · cases x <;> dsimp only
    case upgrade => split <;> exact ⟨rfl, id⟩
    all_goals exact ⟨rfl, id⟩
  split
  · cases x <;> exact ⟨rfl, id⟩
  · cases x
    case openOrExtend => exact storeSpan_link _ _ _ _ _ _ _
    case openSpan => exact storeSpan_link _ _ _ _ _ _ _
    all_goals exact ⟨rfl, id⟩

@[simp] theorem submit_spanRec_of_ne (s : State) {l y : LineId} (h : y ≠ l) (k : SpanKind) (c : SpanSource)
    (x : Submission) : (s.submit l k c x).spanRec y = s.spanRec y := by
  simp only [State.submit]
  split; · rfl
  split
  · cases x <;> dsimp only
    case upgrade => split <;> simp [h]
    all_goals simp [h]
  split
  · cases x <;> simp [h]
  · cases x <;> simp [h]

/-- A submission for a line without a run changes nothing (R116). -/
@[simp] theorem submit_idle (s : State) {l : LineId} (h : s.runOpen l = false) (k : SpanKind) (c : SpanSource)
    (x : Submission) : s.submit l k c x = s := by simp [State.submit, h]

/-- A splice touches the span recorder and the ML alone. -/
@[simp] theorem submitSplice_same (s : State) (l : LineId) (p : Nat) :
    (s.submitSplice l p).now = s.now ∧ (s.submitSplice l p).epoch = s.epoch ∧ (s.submitSplice l p).guard = s.guard ∧
    (s.submitSplice l p).channels = s.channels ∧ (s.submitSplice l p).lines = s.lines ∧
    (s.submitSplice l p).positions = s.positions ∧ (s.submitSplice l p).slots = s.slots ∧
    (s.submitSplice l p).copies = s.copies ∧ (s.submitSplice l p).heads = s.heads ∧
    (s.submitSplice l p).drivenDuty = s.drivenDuty ∧ (s.submitSplice l p).knots = s.knots ∧
    (s.submitSplice l p).linkK1 = s.linkK1 ∧ (s.submitSplice l p).linkK2 = s.linkK2 ∧
    (s.submitSplice l p).coils = s.coils ∧ (s.submitSplice l p).lanes = s.lanes ∧
    (s.submitSplice l p).pack = s.pack ∧ (s.submitSplice l p).completed = s.completed ∧
    (s.submitSplice l p).choices = s.choices ∧ (s.submitSplice l p).pending = s.pending ∧
    (∀ i, (s.submitSplice l p).line i = s.line i) ∧ (∀ i, (s.submitSplice l p).pos i = s.pos i) ∧
    (∀ i, (s.submitSplice l p).knot i = s.knot i) ∧ (∀ i, (s.submitSplice l p).coilRec i = s.coilRec i) ∧
    (∀ i, (s.submitSplice l p).lane i = s.lane i) ∧ (∀ i, (s.submitSplice l p).channel i = s.channel i) ∧
    (∀ i, (s.submitSplice l p).head i = s.head i) ∧ (∀ i, (s.submitSplice l p).copy i = s.copy i) ∧
    (∀ i, (s.submitSplice l p).recipe i = s.recipe i) ∧ (∀ i, (s.submitSplice l p).scanLink i = s.scanLink i) := by
  simp only [State.submitSplice]
  split; · simp
  split; · simp
  split; · simp
  split; · simp
  split <;> simp

theorem submitSplice_link (s : State) (l : LineId) (p : Nat) :
    SameButNotices s.link (s.submitSplice l p).link ∧ (NoticeLaw s → NoticeLaw (s.submitSplice l p)) := by
  simp only [State.submitSplice]
  split; · exact ⟨rfl, id⟩
  split; · exact ⟨rfl, id⟩
  split; · exact ⟨rfl, id⟩
  split; · exact ⟨rfl, id⟩
  split
  · exact notify_link (s.modSpanRec l _) _ _
  · exact ⟨rfl, id⟩

theorem insertEntry_eq (n : SpanEntry) (q : List SpanEntry) :
    let below := fun e : SpanEntry => decide (e.start < n.start ∨ (e.start = n.start ∧ e.arrival ≤ n.arrival))
    insertEntry n q = q.takeWhile below ++ n :: q.dropWhile below := by
  induction q with
  | nil => rfl
  | cons e es ih =>
    simp only [insertEntry]
    split
    · rename_i h; simp only [List.takeWhile, List.dropWhile, h, decide_true, List.cons_append]
      exact congrArg _ ih
    · rename_i h; simp only [List.takeWhile, List.dropWhile, h, decide_false, List.nil_append]

theorem insertSplice_eq (x : Nat) (q : List Nat) :
    insertSplice x q = q.takeWhile (· ≤ x) ++ x :: q.dropWhile (· ≤ x) := by
  induction q with
  | nil => rfl
  | cons y ys ih =>
    simp only [insertSplice]
    split
    · rename_i h; simp [List.takeWhile, List.dropWhile, Nat.not_le.mpr h]
    · rename_i h; simp [List.takeWhile, List.dropWhile, Nat.not_lt.mp h, ih]

/-! ## Working copies (R66 to R70) -/

/-- Re-marking touches the copies alone. -/
@[simp] theorem remark_same (s : State) (h : HeadId) :
    (s.remark h).now = s.now ∧ (s.remark h).epoch = s.epoch ∧ (s.remark h).link = s.link ∧
    (s.remark h).guard = s.guard ∧ (s.remark h).channels = s.channels ∧ (s.remark h).lines = s.lines ∧
    (s.remark h).positions = s.positions ∧ (s.remark h).slots = s.slots ∧ (s.remark h).heads = s.heads ∧
    (s.remark h).drivenDuty = s.drivenDuty ∧ (s.remark h).knots = s.knots ∧ (s.remark h).linkK1 = s.linkK1 ∧
    (s.remark h).linkK2 = s.linkK2 ∧ (s.remark h).spanRecs = s.spanRecs ∧ (s.remark h).coils = s.coils ∧
    (s.remark h).lanes = s.lanes ∧ (s.remark h).pack = s.pack ∧ (s.remark h).completed = s.completed ∧
    (s.remark h).choices = s.choices ∧ (s.remark h).pending = s.pending ∧ (∀ i, (s.remark h).line i = s.line i) ∧
    (∀ i, (s.remark h).pos i = s.pos i) ∧ (∀ i, (s.remark h).knot i = s.knot i) ∧
    (∀ i, (s.remark h).spanRec i = s.spanRec i) ∧ (∀ i, (s.remark h).coilRec i = s.coilRec i) ∧
    (∀ i, (s.remark h).lane i = s.lane i) ∧ (∀ i, (s.remark h).channel i = s.channel i) ∧
    (∀ i, (s.remark h).head i = s.head i) ∧ (∀ i, (s.remark h).recipe i = s.recipe i) ∧
    (∀ i, (s.remark h).scanLink i = s.scanLink i) := by
  simp only [State.remark]; split <;> simp

/-- Re-marking keeps every copy but for the mark of one (R67). -/
theorem remark_copy (s : State) (h x : HeadId) : (s.remark h).copy x =
    if x = h ∧ (s.copy h).state ≠ .invalid then
      match (s.copy h).slot with
      | some n => { s.copy h with state := if s.startTrim n h = some (s.copy h).learned then .clean else .dirty }
      | none => s.copy x
    else s.copy x := by
  simp only [State.remark, WorkingCopy.valid]
  by_cases hx : x = h
  · subst hx
    cases hs : (s.copy x).state <;> cases hn : (s.copy x).slot <;>
      simp [show (CopyState.clean != CopyState.invalid) = true from rfl,
        show (CopyState.dirty != CopyState.invalid) = true from rfl]
  · split <;> simp [hx]

/-- A write-back touches the slots alone. -/
@[simp] theorem writeBack_same (s : State) (h : HeadId) :
    (s.writeBack h).now = s.now ∧ (s.writeBack h).epoch = s.epoch ∧ (s.writeBack h).link = s.link ∧
    (s.writeBack h).guard = s.guard ∧ (s.writeBack h).channels = s.channels ∧ (s.writeBack h).lines = s.lines ∧
    (s.writeBack h).positions = s.positions ∧ (s.writeBack h).copies = s.copies ∧ (s.writeBack h).heads = s.heads ∧
    (s.writeBack h).drivenDuty = s.drivenDuty ∧ (s.writeBack h).knots = s.knots ∧ (s.writeBack h).linkK1 = s.linkK1 ∧
    (s.writeBack h).linkK2 = s.linkK2 ∧ (s.writeBack h).spanRecs = s.spanRecs ∧ (s.writeBack h).coils = s.coils ∧
    (s.writeBack h).lanes = s.lanes ∧ (s.writeBack h).pack = s.pack ∧ (s.writeBack h).completed = s.completed ∧
    (s.writeBack h).choices = s.choices ∧ (s.writeBack h).pending = s.pending ∧
    (∀ i, (s.writeBack h).line i = s.line i) ∧ (∀ i, (s.writeBack h).pos i = s.pos i) ∧
    (∀ i, (s.writeBack h).knot i = s.knot i) ∧ (∀ i, (s.writeBack h).spanRec i = s.spanRec i) ∧
    (∀ i, (s.writeBack h).coilRec i = s.coilRec i) ∧ (∀ i, (s.writeBack h).lane i = s.lane i) ∧
    (∀ i, (s.writeBack h).channel i = s.channel i) ∧ (∀ i, (s.writeBack h).head i = s.head i) ∧
    (∀ i, (s.writeBack h).copy i = s.copy i) ∧ (∀ i, (s.writeBack h).scanLink i = s.scanLink i) := by
  simp only [State.writeBack]
  split
  · split <;> simp
  · simp

/-- A load touches the copy and the trim of heads alone. -/
@[simp] theorem load_same (s : State) (n : Slot) (h : HeadId) :
    (s.load n h).now = s.now ∧ (s.load n h).epoch = s.epoch ∧ (s.load n h).link = s.link ∧
    (s.load n h).guard = s.guard ∧ (s.load n h).channels = s.channels ∧ (s.load n h).lines = s.lines ∧
    (s.load n h).positions = s.positions ∧ (s.load n h).slots = s.slots ∧ (s.load n h).drivenDuty = s.drivenDuty ∧
    (s.load n h).knots = s.knots ∧ (s.load n h).linkK1 = s.linkK1 ∧ (s.load n h).linkK2 = s.linkK2 ∧
    (s.load n h).spanRecs = s.spanRecs ∧ (s.load n h).coils = s.coils ∧ (s.load n h).lanes = s.lanes ∧
    (s.load n h).pack = s.pack ∧ (s.load n h).completed = s.completed ∧ (s.load n h).choices = s.choices ∧
    (s.load n h).pending = s.pending ∧ (∀ i, (s.load n h).line i = s.line i) ∧ (∀ i, (s.load n h).pos i = s.pos i) ∧
    (∀ i, (s.load n h).knot i = s.knot i) ∧ (∀ i, (s.load n h).spanRec i = s.spanRec i) ∧
    (∀ i, (s.load n h).coilRec i = s.coilRec i) ∧ (∀ i, (s.load n h).lane i = s.lane i) ∧
    (∀ i, (s.load n h).channel i = s.channel i) ∧ (∀ i, (s.load n h).recipe i = s.recipe i) ∧
    (∀ i, (s.load n h).scanLink i = s.scanLink i) := by
  simp [State.load]

/-- An invalidation touches the copies alone. -/
@[simp] theorem invalidate_same (s : State) (h : HeadId) :
    (s.invalidate h).now = s.now ∧ (s.invalidate h).epoch = s.epoch ∧ (s.invalidate h).link = s.link ∧
    (s.invalidate h).guard = s.guard ∧ (s.invalidate h).channels = s.channels ∧ (s.invalidate h).lines = s.lines ∧
    (s.invalidate h).positions = s.positions ∧ (s.invalidate h).slots = s.slots ∧ (s.invalidate h).heads = s.heads ∧
    (s.invalidate h).drivenDuty = s.drivenDuty ∧ (s.invalidate h).knots = s.knots ∧
    (s.invalidate h).linkK1 = s.linkK1 ∧ (s.invalidate h).linkK2 = s.linkK2 ∧
    (s.invalidate h).spanRecs = s.spanRecs ∧ (s.invalidate h).coils = s.coils ∧ (s.invalidate h).lanes = s.lanes ∧
    (s.invalidate h).pack = s.pack ∧ (s.invalidate h).completed = s.completed ∧
    (s.invalidate h).choices = s.choices ∧ (s.invalidate h).pending = s.pending ∧
    (∀ i, (s.invalidate h).line i = s.line i) ∧ (∀ i, (s.invalidate h).pos i = s.pos i) ∧
    (∀ i, (s.invalidate h).knot i = s.knot i) ∧ (∀ i, (s.invalidate h).spanRec i = s.spanRec i) ∧
    (∀ i, (s.invalidate h).coilRec i = s.coilRec i) ∧ (∀ i, (s.invalidate h).lane i = s.lane i) ∧
    (∀ i, (s.invalidate h).channel i = s.channel i) ∧ (∀ i, (s.invalidate h).head i = s.head i) ∧
    (∀ i, (s.invalidate h).recipe i = s.recipe i) ∧ (∀ i, (s.invalidate h).scanLink i = s.scanLink i) := by
  simp [State.invalidate]

end Sys2Proof.Machine
end

