-- ==== Sys2Proof/Laws/Calm.lean ====
section
/-! SUPPORT. What no action of a block moves: the time, the guard, the trim outputs' period, the waiting commands, the
configuration of the lines, and of the ML everything but its notices. One lemma for each shared operation, to be applied
after what came before it. -/

namespace Sys2Proof.Machine

open Sys2Proof.Safety

/-- `t` comes from `s` by actions of the blocks. -/
structure Calm (s t : State) : Prop where
  now : t.now = s.now
  epoch : t.epoch = s.epoch
  guard : t.guard = s.guard
  drivenDuty : t.drivenDuty = s.drivenDuty
  pending : t.pending = s.pending
  link : SameButNotices s.link t.link
  notices : NoticeLaw s → NoticeLaw t
  cfg : ∀ l, (t.line l).cfg = (s.line l).cfg
  kind : ∀ l, (t.line l).kind = (s.line l).kind

theorem Calm.refl (s : State) : Calm s s := ⟨rfl, rfl, rfl, rfl, rfl, rfl, id, fun _ => rfl, fun _ => rfl⟩

theorem Calm.trans {s t u : State} (a : Calm s t) (b : Calm t u) : Calm s u where
  now := b.now.trans a.now
  epoch := b.epoch.trans a.epoch
  guard := b.guard.trans a.guard
  drivenDuty := b.drivenDuty.trans a.drivenDuty
  pending := b.pending.trans a.pending
  link := by
    have ha := a.link; have hb := b.link
    unfold SameButNotices at *
    rw [hb, ha]
  notices := fun h => b.notices (a.notices h)
  cfg := fun l => (b.cfg l).trans (a.cfg l)
  kind := fun l => (b.kind l).trans (a.kind l)

variable {s t : State}

theorem Calm.surroundings (h : Calm s t) : SameSurroundings s t := ⟨h.now, h.epoch, h.guard, h.drivenDuty, h.pending⟩

/-- A list of actions made one after another. -/
theorem Calm.foldl {α : Type} {f : State → α → State} {xs : List α} (hf : ∀ s t a, Calm s t → Calm s (f t a))
    (h : Calm s t) : Calm s (xs.foldl f t) := by
  induction xs generalizing t with
  | nil => exact h
  | cons a as ih => exact ih (hf s t a h)

/-- The same with the counter of free orders moved. -/
theorem Calm.inOrder {α : Type} {f : State → α → State} {xs : List α} (hf : ∀ s t a, Calm s t → Calm s (f t a))
    (h : Calm s t) : Calm s (t.inOrder xs f) :=
  .foldl hf (h.trans ⟨rfl, rfl, rfl, rfl, rfl, rfl, id, fun _ => rfl, fun _ => rfl⟩)

/-- The same in a free order. -/
theorem Calm.inAnyOrder {α : Type} {f : State → α → State} {xs : List α} (hf : ∀ s t a, Calm s t → Calm s (f t a))
    (h : Calm s t) : Calm s (t.inAnyOrder xs f) := h.inOrder hf

/-! ## Updates of one record -/

theorem Calm.modPos (h : Calm s t) (l : LineId) (f : PositionRec → PositionRec) : Calm s (t.modPos l f) :=
  h.trans ⟨rfl, rfl, rfl, rfl, rfl, rfl, id, fun _ => rfl, fun _ => rfl⟩
theorem Calm.modKnot (h : Calm s t) (l : LineId) (f : KnotRec → KnotRec) : Calm s (t.modKnot l f) :=
  h.trans ⟨rfl, rfl, rfl, rfl, rfl, rfl, id, fun _ => rfl, fun _ => rfl⟩
theorem Calm.modSpanRec (h : Calm s t) (l : LineId) (f : SpanRec → SpanRec) : Calm s (t.modSpanRec l f) :=
  h.trans ⟨rfl, rfl, rfl, rfl, rfl, rfl, id, fun _ => rfl, fun _ => rfl⟩
theorem Calm.modCoil (h : Calm s t) (l : LineId) (f : CoilRec → CoilRec) : Calm s (t.modCoil l f) :=
  h.trans ⟨rfl, rfl, rfl, rfl, rfl, rfl, id, fun _ => rfl, fun _ => rfl⟩
theorem Calm.modLane (h : Calm s t) (l : LineId) (f : LaneRec → LaneRec) : Calm s (t.modLane l f) :=
  h.trans ⟨rfl, rfl, rfl, rfl, rfl, rfl, id, fun _ => rfl, fun _ => rfl⟩
theorem Calm.modChannel (h : Calm s t) (c : ChannelId) (f : Channel → Channel) : Calm s (t.modChannel c f) :=
  h.trans ⟨rfl, rfl, rfl, rfl, rfl, rfl, id, fun _ => rfl, fun _ => rfl⟩
theorem Calm.modHead (h : Calm s t) (x : HeadId) (f : HeadRec → HeadRec) : Calm s (t.modHead x f) :=
  h.trans ⟨rfl, rfl, rfl, rfl, rfl, rfl, id, fun _ => rfl, fun _ => rfl⟩
theorem Calm.setCopy (h : Calm s t) (x : HeadId) (c : WorkingCopy) : Calm s (t.setCopy x c) :=
  h.trans ⟨rfl, rfl, rfl, rfl, rfl, rfl, id, fun _ => rfl, fun _ => rfl⟩
theorem Calm.setRecipe (h : Calm s t) (n : Slot) (r : Option Recipe) : Calm s (t.setRecipe n r) :=
  h.trans ⟨rfl, rfl, rfl, rfl, rfl, rfl, id, fun _ => rfl, fun _ => rfl⟩
theorem Calm.modPack (h : Calm s t) (f : PackRec → PackRec) : Calm s (t.modPack f) :=
  h.trans ⟨rfl, rfl, rfl, rfl, rfl, rfl, id, fun _ => rfl, fun _ => rfl⟩
theorem Calm.modScanLink (h : Calm s t) (k : ScanLink) (f : LinkRec → LinkRec) : Calm s (t.modScanLink k f) := by
  cases k <;> exact h.trans ⟨rfl, rfl, rfl, rfl, rfl, rfl, id, fun _ => rfl, fun _ => rfl⟩

theorem Calm.modLine (h : Calm s t) (l : LineId) {f : LineRec → LineRec}
    (hf : ∀ r, (f r).cfg = r.cfg ∧ (f r).kind = r.kind) : Calm s (t.modLine l f) := by
  refine h.trans ⟨rfl, rfl, rfl, rfl, rfl, rfl, id, fun x => ?_, fun x => ?_⟩ <;> rw [modLine_line] <;> split
  · rename_i e; rw [e]; exact (hf _).1
  · rfl
  · rename_i e; rw [e]; exact (hf _).2
  · rfl

/-! ## Message Link, Line Controller, Span Recorder, Recipe Store -/

theorem Calm.notify (h : Calm s t) (l : Option LineId) (b : NoticeBody) : Calm s (t.notify l b) :=
  h.trans ⟨by simp, by simp, by simp, by simp, by simp, (notify_link t l b).1, (notify_link t l b).2, by simp, by simp⟩

theorem Calm.offerCause (h : Calm s t) (l : LineId) (x : StopCause) : Calm s (t.offerCause l x) := by
  refine h.trans ⟨by simp, by simp, by simp, by simp, by simp, (offerCause_link t l x).1, (offerCause_link t l x).2,
    fun y => ?_, fun y => ?_⟩ <;> by_cases hy : y = l
  · subst hy; simp only [offerCause_line_self, afterOffer]; split <;> try rfl
    split <;> rfl
  · simp [hy]
  · subst hy; simp only [offerCause_line_self, afterOffer]; split <;> try rfl
    split <;> rfl
  · simp [hy]

theorem Calm.submit (h : Calm s t) (l : LineId) (k : SpanKind) (c : SpanSource) (x : Submission) :
    Calm s (t.submit l k c x) :=
  h.trans ⟨by simp, by simp, by simp, by simp, by simp, (submit_link t l k c x).1, (submit_link t l k c x).2, by simp,
    by simp⟩

theorem Calm.submitSplice (h : Calm s t) (l : LineId) (p : Nat) : Calm s (t.submitSplice l p) :=
  h.trans ⟨by simp, by simp, by simp, by simp, by simp, (submitSplice_link t l p).1, (submitSplice_link t l p).2,
    by simp, by simp⟩

theorem Calm.removeCutHeld (h : Calm s t) (l : LineId) : Calm s (t.removeCutHeld l) := by
  simp only [State.removeCutHeld]
  repeat (first | exact h | refine Calm.modLine ?_ _ fun _ => ⟨rfl, rfl⟩ | split)

theorem Calm.remark (h : Calm s t) (x : HeadId) : Calm s (t.remark x) := by
  simp only [State.remark]
  repeat (first | exact h | apply Calm.setCopy | split)

theorem Calm.remarkSlot (h : Calm s t) (n : Slot) : Calm s (t.remarkSlot n) := by
  simp only [State.remarkSlot]
  repeat (first | exact h | apply Calm.remark | refine Calm.foldl (fun s t _ h => ?_) ?_ | split)

theorem Calm.writeBack (h : Calm s t) (x : HeadId) : Calm s (t.writeBack x) := by
  simp only [State.writeBack]
  repeat (first | exact h | apply Calm.setRecipe | split)

theorem Calm.writeBackAll (h : Calm s t) (hs : List HeadId) : Calm s (t.writeBackAll hs) := by
  simp only [State.writeBackAll]
  repeat (first | exact h | apply Calm.remarkSlot | apply Calm.writeBack |
    refine Calm.foldl (fun s t _ h => ?_) ?_ | split)

theorem Calm.load (h : Calm s t) (n : Slot) (x : HeadId) : Calm s (t.load n x) := by
  simp only [State.load]
  repeat (first | exact h | apply Calm.modHead | apply Calm.remark | apply Calm.setCopy | split)

theorem Calm.evictAndLoad (h : Calm s t) (target : HeadId → Option Slot) (hs : List HeadId) :
    Calm s (t.evictAndLoad target hs) := by
  simp only [State.evictAndLoad]
  repeat (first | exact h | apply Calm.load | apply Calm.writeBackAll | refine Calm.foldl (fun s t _ h => ?_) ?_ |
    split)

theorem Calm.invalidate (h : Calm s t) (x : HeadId) : Calm s (t.invalidate x) := by
  simp only [State.invalidate]
  repeat (first | exact h | apply Calm.setCopy | split)

theorem Calm.flushSlot (h : Calm s t) (n : Slot) : Calm s (t.flushSlot n) := by
  simp only [State.flushSlot]
  repeat (first | exact h | apply Calm.remarkSlot | apply Calm.writeBack |
    refine Calm.foldl (fun s t _ h => ?_) ?_ | split)

theorem Calm.invalidateSlot (h : Calm s t) (n : Slot) : Calm s (t.invalidateSlot n) := by
  simp only [State.invalidateSlot]
  repeat (first | exact h | apply Calm.invalidate | refine Calm.foldl (fun s t _ h => ?_) ?_ | split)

/-! ## Packing head and Coil Assembler -/

theorem Calm.startBand (h : Calm s t) (k n : Nat) : Calm s (t.startBand k n) := by
  simp only [State.startBand]
  repeat (first | exact h | apply Calm.modPack | split)

theorem Calm.startLabel (h : Calm s t) : Calm s t.startLabel := by
  simp only [State.startLabel]
  repeat (first | exact h | apply Calm.modPack | split)

theorem Calm.startTravel (h : Calm s t) (l : LineId) (k : PackStep) : Calm s (t.startTravel l k) := by
  simp only [State.startTravel]
  repeat (first | exact h | apply Calm.modPack | split)

theorem Calm.enterHeld (h : Calm s t) : Calm s t.enterHeld := by
  simp only [State.enterHeld]
  repeat (first | exact h | apply Calm.modPack | split)

theorem Calm.grantTo (h : Calm s t) (l : LineId) : Calm s (t.grantTo l) := by
  simp only [State.grantTo]
  repeat (first | exact h | apply Calm.startBand | apply Calm.startTravel | apply Calm.modPack |
    apply Calm.modLane | split)

theorem Calm.evaluateGrant (h : Calm s t) : Calm s t.evaluateGrant := by
  simp only [State.evaluateGrant]
  repeat (first | exact h | apply Calm.enterHeld | apply Calm.grantTo | split)

theorem Calm.assertCutter (h : Calm s t) (l : LineId) : Calm s (t.assertCutter l) := by
  simp only [State.assertCutter]
  repeat (first | exact h | apply Calm.modCoil | split)

theorem Calm.closeCoil (h : Calm s t) (l : LineId) (why : CutReason) (own : Bool) (p : Option (LineId × Nat)) (m : Bool) :
    Calm s (t.closeCoil l why own p m) := by
  simp only [State.closeCoil]
  repeat (first | exact h | apply Calm.modLane | apply Calm.modSpanRec | split)

theorem Calm.openNextCoil (h : Calm s t) (l : LineId) : Calm s (t.openNextCoil l) := by
  simp only [State.openNextCoil]
  repeat (first | exact h | apply Calm.modCoil | split)

theorem Calm.settleColumns (h : Calm s t) (l : LineId) (used : Nat) : Calm s (t.settleColumns l used) := by
  simp only [State.settleColumns]
  repeat (first | exact h | apply Calm.modKnot | apply Calm.submit | refine Calm.foldl (fun s t _ h => ?_) ?_ | split)

theorem Calm.bindPending (h : Calm s t) (l : LineId) (n : Nat) (b : Bool) : Calm s (t.bindPending l n b) := by
  simp only [State.bindPending]
  repeat (first | exact h | apply Calm.notify | apply Calm.settleColumns | apply Calm.modHead |
    refine Calm.modLine ?_ _ fun _ => ⟨rfl, rfl⟩ | refine Calm.foldl (fun s t _ h => ?_) ?_ | split)

theorem Calm.applyPending (h : Calm s t) (ls : List LineId) : Calm s (t.applyPending ls) := by
  simp only [State.applyPending]
  repeat (first | exact h | apply Calm.bindPending | apply Calm.evictAndLoad |
    refine Calm.foldl (fun s t _ h => ?_) ?_ | split)

theorem Calm.settleCoil (h : Calm s t) (l : LineId) : Calm s (t.settleCoil l) := by
  simp only [State.settleCoil]
  repeat (first | exact h | apply Calm.modPos | apply Calm.modCoil | split)

theorem Calm.releasePair (h : Calm s t) (l : LineId) : Calm s (t.releasePair l) := by
  simp only [State.releasePair]
  repeat (first | exact h | apply Calm.modCoil | apply Calm.removeCutHeld | split)

theorem Calm.notifyCut (h : Calm s t) (l : LineId) : Calm s (t.notifyCut l) := by
  simp only [State.notifyCut]
  repeat (first | exact h | apply Calm.notify | split)

theorem Calm.abandonScan (h : Calm s t) (l : LineId) : Calm s (t.abandonScan l) := by
  simp only [State.abandonScan]
  repeat (first | exact h | apply Calm.modScanLink | split)

theorem Calm.endRun (h : Calm s t) (l : LineId) : Calm s (t.endRun l) := by
  simp only [State.endRun]
  repeat (first | exact h | refine Calm.modLine ?_ _ fun _ => ⟨rfl, rfl⟩ | apply Calm.modCoil |
    apply Calm.modPos | apply Calm.modSpanRec | apply Calm.modHead | apply Calm.modKnot | apply Calm.abandonScan |
    refine Calm.foldl (fun s t _ h => ?_) ?_ | split)

theorem Calm.performCut (h : Calm s t) (l : LineId) (why : CutReason) : Calm s (t.performCut l why) := by
  simp only [State.performCut]
  repeat (first | exact h | apply Calm.evaluateGrant | apply Calm.endRun | apply Calm.notifyCut |
    apply Calm.releasePair | apply Calm.settleCoil | apply Calm.applyPending | apply Calm.openNextCoil |
    apply Calm.closeCoil | apply Calm.assertCutter | apply Calm.modCoil |
    refine Calm.foldl (fun s t _ h => ?_) ?_ | split)

theorem Calm.holdCut (h : Calm s t) (l : LineId) (p : Placement) : Calm s (t.holdCut l p) := by
  simp only [State.holdCut]
  repeat (first | exact h | apply Calm.modCoil | apply Calm.offerCause | apply Calm.notify | split)

theorem Calm.testDue (h : Calm s t) (l : LineId) (p : Placement) : Calm s (t.testDue l p) := by
  simp only [State.testDue]
  repeat (first | exact h | apply Calm.holdCut | apply Calm.performCut | split)

theorem Calm.testCut (h : Calm s t) (l : LineId) : Calm s (t.testCut l) := by
  simp only [State.testCut]
  repeat (first | exact h | apply Calm.testDue | apply Calm.modCoil | split)

theorem Calm.retest (h : Calm s t) (l : LineId) : Calm s (t.retest l) := by
  simp only [State.retest]
  repeat (first | exact h | apply Calm.performCut | apply Calm.releasePair | apply Calm.modCoil | split)

theorem Calm.retestAround (h : Calm s t) (l : LineId) : Calm s (t.retestAround l) := by
  simp only [State.retestAround]
  repeat (first | exact h | apply Calm.retest | split)

/-! ## Twist Supervisor and Line Position Unit -/

theorem Calm.closeHandWindow (h : Calm s t) (l : LineId) (x : HeadId) (u : HeadSettings) (w : TwistWindow) :
    Calm s (t.closeHandWindow l x u w) := by
  simp only [State.closeHandWindow]
  repeat (first | exact h | apply Calm.modHead | apply Calm.submit | split)

theorem Calm.correctTrim (h : Calm s t) (l : LineId) (x : HeadId) (r : Recipe) (d : Int) (b : Bool) :
    Calm s (t.correctTrim l x r d b) := by
  simp only [State.correctTrim]
  repeat (first | exact h | apply Calm.offerCause | apply Calm.remark | apply Calm.setCopy | apply Calm.modHead |
    split)

theorem Calm.closeJudgedWindow (h : Calm s t) (l : LineId) (x : HeadId) (u : HeadSettings) (w : TwistWindow) (r : Recipe)
    (g : Nat) (k : WindowKind) (n : Nat) :
    Calm s (t.closeJudgedWindow l x u w r g k n) := by
  simp only [State.closeJudgedWindow]
  repeat (first | exact h | apply Calm.correctTrim | apply Calm.modHead | apply Calm.submit | split)

theorem Calm.testWindow (h : Calm s t) (l : LineId) (x : HeadId) : Calm s (t.testWindow l x) := by
  simp only [State.testWindow]
  repeat (first | exact h | apply Calm.modHead | apply Calm.closeHandWindow | apply Calm.closeJudgedWindow | split)

theorem Calm.testStall (h : Calm s t) (l : LineId) (x : HeadId) : Calm s (t.testStall l x) := by
  simp only [State.testStall]
  repeat (first | exact h | apply Calm.offerCause | apply Calm.submit | apply Calm.modHead | split)

theorem Calm.flyerCount (h : Calm s t) (x : HeadId) (n : Int) : Calm s (t.flyerCount x n) := by
  simp only [State.flyerCount]
  repeat (first | exact h | apply Calm.modHead | apply Calm.submit | split)

theorem Calm.testSlip (h : Calm s t) (l : LineId) : Calm s (t.testSlip l) := by
  simp only [State.testSlip]
  repeat (first | exact h | apply Calm.modPos | apply Calm.submit | split)

theorem Calm.testMark (h : Calm s t) (l : LineId) : Calm s (t.testMark l) := by
  simp only [State.testMark]
  repeat (first | exact h | apply Calm.modPos | apply Calm.modCoil | split)

theorem Calm.countEvent (h : Calm s t) (l : LineId) (e : CountEvent) : Calm s (State.countEvent l t e) := by
  cases e
  · exact h.offerCause _ _
  · exact h.testSlip _
  · exact h.testMark _
  · exact h.testWindow _ _
  · exact h.testStall _ _
  · exact h.testCut _

theorem Calm.authorityCount (h : Calm s t) (l : LineId) (n : Nat) (b : Bool) : Calm s (t.authorityCount l n b) := by
  simp only [State.authorityCount]
  repeat (first | exact h | apply Calm.countEvent | refine Calm.modLine ?_ _ fun _ => ⟨rfl, rfl⟩ |
    apply Calm.modPos | refine Calm.inOrder (fun s t a h => ?_) ?_ | split)

theorem Calm.otherCount (h : Calm s t) (l : LineId) (n : Nat) (b : Bool) : Calm s (t.otherCount l n b) := by
  simp only [State.otherCount]
  repeat (first | exact h | apply Calm.modPos | split)

theorem Calm.lineCount (h : Calm s t) (l : LineId) (r : Role) (b : Bool) : Calm s (t.lineCount l r b) := by
  simp only [State.lineCount]
  repeat (first | exact h | apply Calm.authorityCount | apply Calm.otherCount | split)

theorem Calm.spliceCaptured (h : Calm s t) (l : LineId) (p : Nat) : Calm s (t.spliceCaptured l p) := by
  simp only [State.spliceCaptured]
  repeat (first | exact h | apply Calm.submitSplice | split)

/-! ## Knot Supervisor -/

theorem Calm.columnTied (h : Calm s t) (l : LineId) (c p : Nat) : Calm s (t.columnTied l c p) := by
  simp only [State.columnTied]
  repeat (first | exact h | apply Calm.modKnot | apply Calm.submit | split)

theorem Calm.columnMissed (h : Calm s t) (l : LineId) (k : KnotSpec) (c p : Nat) :
    Calm s (t.columnMissed l k c p) := by
  simp only [State.columnMissed]
  repeat (first | exact h | apply Calm.offerCause | apply Calm.notify | apply Calm.modKnot | apply Calm.submit |
    split)

theorem Calm.judgedColumn (h : Calm s t) (l : LineId) (k : KnotSpec) (c p : Nat) (m : ColumnMark) :
    Calm s (t.judgedColumn l k c p m) := by
  cases m
  · exact h.columnTied _ _ _
  · exact h.columnMissed _ _ _ _
  · exact h

theorem Calm.judgeUnseen (h : Calm s t) (l : LineId) (b : Bool) (lo hi : Nat) : Calm s (t.judgeUnseen l b lo hi) := by
  simp only [State.judgeUnseen]
  repeat (first | exact h | apply Calm.modKnot | apply Calm.submit | split)

theorem Calm.judgeMesh (h : Calm s t) (l : LineId) (k : KnotSpec) (p lo hi : Nat) :
    Calm s (t.judgeMesh l k p lo hi) := by
  simp only [State.judgeMesh]
  repeat (first | exact h | apply Calm.modKnot | apply Calm.submit | split)

theorem Calm.judgeRow (h : Calm s t) (l : LineId) (c : Scan) (o : ScanOutcome) (b : Option Nat) :
    Calm s (t.judgeRow l c o b) := by
  simp only [State.judgeRow]
  repeat (first | exact h | apply Calm.modKnot | apply Calm.judgeMesh | apply Calm.judgeUnseen |
    apply Calm.judgedColumn | refine Calm.foldl (fun s t _ h => ?_) ?_ | split)

theorem Calm.evaluateGate (h : Calm s t) (l : LineId) : Calm s (t.evaluateGate l) := by
  simp only [State.evaluateGate]
  repeat (first | exact h | apply Calm.modScanLink | apply Calm.judgeRow | split)

/-- The gate counts in force are those taken at the last shaft arrival, and before the first those of the bound recipe. -/
theorem State.gateInForce_of_none {s : State} {l : LineId} (h : (s.knot l).gateTaken = none) :
    s.gateInForce l = s.gateCountsOf l := by
  unfold State.gateInForce
  rw [h]
  cases s.gateCountsOf l <;> rfl

theorem State.gateInForce_of_some {s : State} {l : LineId} {g : Nat × Nat} (h : (s.knot l).gateTaken = some g) :
    s.gateInForce l = (s.gateCountsOf l).map fun _ => g := by
  unfold State.gateInForce
  rw [h]
  cases s.gateCountsOf l <;> rfl

theorem Calm.shaftArrival (h : Calm s t) (l : LineId) (b : Bool) : Calm s (t.shaftArrival l b) := by
  simp only [State.shaftArrival]
  repeat (first | exact h | apply Calm.offerCause | apply Calm.evaluateGate | apply Calm.modKnot | split)

theorem Calm.checkParity (h : Calm s t) (k : ScanLink) (l : LineId) (b : Nat) (g : Bool) :
    Calm s (t.checkParity k l b g) := by
  simp only [State.checkParity]
  repeat (first | exact h | apply Calm.offerCause | apply Calm.notify | apply Calm.modScanLink | split)

theorem Calm.setChain (h : Calm s t) (k : ScanLink) (l : LineId) (o : ScanOutcome) (b : Option Nat) :
    Calm s (t.setChain k l o b) := by
  simp only [State.setChain]
  repeat (first | exact h | apply Calm.notify | apply Calm.modScanLink | split)

theorem Calm.endScan (h : Calm s t) (k : ScanLink) (l : LineId) (c : Scan) (o : ScanOutcome) (b : Option Nat) :
    Calm s (t.endScan k l c o b) := by
  simp only [State.endScan]
  repeat (first | exact h | apply Calm.setChain | apply Calm.judgeRow | apply Calm.modScanLink |
    refine Calm.inAnyOrder (fun s t a h => ?_) ?_ | split)

theorem Calm.boardFrame (h : Calm s t) (k : ScanLink) (w : BitVec 10) : Calm s (t.boardFrame k w) := by
  simp only [State.boardFrame]
  repeat (first | exact h | apply Calm.endScan | apply Calm.checkParity | apply Calm.modScanLink | split)

/-! ## Sensing Channel Unit -/

theorem Calm.handCount (h : Calm s t) (c : ChannelId) (b : Bool) : Calm s (t.handCount c b) := by
  simp only [State.handCount]
  repeat (first | exact h | apply Calm.lineCount | apply Calm.flyerCount | split)

theorem Calm.quadratureStep (h : Calm s t) (c : ChannelId) (d : Nat) (p : Phase) : Calm s (t.quadratureStep c d p) := by
  simp only [State.quadratureStep]
  repeat (first | exact h | apply Calm.handCount | apply Calm.modChannel | split)

theorem Calm.illegalStep (h : Calm s t) (c : ChannelId) (d : Nat) : Calm s (t.illegalStep c d) := by
  simp only [State.illegalStep]
  repeat (first | exact h | apply Calm.offerCause | apply Calm.modChannel | split)

theorem Calm.shaftStep (h : Calm s t) (c : ChannelId) (a b : Bool) : Calm s (t.shaftStep c a b) := by
  simp only [State.shaftStep]
  repeat (first | exact h | apply Calm.shaftArrival | apply Calm.modChannel | split)

theorem Calm.spliceStep (h : Calm s t) (c : ChannelId) (a b : Bool) : Calm s (t.spliceStep c a b) := by
  simp only [State.spliceStep]
  repeat (first | exact h | apply Calm.spliceCaptured | apply Calm.modChannel | split)

theorem Calm.takeLevels (h : Calm s t) (c : ChannelId) (d : Nat) (a b : Bool) : Calm s (t.takeLevels c d a b) := by
  simp only [State.takeLevels]
  repeat (first | exact h | apply Calm.illegalStep | apply Calm.quadratureStep | apply Calm.shaftStep |
    apply Calm.spliceStep | apply Calm.modChannel | split)

/-- What the input filter does with a change: one that holds less than 2 microseconds is ignored, another is taken. -/
theorem State.ifHeld_of_lt {held : Nat} (h : held < 2) (s : State) (take : State → State) : s.ifHeld held take = s := if_pos h

theorem State.ifHeld_of_le {held : Nat} (h : 2 ≤ held) (s : State) (take : State → State) : s.ifHeld held take = take s :=
  if_neg (Nat.not_lt.mpr h)

theorem State.filtered_of_lt {w : ChannelChange} (h : w.held < 2) (s : State) (take : State → State) :
    s.filtered w take = s := if_pos h

theorem State.filtered_of_le {w : ChannelChange} (h : 2 ≤ w.held) (s : State) (take : State → State) :
    s.filtered w take = take (s.advanceTo (w.date + 2)) := if_neg (Nat.not_lt.mpr h)

/-! ## Line Controller and Packing Arbiter -/

theorem Calm.dropPlacement (h : Calm s t) (l : LineId) : Calm s (t.dropPlacement l) := by
  simp only [State.dropPlacement]
  repeat (first | exact h | apply Calm.removeCutHeld | apply Calm.modCoil | split)

theorem Calm.knotRunStart (h : Calm s t) (l : LineId) : Calm s (t.knotRunStart l) := by
  simp only [State.knotRunStart]
  repeat (first | exact h | apply Calm.modScanLink | apply Calm.modKnot | split)

theorem Calm.openRun (h : Calm s t) (l : LineId) (n : Slot) (r : Recipe) : Calm s (t.openRun l n r) := by
  simp only [State.openRun]
  repeat (first | exact h | apply Calm.dropPlacement | refine Calm.modLine ?_ _ fun _ => ⟨rfl, rfl⟩ |
    apply Calm.modPos | apply Calm.modCoil | apply Calm.modSpanRec | apply Calm.knotRunStart |
    apply Calm.bindPending | apply Calm.evictAndLoad | apply Calm.modChannel | apply Calm.modHead |
    refine Calm.foldl (fun s t _ h => ?_) ?_ | split)

theorem Calm.resetHeads (h : Calm s t) (l : LineId) : Calm s (t.resetHeads l) := by
  simp only [State.resetHeads]
  repeat (first | exact h | apply Calm.invalidate | apply Calm.modHead |
    refine Calm.foldl (fun s t _ h => ?_) ?_ | split)

theorem Calm.knotReset (h : Calm s t) (l : LineId) : Calm s (t.knotReset l) := by
  simp only [State.knotReset]
  repeat (first | exact h | apply Calm.modKnot | apply Calm.abandonScan | split)

theorem Calm.releaseFollower (h : Calm s t) (l : LineId) : Calm s (t.releaseFollower l) := by
  simp only [State.releaseFollower]
  repeat (first | exact h | apply Calm.modCoil | apply Calm.removeCutHeld | split)

theorem Calm.resetLine (h : Calm s t) (l : LineId) : Calm s (t.resetLine l) := by
  simp only [State.resetLine]
  repeat (first | exact h | apply Calm.retest | refine Calm.modLine ?_ _ fun _ => ⟨rfl, rfl⟩ |
    apply Calm.modCoil | apply Calm.modPos | apply Calm.modSpanRec | apply Calm.resetHeads |
    apply Calm.knotReset | apply Calm.releaseFollower | split)

theorem Calm.resumeLine (h : Calm s t) (l : LineId) : Calm s (t.resumeLine l) := by
  simp only [State.resumeLine]
  repeat (first | exact h | refine Calm.modLine ?_ _ fun _ => ⟨rfl, rfl⟩ | split)

theorem Calm.enableLane (h : Calm s t) (l : LineId) : Calm s (t.enableLane l) := by
  simp only [State.enableLane]
  repeat (first | exact h | apply Calm.evaluateGrant | apply Calm.modLane | split)

theorem Calm.disableLane (h : Calm s t) (l : LineId) : Calm s (t.disableLane l) := by
  simp only [State.disableLane]
  repeat (first | exact h | apply Calm.modLane | split)

theorem Calm.suspend (h : Calm s t) (a : Option LineId) (k : Option PackStep) : Calm s (t.suspend a k) := by
  simp only [State.suspend]
  repeat (first | exact h | apply Calm.notify | apply Calm.modPack | split)

theorem Calm.freeHead (h : Calm s t) : Calm s t.freeHead := by
  simp only [State.freeHead]
  repeat (first | exact h | apply Calm.evaluateGrant | apply Calm.modPack | split)

theorem Calm.enterStep (h : Calm s t) (k : PackStep) : Calm s (t.enterStep k) := by
  cases k
  · exact h.startBand _ _
  · exact h.startBand _ _
  · exact h.startLabel

theorem Calm.proceedTo (h : Calm s t) (l : LineId) (k : PackStep) : Calm s (t.proceedTo l k) := by
  simp only [State.proceedTo]
  repeat (first | exact h | apply Calm.suspend | apply Calm.enterStep | split)

theorem Calm.finishService (h : Calm s t) (l : LineId) (r : CoilRecord) : Calm s (t.finishService l r) := by
  simp only [State.finishService]
  repeat (first | exact h | apply Calm.suspend | apply Calm.freeHead | apply Calm.modLane | apply Calm.notify | split)

theorem Calm.endService (h : Calm s t) (l : LineId) : Calm s (t.endService l) := by
  simp only [State.endService]
  split
  · exact h
  · refine Calm.inAnyOrder (fun s t a h => ?_)
      (h.trans ⟨rfl, rfl, rfl, rfl, rfl, rfl, id, fun _ => rfl, fun _ => rfl⟩)
    cases a
    · exact h.finishService _ _
    · exact h.retestAround _

theorem Calm.bandEnds (h : Calm s t) (l : LineId) (k : Nat) : Calm s (t.bandEnds l k) := by
  simp only [State.bandEnds]
  repeat (first | exact h | apply Calm.proceedTo | apply Calm.endService | apply Calm.modPack |
    apply Calm.modLane | split)

theorem Calm.packFault (h : Calm s t) (l : LineId) (f : PackFault) : Calm s (t.packFault l f) := by
  simp only [State.packFault]
  repeat (first | exact h | apply Calm.notify | apply Calm.modLane | apply Calm.modPack | split)

theorem Calm.clampSlips (h : Calm s t) (l : LineId) (k : Nat) : Calm s (t.clampSlips l k) := by
  simp only [State.clampSlips]
  repeat (first | exact h | apply Calm.packFault | apply Calm.startBand | apply Calm.modPack |
    apply Calm.modLane | split)

theorem Calm.leaveStop (h : Calm s t) : Calm s t.leaveStop := by
  simp only [State.leaveStop]
  repeat (first | exact h | apply Calm.freeHead | apply Calm.suspend | apply Calm.modPack | split)

theorem Calm.resumeService (h : Calm s t) (l : LineId) (k : PackStep) : Calm s (t.resumeService l k) := by
  simp only [State.resumeService]
  repeat (first | exact h | apply Calm.startTravel | apply Calm.enterStep | split)

theorem Calm.resumeHead (h : Calm s t) : Calm s t.resumeHead := by
  simp only [State.resumeHead]
  repeat (first | exact h | apply Calm.resumeService | apply Calm.freeHead | apply Calm.modPack | split)

/-- A band that the guard event broke off brings its restarts with it, any other none. -/
theorem PackRec.restartsCarried_of_repeats {p : PackRec} (h : p.bandRepeats = true) : p.restartsCarried = p.restarts :=
  if_pos h

theorem PackRec.restartsCarried_of_not {p : PackRec} (h : p.bandRepeats = false) : p.restartsCarried = 0 :=
  if_neg (Bool.eq_false_iff.mp h)

end Sys2Proof.Machine
end

