-- ==== Sys2Proof/Laws/Orders.lean ====
section
/-! SUPPORT. Free orders: every event of a list is in its free order once, and the events of the LPU keep the order R38 gives
them. -/

namespace Sys2Proof.Machine

theorem insertAt_perm {α : Type} (n : Nat) (x : α) (ys : List α) : (insertAt n x ys).Perm (x :: ys) := by
  induction ys generalizing n with
  | nil => cases n <;> exact .refl _
  | cons y ys ih =>
    cases n with
    | zero => exact .refl _
    | succ n => exact ((ih n).cons y).trans (.swap x y ys)

theorem freelyOrdered_perm {α : Type} (seed : Nat) (xs : List α) : (freelyOrdered seed xs).Perm xs := by
  induction xs with
  | nil => exact .refl _
  | cons x xs ih =>
    cases xs with
    | nil => exact .refl _
    | cons y ys => exact (insertAt_perm _ _ _).trans (ih.cons x)

theorem filter_ofLpu_eq_nil {es : List CountEvent} (h : es.countP CountEvent.ofLpu = 0) :
    es.filter CountEvent.ofLpu = [] := by
  rwa [List.countP_eq_length_filter, List.length_eq_zero_iff] at h

/-- With as many LPU events as there are places for them, the events of the LPU come in the given order, and those of the
other blocks keep their places. -/
theorem inLpuOrder_filter (es xs : List CountEvent) (hx : ∀ x ∈ xs, x.ofLpu = true)
    (hn : es.countP CountEvent.ofLpu = xs.length) :
    (inLpuOrder es xs).filter CountEvent.ofLpu = xs ∧
      (inLpuOrder es xs).filter (fun e => !e.ofLpu) = es.filter (fun e => !e.ofLpu) := by
  induction es generalizing xs with
  | nil =>
    cases xs with
    | nil => simp [inLpuOrder]
    | cons x xs => simp at hn
  | cons e es ih =>
    cases xs with
    | nil => exact ⟨filter_ofLpu_eq_nil hn, rfl⟩
    | cons x xs =>
      have hx' : ∀ y ∈ xs, y.ofLpu = true := fun y hy => hx y (List.mem_cons_of_mem x hy)
      have hxl : x.ofLpu = true := hx x List.mem_cons_self
      cases he : e.ofLpu with
      | true =>
        obtain ⟨h1, h2⟩ := ih xs hx' (by simpa [List.countP_cons, he] using hn)
        exact ⟨by simp [inLpuOrder, he, hxl, h1], by simp [inLpuOrder, he, hxl, h2]⟩
      | false =>
        obtain ⟨h1, h2⟩ := ih (x :: xs) hx (by simpa [List.countP_cons, he] using hn)
        exact ⟨by simp [inLpuOrder, he, h1], by simp [inLpuOrder, he, h2]⟩

/-- A list has as many events of each kind as another is a rearrangement of it. -/
theorem perm_of_filters {es fs : List CountEvent} (h1 : (es.filter CountEvent.ofLpu).Perm (fs.filter CountEvent.ofLpu))
    (h2 : (es.filter fun e => !e.ofLpu).Perm (fs.filter fun e => !e.ofLpu)) : es.Perm fs :=
  ((List.filter_append_perm CountEvent.ofLpu es).symm.trans (h1.append h2)).trans (List.filter_append_perm CountEvent.ofLpu fs)

/-- The order in which the events of a count are made: all of them once, and the LPU's own in the order of the list. -/
theorem lpuOrdered_spec (seed : Nat) (es : List CountEvent) :
    let order := inLpuOrder (freelyOrdered seed es) (es.filter CountEvent.ofLpu)
    order.Perm es ∧ order.filter CountEvent.ofLpu = es.filter CountEvent.ofLpu := by
  have hp := freelyOrdered_perm seed es
  obtain ⟨h1, h2⟩ := inLpuOrder_filter (freelyOrdered seed es) (es.filter CountEvent.ofLpu)
    (fun x hx => (List.mem_filter.mp hx).2) (by rw [hp.countP_eq, List.countP_eq_length_filter])
  exact ⟨perm_of_filters (by rw [h1]) (by rw [h2]; exact hp.filter _), h1⟩

end Sys2Proof.Machine
end

