-- ==== Sys2Proof/Tests/Slice0.lean ====
section
/-! SUPPORT. Tests: ill-formed commands refused, the manual's worked examples, small steps, and for every obligation with
hypotheses a state and operands that meet them. The source of an expected value is named at its theorem. -/

namespace Sys2Proof.Tests

open Sys2Proof.Machine Sys2Proof.Safety

/-! ## Small states -/

/-- The state after a command. -/
def after (s : State) (c : Instr) : State :=
  match exec c s with
  | .next t => t
  | .fault _ => s
  | .refused _ => s

/-- The kind and payload of the frame being sent. -/
def sent (s : State) : Option (Byte × List Byte) := s.link.sending.map fun f => (f.kind, f.payload)

/-- The recipe of section 5.8, with a target length of 220,000 mm, every strand position alike. -/
def ropeRecipe : Recipe where
  name := [0x41]
  kind := .rope
  positions := Vector.replicate 13 (some ⟨4200, .z, 120⟩)
  trimLimit := 800
  gain := 96
  slew := 50
  tolerance := 15
  window := 1000
  stallLength := 500
  limitWindows := 3
  knot := none
  targetLength := 220000
  plusTolerance := 5000
  endZone := 3000
  markInterval := 1000
  bandCount := 2

/-- The knot fields of section 11.2's line C. -/
def netFields : KnotSpec := ⟨64, 90, 180, 3, 120, 50, true⟩
def netRecipe : Recipe := { ropeRecipe with kind := .net, knot := some netFields }

def flyer (line : LineId) (ch : ChannelId) : HeadSettings := ⟨line, 4, ch, 4, 12000, .plus⟩

/-- A change of a channel's levels dated at 0 that holds for just 2 microseconds. -/
def change (ch : ChannelId) : ChannelChange := ⟨ch, 0, 2⟩

/-- At 2 microseconds, rope line A on haul channel 4 and wheel channel 6, splice channel 5, head 4 on channel 20, bound to slot 3. -/
def ready : State :=
  ((((((((({ State.reset with now := 2 } : State).modLine .a fun r => { r with
    bound := some 2
    cfg := { r.cfg with
      haulChannel := some 4
      haulPitch := 300000
      wheelChannel := some 6
      wheelPitch := some 250000
      spliceChannel := some 5
      spliceOffset := some 9000
      spliceSpacing := some 100 } }).modChannel 4 fun c => { c with role := .haul, consumer := some (.line .a) }).modChannel
    6 fun c => { c with role := .wheel, consumer := some (.line .a) }).modChannel
    5 fun c => { c with role := .splice, consumer := some (.line .a) }).modChannel
    20 fun c => { c with role := .flyer, consumer := some (.head 4) }).modHead
    4 fun h => { h with settings := some (flyer .a 20) }).setRecipe 2 (some ropeRecipe)).setRecipe 8 (some netRecipe))

/-- Line A running from position 0. -/
def running : State := after (after ready (.runStart 1 0)) .frameSent

/-- Line A running at a position. -/
def at' (p : Nat) : State := running.modPos .a fun r => { r with position := p }

/-- Rope line B, with A as leader, running beside A. -/
def paired : State :=
  ((((running.modLine .b fun r => { r with
    state := .running, bound := some 2, cfg := { r.cfg with leader := some .a, pairTolerance := 500 } }).modCoil
    .b fun k => { k with coil := some ⟨2, 0, 0, 0⟩ }).modPos .b fun p => { p with position := 219850000000 }).modPos
    .a fun p => { p with position := 220000000000 })

/-- NET line C on K1 with 8 boards and shaft channel 7, running on slot 9, in step with its shaft. -/
def netRunning : State :=
  ((((ready.modLine .c fun r => { r with
    kind := .net
    state := .running
    bound := some 8
    cfg := { r.cfg with
      haulChannel := some 8
      shaftChannel := some 7
      countsPerRev := some 36
      scanLink := some .k1
      boardCount := some 8
      knotOffset := some 8000 } }).modChannel 7 fun c => { c with role := .shaft, consumer := some (.line .c) }).modCoil
    .c fun k => { k with coil := some ⟨8, 0, 0, 0⟩ }).modKnot .c fun k => { k with sync := .synced })

/-- A closed coil record of line A. -/
def coil : CoilRecord where
  line := .a
  number := 1
  slot := 2
  start := 0
  stop := 220000
  length := 220000
  marks := 0
  suppressed := 0
  bandCount := 2
  flags := ⟨false, false, false, false, false, false, false⟩
  partner := none
  splices := []
  lostSplices := 0
  spans := []
  lostSpans := 0
  cutTime := 0
  attempts := 0
  bandsDone := 0
  restarts := 0
  packTime := none

/-- Lane A enabled with one coil at its arm, the head FREE. -/
def waiting : State :=
  State.reset.modLane .a fun r => { r with enable := .enabled, coilReady := true, queue := [coil] }

/-- The head serving lane A: travelling there, then in band 1, then labelling. -/
def travelling : State := waiting.evaluateGrant
def banding : State := after travelling .headAtLane
def labelling : State :=
  banding.modPack fun p => { p with state := .labelling, step := some .label }

/-- The guard latch set, the input inactive again. -/
def latched : State := { State.reset with guard := ⟨false, true, true⟩ }

/-- A frame being sent keeps the transmitter busy. -/
def busy (s : State) (f : Frame) : State := s.modLink fun k => { k with sending := some f }
def statusReply : Frame := ⟨0xB0, 1, []⟩
def someNotice : Notice := ⟨3, none, 0, .guardCleared⟩

/-! ## Properties of all lines, heads and optional values -/

theorem forall_line {P : LineId → Prop} (h : ∀ l ∈ LineId.all, P l) : ∀ l, P l := fun l => h l (by cases l <;> decide)

theorem forall_head {s : State} {P : HeadId → HeadSettings → Prop} (H : ∀ h, ∀ t ∈ (s.head h).settings, P h t) :
    ∀ h t, (s.head h).settings = some t → P h t := H

/-! ## Ill-formed commands (R161, R173) -/

theorem test_wf_tag_only : (Instr.status 255).wellFormed = true := by decide
theorem test_ill_number8 : (Instr.runStart 1 256).wellFormed = false := by decide
theorem test_ill_number16 : (Instr.headSet 1 ⟨0, 0, 0, 0, 65536, 0, 0⟩).wellFormed = false := by decide
theorem test_ill_number32 : (Instr.coilTake 1 0 4294967296).wellFormed = false := by decide
theorem test_ill_consumer_role : (Instr.channelSet 1 ⟨0, 3, .line 0, 0⟩).wellFormed = false := by decide
theorem test_ill_consumer_line : (Instr.channelSet 1 ⟨0, 1, .line 4, 0⟩).wellFormed = false := by decide
theorem test_ill_consumer_head : (Instr.channelSet 1 ⟨0, 1, .head 3, 0⟩).wellFormed = false := by decide
theorem test_ill_length : (Instr.frameLengthBroken 240).wellFormed = false := by decide

def lineArgs : LineSetArgs where
  line := 0
  kind := 0
  haulChannel := some 31
  haulPitch := 1000
  wheelChannel := none
  wheelPitch := none
  authority := 0
  slipWindow := 1000
  slipLimit := 200
  spliceChannel := none
  spliceOffset := none
  spliceSpacing := none
  shaftChannel := none
  countsPerRev := none
  scanLink := none
  boardCount := none
  knotOffset := none
  markerPulse := 10
  cutterPulse := 2000
  leader := none
  pairTolerance := 0

def netArgs : LineSetArgs := { lineArgs with
  line := 2, kind := 1, shaftChannel := some 7, countsPerRev := some 8192, scanLink := some 1, boardCount := some 8
  knotOffset := some 200000 }

theorem test_wf_line_set : (Instr.lineSet 1 netArgs).wellFormed = true := by decide
theorem test_ill_absent_code8 : (Instr.lineSet 1 { lineArgs with haulChannel := some 255 }).wellFormed = false := by decide
theorem test_ill_absent_code16 : (Instr.lineSet 1 { lineArgs with countsPerRev := some 65535 }).wellFormed = false := by
  decide
theorem test_ill_absent_code32 : (Instr.lineSet 1 { lineArgs with wheelPitch := some 4294967295 }).wellFormed = false := by
  decide

def recipeArgs : RecipeArgs where
  name := [0x41]
  kind := 0
  positions := Vector.replicate 13 ⟨some 65535, some 1, some (-2000)⟩
  trimLimit := 2000
  gain := 256
  slew := 500
  tolerance := 5
  window := 100
  stallLength := 5000
  limitWindows := 20
  columnsUsed := none
  gateOpen := none
  gateClose := none
  breakThreshold := none
  meshPitch := none
  meshTolerance := none
  stopOnBreak := none
  targetLength := 10000
  plusTolerance := 0
  endZone := 20000
  markInterval := 0
  bandCount := 8

def netRecipeArgs : RecipeArgs := { recipeArgs with
  kind := 1, columnsUsed := some 64, gateOpen := some 358, gateClose := some 359, breakThreshold := some 2
  meshPitch := some 1, meshTolerance := some 200, stopOnBreak := some 1, markInterval := 1000 }

theorem test_wf_recipe_store : (Instr.recipeStore 1 24 netRecipeArgs).wellFormed = true := by decide
theorem test_ill_name_long :
    (Instr.recipeStore 1 1 { recipeArgs with name := List.replicate 17 0x41 }).wellFormed = false := by decide
theorem test_ill_name_end : (Instr.recipeStore 1 1 { recipeArgs with name := [0x41, 0] }).wellFormed = false := by decide
theorem test_ill_signed : (Instr.recipeStore 1 1 { recipeArgs with
    positions := Vector.replicate 13 ⟨some 1, some 0, some (-32768)⟩ }).wellFormed = false := by decide

/-! ## The manual's worked examples -/

/-- The check value of "123456789" (R162). -/
theorem test_crc_check_value :
    crc16 [0x31, 0x32, 0x33, 0x34, 0x35, 0x36, 0x37, 0x38, 0x39] = 0x29B1#16 := by decide +kernel

/-- Section 8.3, with a plus-tolerance of 1,100 mm and of 5,000 mm. -/
theorem test_placement_at_nominal :
    placementFor [1757800000000, 1761500000000] 1760000000000 1100000000 3000000000 = ⟨1760000000000, false, true⟩ := by
  decide
theorem test_placement_shifted :
    placementFor [1757800000000, 1761500000000] 1760000000000 5000000000 3000000000 = ⟨1764500000000, true, false⟩ := by
  decide

/-- Section 3.5's three slip windows. -/
theorem test_slip_windows :
    [slipOf 10000200000 9800000000, slipOf 10000200000 9775000000, slipOf 10000200000 10000000000] = [20, 22, 0] := by
  decide

/-- Section 5.8: the density, the deviation and the correction of the worked window. -/
theorem test_worked_window :
    density 165 4 1000200000 = (4124, false) ∧ twistDeviation 4200 4124 = 18 ∧ correction 18 96 50 = 50 := by decide
theorem test_worked_window_limits :
    twistDeviation 4200 0 = 999 ∧ correction 999 96 50 = 50 ∧ windowKind .plus .z 4 (-6) = .backlash ∧
      windowKind .plus .z 4 (-40) = .hand := by decide

/-- Section 5.8's window as the machine judges it: trim 170, duty 5,085, the copy DIRTY, the TWIST span. -/
def window58 : State :=
  (at' 61012200000).modHead 4 fun h => { h with window := some ⟨60012000000, 165, 61012200000⟩ }
theorem test_window_trim : ((window58.testWindow .a 4).head 4).trim = 170 ∧
    ((window58.testWindow .a 4).head 4).duty = 5085 := by decide
theorem test_window_copy : (window58.testWindow .a 4).copy 4 = ⟨some 2, .dirty, 170⟩ := by decide
theorem test_window_span : ((window58.testWindow .a 4).spanRec .a).spans =
    [⟨.twist, .head 4, 72012000000, some 73012200000, true, 18, false, 0⟩] := by decide +kernel

/-- Section 2.5's periods. -/
def timed (c : Channel) (dates : List Nat) : Channel := dates.foldl Channel.qualifyingEdge c
theorem test_periods : (timed (State.reset.channel 0) [1000000]).lastPeriod = none ∧
    (timed (State.reset.channel 0) [1000000, 1040000]).lastPeriod = some 40000 ∧
    (timed (State.reset.channel 0) [1000000, 1040000, 12000000]).lastPeriod = some 10000000 ∧
    (timed (State.reset.channel 0) [1000000, 1040000, 12000000, 12050000]).lastPeriod = some 50000 := by decide

/-- Section 2.4's forward cycle: phase A leads phase B, whatever the levels (R24). -/
theorem test_forward_cycle : [forwardStep false false .a, forwardStep true false .b, forwardStep true true .a,
    forwardStep false true .b, forwardStep false false .b] = [true, true, true, true, false] := by decide

/-! ## Single steps -/

theorem test_run_start_opens_run : (running.line .a).state = .running ∧
    (running.coilRec .a).coil = some ⟨2, 0, 0, 0⟩ ∧ (running.head 4).trim = 120 := by decide
theorem test_run_start_bad_target : sent (after State.reset (.runStart 1 4)) = some (0xFF, [2, 0]) := by decide
theorem test_haul_count_moves :
    ((after running (.quadratureCount (change 4) .a)).pos .a).position = 300000 := by decide
theorem test_haul_count_back_clamped : ((after running (.quadratureCount (change 4) .b)).pos .a).position = 0 ∧
    ((after running (.quadratureCount (change 4) .b)).line .a).reverseClamp = true := by decide
/-- A level that returns in less than 2 microseconds is ignored (R22). -/
theorem test_short_change_ignored :
    ((after running (.quadratureCount ⟨4, 0, 1⟩ .a)).channel 4).count = (running.channel 4).count ∧
      ((after running (.quadratureCount (change 4) .a)).channel 4).count = (running.channel 4).count + 1 := by decide
/-- Where the slip test and the mark test fall on one count, the slip test goes first (R38). -/
theorem test_slip_before_mark : inLpuOrder [.mark, .cut, .slip] [.slip, .mark] = [.slip, .cut, .mark] := by decide
/-- Restarts in band stand until the next band starts (R152). -/
theorem test_restarts_stand_after_last_band : ((after (banding.modPack fun p => { p with step := some (.band 2), restarts := 2 })
    .bandDone).pack.restarts) = 2 ∧ ((after (banding.modPack fun p => { p with restarts := 2 }) .bandDone).pack.restarts) = 0 := by
  decide
theorem test_line_stop_causes : ((after running (.lineStop 1 0)).line .a).causes.host = true ∧
    (after running (.lineStop 1 0)).lineStopOut .a = true := by decide
theorem test_line_stop_idle : sent (after ready (.lineStop 1 0)) = some (0xFF, [4, 0]) := by decide
theorem test_cut_now_short : (((after (at' 1000000000) (.cutNow 1 0)).lane .a).queue.map fun r =>
    (r.length, r.flags.short)) = [(1000, true)] := by decide
/-- COIL_CUT of a coil of 1,000 mm cut SHORT: coil 1 from 0 to 1,000 mm, no partner, one record in the lane queue (R143). -/
theorem test_cut_notice : (after (at' 1000000000) (.cutNow 1 0)).link.notices.map (·.body) =
    [.coilCut 1 0 1000 1000 ⟨true, false, false, false, false, false, false⟩ none 1] := by decide +kernel
theorem test_paired_cut : (after paired (.cutNow 1 0)).cutterOut .a = true ∧
    (after paired (.cutNow 1 0)).cutterOut .b = true := by decide
theorem test_splice_coordinate :
    ((after (at' 1000000000) (.spliceEdge (change 5) true false)).spanRec .a).splices = [10000000000] := by decide
theorem test_grant_travels : travelling.travelOut = true ∧ travelling.laneSelectOut .a = true := by decide
theorem test_head_at_lane_straps : banding.strapOut = true ∧ banding.pack.position = some .a := by decide
theorem test_label_done_packs : (after labelling .labelDone).completed.map (·.number) = [1] := by decide
theorem test_guard_event_latches :
    (after (after State.reset (.guardArm 1)) .guardEvent).guard = ⟨true, true, true⟩ := by decide
/-- A guard level that returns in less than 2 microseconds is ignored (R15). -/
theorem test_guard_glitch_ignored :
    (after (after State.reset (.guardArm 1)) (.guardEvent 1)).guard = ⟨false, true, false⟩ := by decide
theorem test_reset_all_waits : (after (after State.reset (.resetAll 1)) (.status 2)).link.buffer.length = 1 := by decide
theorem test_notice_level_clamped : sent (after State.reset (.noticeLevel 1 11 0)) = some (0x8A, [11, 2]) := by decide
theorem test_unknown_kind : State.reset.serveFrame 0x0B 1 [] =
    (State.reset.entered 0x0B 1).refused 1 ⟨.badKind, 0⟩ := by decide

/-! ## Witnesses: for each obligation with hypotheses, states and operands that meet them, clause by clause -/

theorem witness_StepRunsFrontCommand : ({ State.reset with pending := [.bandDone, .snapshot 1] } : State).pending =
    .bandDone :: [.snapshot 1] := rfl
theorem witness_IdleStepPassesOneMicrosecond : State.reset.pending = [] ∧
    ({ State.reset with now := 998 } : State).now / 1000 = (998 + 1) / 1000 ∧
    ({ State.reset with now := 999 } : State).now / 1000 < (999 + 1) / 1000 := by decide

def resetting : State := { busy running ⟨0xAF, 1, []⟩ with now := 999 }
theorem witness_ResetAllReleasesOutputs : resetting.sendingReset = true ∧ resetting.now / 1000 < 1000 / 1000 := by decide
theorem witness_ResetAllKeepsInputsAndTime : resetting.sendingReset = true := by decide

def sending (f : Frame) (rs : List Frame) (ns : List Notice) : State :=
  State.reset.modLink fun k => { k with sending := some f, buffer := [⟨0x30, 1⟩], replies := rs, notices := ns }
theorem witness_FrameSentChoosesNextFrame :
    (sending statusReply [statusReply] []).sendingReset = false ∧ (sending ⟨0xF0, 0, []⟩ [] [someNotice]).sendingReset = false ∧
    (sending statusReply [statusReply] [someNotice]).link.replies = statusReply :: [] ∧
    (sending ⟨0xF0, 0, []⟩ [] [someNotice]).link.replies = [] ∧
    (sending ⟨0xF0, 0, []⟩ [] [someNotice]).link.notices = someNotice :: [] ∧
    (sending statusReply [] []).link.notices = [] := by decide

def receiving (r : Receiver) : State := (busy State.reset statusReply).modLink fun k => { k with receiver := r }
theorem witness_ByteReceivedCollectsFrame : (receiving .hunt).link.sending.isSome = true ∧
    (receiving .hunt).link.receiver = .hunt ∧ (0xA4#8 ≠ 0xA5#8) ∧
    (receiving (.frame [])).link.receiver = .frame [] ∧ (240#8).toNat ≤ 240 ∧
    (receiving (.frame [0, 0x30, 1])).link.receiver = .frame (0 :: [0x30, 1]) ∧
    ([0x30#8, 1] : List Byte).length + 2 < (0#8).toNat + 5 := by decide
theorem witness_DiscardedFrameSetsItsFlag : (receiving (.frame [])).link.sending.isSome = true ∧
    (receiving (.frame [])).link.receiver = .frame [] ∧ 240 < (241#8).toNat ∧
    ({ receiving (.frame [0]) with now := 5000 } : State).now = (receiving (.frame [0])).link.rxLast + 5000 ∧
    ({ receiving (.frame [0]) with now := 4999 } : State).now < (receiving (.frame [0])).link.rxLast + 5000 ∧
    ([0x30#8, 1] : List Byte).length = (0#8).toNat + 2 ∧
    (receiving (.frame [0, 0x30, 1, 0])).link.receiver = .frame (0 :: [0x30, 1] ++ [0]) ∧
    enc16 (crc16 (0 :: [0x30#8, 1])).toNat ≠ [0, 0] := by decide +kernel

def statusForm : RequestForm := ⟨0x30, 1, [], (·.status)⟩
/-- The bytes of a frame after its start byte, less the last, and the last. -/
def upToLast (f : Frame) : List Byte := f.bytes.tail.dropLast
def lastOf (f : Frame) : Byte := (f.bytes.getLast?).getD 0
/-- An idle part that has received a frame up to its last byte. -/
def awaiting (f : Frame) : State := State.reset.modLink fun k => { k with receiver := .frame (upToLast f) }
theorem witness_FrameCompleteRunsItsRequest : requestForm (.status 1) = some statusForm ∧
    (Instr.status 1).wellFormed = true ∧
    (∀ f ∈ [Frame.mk 0x30 1 [], ⟨0x0B, 1, []⟩, ⟨0x30, 1, [0]⟩, ⟨0x20, 1, [4]⟩],
      f.bytes = 0xA5#8 :: upToLast f ++ [lastOf f] ∧ (awaiting f).link.receiver = .frame (upToLast f) ∧
        (awaiting f).link.takesRequest = true ∧ f.payload.length ≤ 240) :=
  ⟨rfl, by decide, by decide +kernel⟩
/-- The same bytes as each case of the reply needs them. -/
theorem witness_FrameCompleteRunsItsRequest_cases : (0x0B#8).toNat ∉ requestKinds ∧ spell 0x30 1 [0] = .badLength ∧
    spell 0x30 1 [] = .command (.status 1) ∧ (∃ v reply, State.reset.status = .ok (v, reply)) ∧
    spell 0x20 1 [4] = .command (.runStart 1 4) ∧ State.reset.runStart 4 = .error ⟨.badTarget, 0⟩ ∧
    (((awaiting ⟨0x30, 1, []⟩).modLink fun k => { k with sending := some ⟨0xAF, 1, []⟩ }).link.resetPending = true) ∧
    (((awaiting ⟨0x30, 1, []⟩).modLink fun k => { k with buffer := [⟨0x30, 1⟩, ⟨0x30, 2⟩] }).link.resetPending = false) ∧
    (receiving (.frame [0])).link.receiver = .frame (0 :: []) ∧ ([] : List Byte).length + 1 ≠ (0#8).toNat + 4 :=
  ⟨by decide, by decide, by decide, ⟨_, _, rfl⟩, by decide, rfl, by decide, by decide, rfl, by decide⟩
theorem witness_RequestPayloadReadsBack : (requestForm (.recipeStore 255 255 netRecipeArgs)).isSome = true ∧
    (Instr.recipeStore 255 255 netRecipeArgs).wellFormed = true := by decide

theorem witness_RefusalChangesOnlyItsPortFlag : State.reset.link.takesRequest = true ∧
    (∃ r, requestForm (.lineStop 1 4) = some r ∧ r.handle (State.reset.entered r.kind r.tag) = .error ⟨.badTarget, 0⟩) ∧
    spell 0x00 1 [] = .unknownKind ∧ spell 0x3C 1 [] = .unknownKind ∧ spell 0x30 1 [0] = .badLength ∧
    spell 0x20 1 [] = .badLength := by
  refine ⟨by decide, ⟨_, rfl, rfl⟩, by decide, by decide, by decide, by decide⟩
theorem witness_RequestNotTakenHasNoEffect : (requestForm (.status 1)).isSome = true ∧
    (busy State.reset ⟨0xAF, 1, []⟩).link.resetPending = true ∧
    (busy State.reset ⟨0xAF, 1, []⟩).link.sending.isSome = true ∧ ∃ s : State, s.link.sending.isSome = true ∧
      s.link.resetPending = false ∧ 2 ≤ s.link.buffer.length :=
  ⟨rfl, by decide, by decide,
    (busy State.reset statusReply).modLink fun k => { k with buffer := [⟨0x30, 1⟩, ⟨0x30, 2⟩] }, by decide, by decide,
    by decide⟩

theorem reset_takesRequest : State.reset.link.takesRequest = true := by decide
theorem witness_NoticeLevelClampsLevel : State.reset.link.takesRequest = true ∧
    (0 < NoticeClass.lowest .cutHeld ∧ ¬1 < NoticeClass.lowest .cutHeld ∧ 3 < 4) := by decide
theorem witness_StatusPortFlagsResetAllReply : State.reset.link.takesRequest = true := by decide
theorem noticesInOrder_replicate (n : Nat) (x : Notice) : noticesInOrder (List.replicate n x) := by
  induction n with
  | zero => trivial
  | succ n ih =>
    cases n with
    | zero => trivial
    | succ n => exact ⟨Nat.le_refl _, ih⟩
theorem witness_NoticeOfferKeepsRankAndBound : ∃ q₁ q₂ : List Notice, noticesInOrder q₁ ∧ q₁.length = 31 ∧
    noticesInOrder q₂ ∧ q₂.length = 32 ∧ (∀ m ∈ q₂, 3 ≤ m.level) ∧ ∃ q₃ : List Notice, noticesInOrder q₃ ∧ q₃.length = 32 ∧
      ∃ m ∈ q₃, m.level < 3 :=
  ⟨List.replicate 31 someNotice, List.replicate 32 someNotice, noticesInOrder_replicate .., by simp,
    noticesInOrder_replicate .., by simp, fun m h => by rw [List.eq_of_mem_replicate h]; decide,
    List.replicate 32 ⟨2, none, 0, .guardCleared⟩, noticesInOrder_replicate .., by simp, ⟨2, none, 0, .guardCleared⟩,
    by simp, by decide⟩
theorem witness_EveryStepKeepsNoticeQueue : NoticeLaw State.reset ∧ step State.reset = .next State.reset.tick :=
  ⟨⟨by decide, trivial⟩, rfl⟩

/-! ### Channels -/

theorem witness_ChannelSetAssignsEntry : State.reset.link.takesRequest = true ∧
    (∀ l, State.reset.consumingLine (State.reset.channel 31).consumer = some l → State.reset.runOpen l = false) ∧
    (Role.flyer ≠ .free ∧ ((∃ h, Consumer.head 15 = .head h) ↔ Role.flyer = .flyer) ∧
      ∀ l, State.reset.consumingLine (some (.head 15)) = some l → State.reset.runOpen l = false) ∧
    (Role.splice ≠ .free ∧ ((∃ h, Consumer.line .d = .head h) ↔ Role.splice = .flyer) ∧
      ∀ l, State.reset.consumingLine (some (.line .d)) = some l → State.reset.runOpen l = false) := by
  refine ⟨by decide, ?_, ⟨by decide, by simp, ?_⟩, ⟨by decide, by simp, ?_⟩⟩ <;> exact forall_line (by decide)
theorem witness_ChannelFreeFreesEntry : running.link.takesRequest = true ∧
    (running.consumingLine (running.channel 4).consumer = some .a ∧ running.runOpen .a = true) ∧
    (running.consumingLine (running.channel 31).consumer = none) ∧ 32 ≤ 32 := by decide
theorem witness_ChannelReadReportsAndClearsTally : running.link.takesRequest = true := by decide
theorem witness_QuadratureCountUpdatesItsChannel : (2 ≤ (change 4).held ∧ (change 4).date + 2 ≤ running.now) ∧
    quadrature (running.channel 4) ∧
    qualifies (running.channel 4) (levelsAfter (running.channel 4) .a).1 ∧
    ¬qualifies (running.channel 4) (levelsAfter (running.channel 4) .b).1 ∧
    ready.servedLine 4 = some .a ∧ ready.runOpen .a = false := by
  simp only [quadrature, qualifies]
  decide
/-- Line A at the four edges: one pitch above the floor and just less, one pitch below the ceiling and just less. -/
theorem witness_AuthorityCountMovesPosition :
    (∀ p ∈ [300000, 299999, 140737488055327, 140737488055328], (2 ≤ (change 4).held ∧ (change 4).date + 2 ≤ (at' p).now) ∧
      (at' p).servedLine 4 = some .a ∧ (at' p).runOpen .a = true ∧
      ((at' p).channel 4).role = ((at' p).line .a).cfg.authority.role ∧ countsUp ((at' p).channel 4) .a = true ∧
      countsUp ((at' p).channel 4) .b = false) ∧
    ((at' 300000).coilStart .a + 300000 ≤ ((at' 300000).pos .a).position ∧
      ((at' 299999).pos .a).position < (at' 299999).coilStart .a + 300000) ∧
    ((at' 140737488055327).pos .a).position + 300000 ≤ 140737488355327 ∧
      140737488355327 < ((at' 140737488055328).pos .a).position + 300000 := by decide +kernel
/-- A running line whose head has no window open. -/
def windowless (p : Nat) : State := (at' p).modHead 4 fun h => { h with window := none }
/-- A count just short of the mark target, and one that reaches it; a head with a window. -/
theorem witness_AuthorityCountMovesPosition_tests :
    (((at' 1000000000).pos .a).markTarget = some 1000000000 ∧ (running.head 4).settings = some (flyer .a 20) ∧
      (running.head 4).window = some ⟨0, 0, 0⟩ ∧ running.boundRecipe .a = some ropeRecipe ∧ (running.head 4).stall = false) ∧
    (after (windowless 999699999) (.quadratureCount (change 4) .a)).markerOut .a = false ∧
    (after (windowless 999700000) (.quadratureCount (change 4) .a)).markerOut .a = true := by decide +kernel

def slipAt (advance other : Int) : State := running.modPos .a fun p => { p with slip := some ⟨0, advance, other⟩ }
theorem witness_OtherCountFeedsSlipWindowOnly :
    (2 ≤ (change 6).held ∧ (change 6).date + 2 ≤ running.now) ∧
    (running.servedLine 6 = some .a ∧ running.runOpen .a = true ∧ (running.channel 6).role = .wheel ∧
      (running.channel 6).role ≠ (running.line .a).cfg.authority.role) ∧ (0 : Int) < 1 ∧
    ((slipAt 9999999999 0).pos .a).slip = some ⟨0, 9999999999, 0⟩ ∧
      (9999999999 : Int) < ((running.line .a).cfg.slipWindow : Int) * 1000000 ∧
    ((running.line .a).cfg.slipWindow : Int) * 1000000 ≤ 10000000000 ∧
      (slipOf 10000000000 9800000000).natAbs ≤ (running.line .a).cfg.slipLimit ∧
      (running.line .a).cfg.slipLimit < (slipOf 10000000000 9790000000).natAbs := by decide +kernel
def stalled : State := running.modHead 4 fun h => { h with stall := true }
theorem witness_FlyerCountFeedsItsHead : ∀ s ∈ [running, stalled], (2 ≤ (change 20).held ∧ (change 20).date + 2 ≤ s.now) ∧
    (s.channel 20).role = .flyer ∧
    (s.channel 20).consumer = some (.head 4) ∧ (s.head 4).settings = some (flyer .a 20) ∧ (flyer .a 20).channel = 20 ∧
    s.runOpen (flyer .a 20).line = true := by decide
theorem witness_FlyerCountFeedsItsHead_stall : (running.head 4).stall = false ∧ (stalled.head 4).stall = true := by decide

def tallied (n : Nat) : State := running.modChannel 4 fun c => { c with tally := n, timerFrom := some 0 }
theorem witness_UncountedChannelEvents : (1 < 2 ∧ ready.now < 1 + 2) ∧
    (2 ≤ (change 4).held ∧ (change 4).date + 2 ≤ (tallied 31).now) ∧
    (quadrature ((tallied 31).channel 4) ∧ (tallied 31).servedLine 4 = some .a ∧ 31 ≤ ((tallied 31).channel 4).tally ∧
      ((tallied 30).channel 4).tally < 31 ∧ qualifies ((tallied 31).channel 4) (!((tallied 31).channel 4).refA)) ∧
    ((tallied 0).channel 4).timerFrom = some 0 ∧ ((tallied 0).now < 0 + 10000000) ∧
    (running.channel 0).role = .free ∧ ((netRunning.channel 7).role = .shaft ∧ false = (netRunning.channel 7).refA ∧
      false = (netRunning.channel 7).invert) ∧ ((running.channel 5).role = .splice ∧ false = (running.channel 5).refA) := by
  simp only [quadrature, qualifies]
  decide

def shaftAt (angle : Nat) (sync : SyncState) : State := netRunning.modKnot .c fun k => { k with angle := angle, sync := sync }
theorem witness_ShaftEdgeTurnsShaft : (2 ≤ (change 7).held ∧ (change 7).date + 2 ≤ netRunning.now) ∧
    (netRunning.channel 7).role = .shaft ∧ netRunning.servedLine 7 = some .c ∧
    netRunning.runOpen .c = true ∧
    ((netRunning.channel 7).refA ≠ true ∧ true ≠ (netRunning.channel 7).invert) ∧
    ((netRunning.channel 7).refB ≠ true ∧ true ≠ (netRunning.channel 7).invert) ∧
    (((shaftAt 70 .synced).knot .c).angle + 1 < 2 * ((shaftAt 70 .synced).line .c).cfg.countsPerRev.getD 0) ∧
    (2 * ((shaftAt 71 .synced).line .c).cfg.countsPerRev.getD 0 ≤ ((shaftAt 71 .synced).knot .c).angle + 1) ∧
    ((shaftAt 72 .lost).knot .c).sync = .lost := by decide
def gateAt (angle : Nat) (gate : Bool) (scan : Option Scan) : State :=
  (shaftAt angle .synced).modScanLink .k1 fun r => { r with gate := gate, scan := scan }
/-- One count into the gate, with and without a scan in progress, one count out of it, and one within it. -/
theorem witness_ShaftEdgeTurnsShaft_gate : gateBounds netFields 36 = (9, 18) ∧
    (netRunning.line .c).cfg.scanLink = some .k1 ∧ netRunning.knotSpec .c = some netFields ∧
    (netRunning.line .c).cfg.countsPerRev = some 36 ∧
    ((after (gateAt 8 false none) (.shaftEdge (change 7) true false)).knot .c).gateTaken = some (9, 18) ∧
    ((after (gateAt 8 false none) (.shaftEdge (change 7) true false)).scanLink .k1) = ⟨true, none, .replicate 8 0, .normal⟩ ∧
    ((after (gateAt 8 false (some ⟨5, []⟩)) (.shaftEdge (change 7) true false)).knot .c).rowIndex = 1 ∧
    ((after (gateAt 17 true none) (.shaftEdge (change 7) true false)).scanLink .k1).scan = some ⟨0, []⟩ ∧
    ((after (gateAt 16 true none) (.shaftEdge (change 7) true false)).scanLink .k1).gate = true := by decide +kernel

/-- RUN END within the gate leaves the gate level high, while the gate output is low (R93, R97, R112). -/
theorem test_gate_level_after_run_end :
    let s := after (after (gateAt 12 true none) (.runEnd 1 2)) .frameSent
    (s.scanLink .k1).gate = false ∧ ((after s (.knotStatus 1 2 1)).link.replies.map fun f => f.payload[7]?) = [some 1] := by
  decide +kernel

def withSplices (p : Nat) (capture : Option Nat) (xs : List Nat) : State :=
  ((at' p).modChannel 5 fun c => { c with capture := capture }).modSpanRec .a fun r => { r with splices := xs }
/-- Captures at just under and at the spacing of 100 mm; a splice held at just under and at it; 15 and 16 splices held. -/
theorem witness_SpliceEdgeCapturesSplice :
    (2 ≤ (change 5).held ∧ (change 5).date + 2 ≤ running.now) ∧
    ((running.channel 5).role = .splice ∧ true ≠ (running.channel 5).refA ∧ true ≠ (running.channel 5).invert) ∧
    (ready.servedLine 5 = some .a ∧ ready.runOpen .a = false) ∧ (running.servedLine 5 = some .a ∧ running.runOpen .a = true) ∧
    (∃ y, ((withSplices 1000000000 (some 900000001) []).channel 5).capture = some y ∧ y < 1000000000 + 100000000 ∧
      1000000000 < y + 100000000) ∧
    (∃ y, ((withSplices 1000000000 (some 900000000) []).channel 5).capture = some y ∧ y + 100000000 ≤ 1000000000) ∧
    (∃ y ∈ ((withSplices 1000000000 none [9900000001]).spanRec .a).splices,
      10000000000 < y + 100000000 ∧ y < 10000000000 + 100000000) ∧
    (∀ y ∈ ((withSplices 1000000000 none (List.replicate 15 9900000000)).spanRec .a).splices,
      10000000000 ≠ y ∧ y + 100000000 ≤ 10000000000) ∧
    (List.replicate 15 9900000000).length < 16 ∧ 16 ≤ (List.replicate 16 9900000000).length := by
  refine ⟨by decide, by decide, by decide, by decide, ⟨_, rfl, by decide⟩, ⟨_, rfl, by decide⟩, ⟨9900000001, ?_, by decide⟩, ?_,
    by decide, by decide⟩
  · decide
  · decide +kernel

/-! ### Heads and reads -/

theorem witness_HeadSetStoresSettings : ready.link.takesRequest = true ∧ (1 ≤ 1 ∧ 1024 ≤ 1024 ∧ 200000 ≤ 200000) ∧
    (ready.line .a).state = .idle ∧ (∀ v, (ready.head 4).settings = some v → (ready.line v.line).state = .idle) ∧
    (∀ x v, x ≠ 4 → (ready.head x).settings = some v → v.line = .a → v.position ≠ 4) ∧
    (∀ x v, x ≠ 15 → (ready.head x).settings = some v → v.line = .a → v.position ≠ 12) ∧
    (∃ v, (ready.head 4).settings = some v ∧ v.line = .a ∧ v.position = 4) ∧ (ready.head 15).settings = none := by
  have H : ∀ h, h ≠ (4 : HeadId) → (ready.head h).settings = none := by decide
  have H4 : (ready.head 4).settings = some (flyer .a 20) := by decide
  refine ⟨by decide, by decide, by decide, ?_, ?_, ?_, ⟨_, H4, rfl, rfl⟩, by decide⟩
  · intro v h; cases H4.symm.trans h; decide
  · intro x v hx h; rw [H x hx] at h; cases h
  · intro x v _ h
    by_cases hx : x = 4
    · subst hx; cases H4.symm.trans h; decide
    · rw [H x hx] at h; cases h
theorem witness_HeadFreeUnassignsHead : ready.link.takesRequest = true ∧
    (∀ v ∈ (ready.head 4).settings, (ready.line v.line).state = .idle) ∧ (ready.head 4).settings = some (flyer .a 20) ∧
    (ready.head 15).settings = none := by decide
theorem witness_ReadsChangeNothing : netRunning.link.takesRequest = true ∧ (1 ≤ 1 ∧ 48 ≤ 48 ∧ 64 ≤ 64) ∧
    (netRunning.line .c).kind = .net ∧ (netRunning.line .c).cfg.scanLink = some .k1 ∧
    netRunning.recipe 2 = some ropeRecipe ∧ netRunning.knotSpec .c = some netFields ∧ State.reset.knotSpec .c = none ∧
    (netRunning.line .c).cfg.countsPerRev = some 36 ∧ (netRunning.knot .c).gateTaken = none ∧
    ((netRunning.takeGate .c).knot .c).gateTaken = some (9, 18) ∧
    (running.head 15).settings = none ∧ (running.head 4).settings = some (flyer .a 20) ∧ (running.head 4).stall = false ∧
    (running.head 4).handFault = false ∧ running.boundRecipe .a = some ropeRecipe ∧
    (running.coilRec .a).coil = some ⟨2, 0, 0, 0⟩ := by decide
/-- The last six bytes of LINE STATUS: cut held, REVERSE_CLAMP before it is cleared, WARM_START, and the guard's three (R14). -/
theorem test_line_status_flags : (sent (after (running.modLine .a fun r => { r with reverseClamp := true }) (.lineStatus 1 0))).map
    (fun x => x.2.drop (x.2.length - 6)) = some [0, 1, 0, 0, 0, 0] := by decide +kernel
theorem witness_SnapshotAndLineStatusReportLines : running.link.takesRequest = true := by decide
def packed : State := { State.reset with completed := [coil, coil] }
theorem witness_CoilPeekAndTakeServeOldestRecord : packed.link.takesRequest = true ∧
    packed.completed = coil :: [coil] ∧ coil.number ≠ 0 ∧
    ({ packed with pack := { packed.pack with state := .suspended } } : State).pack.state ≠ .free := by decide

/-! ### Lines, recipes and runs -/

theorem lineArgs_meets : LineSetNumbers lineArgs ∧ LineSetRanges lineArgs ∧ LineSetPairing State.reset .a lineArgs := by
  refine ⟨⟨?_, by simp [lineArgs]⟩, ?_, by simp [lineArgs], by simp [lineArgs]⟩
  · intro n h
    simp [lineArgs] at h
    omega
  · simp [LineSetRanges, lineArgs]
theorem netArgs_meets : LineSetNumbers netArgs ∧ LineSetRanges netArgs ∧ LineSetPairing State.reset .c netArgs := by
  refine ⟨⟨?_, by simp [netArgs, lineArgs]⟩, ?_, ?_, by simp [netArgs, lineArgs]⟩
  · intro n h
    simp [netArgs, lineArgs] at h
    omega
  · simp [LineSetRanges, netArgs, lineArgs, Within]
  · intro _ y _
    revert y
    exact forall_line (by decide)
/-- Line B with line A as leader, at the pair tolerance's bound. -/
theorem leaderArgs_meets : LineSetNumbers { lineArgs with line := 1, leader := some 0, pairTolerance := 10000 } ∧
    LineSetRanges { lineArgs with line := 1, leader := some 0, pairTolerance := 10000 } ∧
    LineSetPairing State.reset .b { lineArgs with line := 1, leader := some 0, pairTolerance := 10000 } := by
  refine ⟨⟨?_, by simp⟩, ?_, by simp [lineArgs], ?_⟩
  · intro n h
    simp [lineArgs] at h
    omega
  · simp [LineSetRanges, lineArgs]
  · intro x hx
    obtain rfl : x = .a := by simpa [LineId.ofCode, eq_comm] using hx
    exact ⟨rfl, by decide, by decide, by decide, forall_line (by decide), forall_line (by decide)⟩
theorem witness_LineSetStoresConfiguration : State.reset.link.takesRequest = true ∧
    (lineArgs.line = LineId.code .a ∧ (State.reset.line .a).state = .idle ∧ LineSetNumbers lineArgs ∧
      LineSetRanges lineArgs ∧ LineSetPairing State.reset .a lineArgs) ∧
    (netArgs.line = LineId.code .c ∧ (State.reset.line .c).state = .idle ∧ LineSetNumbers netArgs ∧
      LineSetRanges netArgs ∧ LineSetPairing State.reset .c netArgs) :=
  ⟨by decide, ⟨rfl, by decide, lineArgs_meets⟩, rfl, by decide, netArgs_meets⟩

/-- Slot 4 holds a recipe whose end zone and plus tolerance fill the splice offset of line A. -/
def secondRecipe : State := running.setRecipe 3 (some { ropeRecipe with plusTolerance := 6000 })
theorem witness_LineBindBindsOrPends : (ready.recipe 2 = some ropeRecipe ∧ ropeRecipe.kind = (ready.line .a).kind ∧
      (ready.line .a).state = .idle) ∧ ((running.line .a).state ≠ .idle ∧ (running.line .a).bound = some 2) ∧
    (∃ r, secondRecipe.recipe 3 = some r ∧ r.kind = (secondRecipe.line .a).kind ∧ (secondRecipe.line .a).bound ≠ some 3 ∧
      (∀ h u, (secondRecipe.head h).settings = some u → u.line = .a → (r.specFor u).isSome = true) ∧
      r.endZone + r.plusTolerance ≤ (secondRecipe.line .a).cfg.spliceOffset.getD 0) := by
  refine ⟨by decide, by decide, _, rfl, by decide, by decide, forall_head (by decide), by decide⟩

theorem ready_runReady : RunReady ready .a 2 ropeRecipe where
  idle := by decide
  latchClear := by decide
  slot := .inr (by decide)
  full := by decide
  kind := by decide
  noLeader := by intro x h; exact absurd h (by revert x; exact forall_line (by decide))
  haul := ⟨4, by decide⟩
  wheel := by intro c h; cases (show some (6 : ChannelId) = some c from h); decide
  splice := by intro c h; cases (show some (5 : ChannelId) = some c from h); decide
  shaft := by intro c h; cases (show (none : Option ChannelId) = some c from h)
  heads := fun _ => ⟨4, flyer .a 20, by decide⟩
  targets := forall_head (by decide)
  columns := by intro h; exact absurd h (by decide)
  reach := .inr (by decide)
theorem witness_RunStartOpensRun : ready.link.takesRequest = true ∧ RunReady ready .a 2 ropeRecipe :=
  ⟨by decide, ready_runReady⟩

/-- Line A bound to slot 4 with slot 3 pending, its head's copy of slot 4 DIRTY, and line B its follower with a held cut. -/
def reloading : State :=
  (((((ready.setRecipe 3 (some ropeRecipe)).setCopy 4 ⟨some 3, .dirty, 170⟩).modLine
    .a fun r => { r with bound := some 3, pendingRecipe := some 2 }).modLine
    .b fun r => { r with cfg := { r.cfg with leader := some .a } }).modCoil
    .b fun k => { k with stage := .held ⟨5, false, false⟩ })
theorem reloading_runReady : RunReady reloading .a 2 ropeRecipe where
  idle := by decide
  latchClear := by decide
  slot := .inl (by decide)
  full := by decide
  kind := by decide
  noLeader := by intro x h; exact absurd h (by revert x; exact forall_line (by decide))
  haul := ⟨4, by decide⟩
  wheel := by intro c h; cases (show some (6 : ChannelId) = some c from h); decide
  splice := by intro c h; cases (show some (5 : ChannelId) = some c from h); decide
  shaft := by intro c h; cases (show (none : Option ChannelId) = some c from h)
  heads := fun _ => ⟨4, flyer .a 20, by decide⟩
  targets := forall_head (by decide)
  columns := by intro h; exact absurd h (by decide)
  reach := .inr (by decide)
theorem reloading_learned : ∀ h, LearnedLaw reloading h := by
  intro h
  by_cases hd : h = 4
  · subst hd; exact fun _ => ⟨3, ropeRecipe, by decide, by decide, by decide⟩
  · exact fun hv => absurd ((by decide : ∀ h, h ≠ (4 : HeadId) → (reloading.copy h).state = .invalid) h hd) hv
theorem witness_RunStartOpensRun_reloaded : (∀ h, LearnedLaw reloading h) ∧ reloading.link.takesRequest = true ∧ RunReady reloading .a 2 ropeRecipe ∧
    Evicts reloading (fun h m => AssignedTo reloading h .a ∧ m = 2) 4 3 ∧ reloading.follower .a = some .b ∧
    (reloading.coilRec .b).stage = .held ⟨5, false, false⟩ ∧ (reloading.line .a).pendingRecipe = some 2 ∧
    reloading.servedLine 5 = some .a :=
  ⟨reloading_learned, by decide, reloading_runReady, ⟨by decide, by decide, 2, ⟨⟨flyer .a 20, by decide, rfl⟩, rfl⟩, by decide⟩, by decide,
    by decide, by decide, by decide⟩

theorem running_cutReady : CutReady running .a ⟨2, 0, 0, 0⟩ ropeRecipe where
  runs := by decide
  noLeader := by intro x h; exact absurd h (by revert x; exact forall_line (by decide))
  latchClear := by decide
  room := by decide
  cutterIdle := by decide
  coil := by decide
  recipe := by decide
theorem witness_CutClosesCoilOfLineAlone : running.link.takesRequest = true ∧ CutReady running .a ⟨2, 0, 0, 0⟩ ropeRecipe ∧
    running.follower .a = none := ⟨by decide, running_cutReady, by decide⟩
/-- Line A running with slot 4 pending and its head's copy of slot 3 DIRTY. -/
def cutPending : State :=
  ((running.setRecipe 3 (some ropeRecipe)).modLine .a fun r => { r with pendingRecipe := some 3 }).setCopy
    4 ⟨some 2, .dirty, 170⟩
theorem cutPending_cutReady : CutReady cutPending .a ⟨2, 0, 0, 0⟩ ropeRecipe where
  runs := by decide
  noLeader := by intro x h; exact absurd h (by revert x; exact forall_line (by decide))
  latchClear := by decide
  room := by decide
  cutterIdle := by decide
  coil := by decide
  recipe := by decide
/-- A NET line with an open span of column 64, under a pending recipe that uses 63 columns. -/
def columnPending : State :=
  (((netRunning.setRecipe 9 (some { netRecipe with knot := some { netFields with columnsUsed := 63 } })).modLine
    .c fun r => { r with pendingRecipe := some 9 }).modKnot
    .c fun k => { k with columns := k.columns.set 63 ⟨1, some (.knot, 5)⟩, lastRowCoord := some 7 }).modSpanRec
    .c fun r => { r with spans := [⟨.knot, .column 64, 5, none, true, 1, false, 0⟩] }
theorem witness_CutClosesCoilOfLineAlone_pending : cutPending.link.takesRequest = true ∧
    CutReady cutPending .a ⟨2, 0, 0, 0⟩ ropeRecipe ∧ cutPending.follower .a = none ∧
    PendingLoads cutPending [.a] 4 3 ∧ Evicts cutPending (PendingLoads cutPending [.a]) 4 2 ∧
    ((columnPending.line .c).kind = .net ∧ (columnPending.line .c).pendingRecipe = some 9 ∧
      ((columnPending.knot .c).column 63).span = some (.knot, 5) ∧ (columnPending.knot .c).lastRowCoord = some 7 ∧
      columnPending.runOpen .c = true ∧
      ((after columnPending (.cutNow 1 2)).knot .c).column 63 = ⟨0, none⟩) := by
  have h : PendingLoads cutPending [.a] 4 3 := ⟨flyer .a 20, by decide, by decide, by decide⟩
  exact ⟨by decide, cutPending_cutReady, by decide, h, ⟨by decide, by decide, 3, h, by decide⟩, by decide +kernel⟩
theorem netRunning_cutReady : CutReady netRunning .c ⟨8, 0, 0, 0⟩ netRecipe where
  runs := by decide
  noLeader := by intro x h; exact absurd h (by revert x; exact forall_line (by decide))
  latchClear := by decide
  room := by decide
  cutterIdle := by decide
  coil := by decide
  recipe := by decide
/-- RUN END of a NET line: its scan link, and a column whose count is kept and whose span is made absent (R93, R104). -/
theorem witness_CutClosesCoilOfLineAlone_net : netRunning.link.takesRequest = true ∧
    CutReady netRunning .c ⟨8, 0, 0, 0⟩ netRecipe ∧ netRunning.follower .c = none ∧ (netRunning.line .c).kind = .net ∧
    (netRunning.line .c).cfg.scanLink = some .k1 ∧
    ((after columnPending (.runEnd 1 2)).knot .c).column 63 = ⟨1, none⟩ :=
  ⟨by decide, netRunning_cutReady, by decide, by decide, by decide, by decide +kernel⟩
/-- A cut of a NET line does not touch a scan in progress, the parity counts or the chain state (R100). -/
def scanPending : State := columnPending.modScanLink .k1 fun r => { r with
  scan := some ⟨0, [⟨true, 0xFF⟩]⟩, chain := .long, parity := r.parity.set 0 2 }
theorem test_cut_keeps_scan : ((scanPending.coilRec .c).coil.isSome && (scanPending.scanLink .k1).scan.isSome) = true ∧
    ((after scanPending (.cutNow 1 2)).lane .c).queue.length = 1 ∧
    (after scanPending (.cutNow 1 2)).linkK1 = scanPending.linkK1 := by decide +kernel
theorem paired_cutReady : CutReady paired .a ⟨2, 0, 0, 0⟩ ropeRecipe where
  runs := by decide
  noLeader := by intro x h; exact absurd h (by revert x; exact forall_line (by decide))
  latchClear := by decide
  room := by decide
  cutterIdle := by decide
  coil := by decide
  recipe := by decide
theorem witness_PairedCutClosesBothCoils : paired.link.takesRequest = true ∧ CutReady paired .a ⟨2, 0, 0, 0⟩ ropeRecipe ∧
    paired.follower .a = some .b ∧ (paired.line .b).state ≠ .idle ∧ (paired.lane .b).queue.length < 3 ∧
    (paired.coilRec .b).cutterPulse = none ∧ (paired.coilRec .b).coil = some ⟨2, 0, 0, 0⟩ ∧
    paired.recipe 2 = some ropeRecipe :=
  ⟨by decide, paired_cutReady, by decide, by decide, by decide, by decide, by decide, by decide⟩

/-- No splice nearer than E; one just nearer, with a way out at the limit; and one just nearer, with none. -/
theorem witness_PlacementKeepsClearOfSplices : ([70].Pairwise (· ≤ ·)) ∧
    ¬(∃ x ∈ [70], x < 100 + 30 ∧ 100 < x + 30) ∧ (∃ x ∈ [71], x < 100 + 30 ∧ 100 < x + 30) ∧
    (∃ q, (∃ x ∈ [71], q = x + 30) ∧ 100 ≤ q ∧ q ≤ 100 + 1 ∧ ¬∃ x ∈ [71], x < q + 30 ∧ q < x + 30) ∧
    ¬(∃ q, (∃ x ∈ [71], q = x + 30) ∧ 100 ≤ q ∧ q ≤ 100 + 0 ∧ ¬∃ x ∈ [71], x < q + 30 ∧ q < x + 30) := by
  refine ⟨by simp, by simp, by simp, ⟨101, by simp⟩, by simp⟩
def staged (p : Nat) (g : CutStage) : State := (at' p).modCoil .a fun k => { k with stage := g }
def followedAt (p : Nat) : State := paired.modPos .a fun r => { r with position := p }
/-- The nominal point just ahead and reached, alone and with a running follower, and with a full lane; a line led by a run. -/
theorem witness_PlacementKeepsClearOfSplices_cut :
    (∀ q ∈ [219999999999, 220000000000], ((at' q).coilRec .a).coil = some ⟨2, 0, 0, 0⟩ ∧ (at' q).recipe 2 = some ropeRecipe ∧
      ((at' q).line .a).state ≠ .idle ∧ ((at' q).coilRec .a).stage = .none ∧ ((at' q).line .a).cfg.leader = none) ∧
    ((at' 219999999999).pos .a).position < 0 + 220000 * 1000000 ∧ 0 + 220000 * 1000000 ≤ ((at' 220000000000).pos .a).position ∧
    ((staged 5 (.placed ⟨5, true, false⟩)).coilRec .a).stage = .placed ⟨5, true, false⟩ ∧
    ((paired.line .b).cfg.leader = some .a ∧ (paired.line .a).state ≠ .idle) ∧
    ((((at' 220000000000).testCut .a).lane .a).queue.map (·.length) = [220000]) ∧
    ((((followedAt 220000000000).testCut .a).lane .b).queue.map (·.flags.paired) = [true]) ∧
    ((((at' 220000000000).modLane .a fun r => { r with queue := [coil, coil, coil] }).testCut .a).coilRec .a).stage =
      .held ⟨220000000000, false, false⟩ := by decide +kernel

theorem witness_CountTestsActAtTheirTargets :
    (((at' 999999999).pos .a).markTarget = some 1000000000 ∧ ((at' 999999999).pos .a).position < 1000000000 ∧
      1000000000 ≤ ((at' 1000000000).pos .a).position ∧ ((at' 0).coilRec .a).coil = some ⟨2, 0, 0, 0⟩ ∧
      (at' 0).recipe 2 = some ropeRecipe ∧ (at' 0).guard.latch = false ∧
      ({ at' 1000000000 with guard := ⟨true, true, true⟩ } : State).guard.latch = true) ∧
    ((running.head 4).window = some ⟨0, 0, 0⟩ ∧ (running.head 4).settings = some (flyer .a 20) ∧
      running.boundRecipe .a = some ropeRecipe ∧ (running.head 4).stall = false ∧
      ((at' 499999999).pos .a).position - 0 < 500 * 1000000 ∧ 500 * 1000000 ≤ ((at' 500000000).pos .a).position - 0) ∧
    (3 ≤ ((running.modLane .a fun r => { r with queue := [coil, coil, coil] }).lane .a).queue.length ∧
      paired.follower .a = some .b ∧ LineId.b ≠ .a ∧ (paired.line .b).state ≠ .idle ∧
      ((at' 219999999999).pos .a).position < 220000000000 ∧ 220000000000 ≤ ((at' 220000000000).pos .a).position) := by
  decide +kernel

/-! ### Stops, resets and the guard -/

def stopped : State := after (after running (.lineStop 1 0)) .frameSent
theorem witness_LineStopAddsHost : running.link.takesRequest = true ∧ (running.line .a).state = .running ∧
    (ready.line .a).state = .idle ∧ (stopped.line .a).state = .stopRequested := by decide
/-- One STOP_REQUESTED line that has no cause left, and one whose RUN_LIMIT is still present. -/
theorem witness_LineResumeLeavesPresentCauses : running.link.takesRequest = true ∧ running.guard.latch = false ∧
    (running.line .a).state = .running ∧ (stopped.line .a).state = .stopRequested ∧
    (stopped.causesLeft .a (stopped.line .a).causes) = .empty ∧
    ((stopped.modPos .a fun p => { p with position := ceiling }).causePresent .a .runLimit) = true := by decide +kernel
/-- Line A with its cut held above, at or below its target, running line B its follower with the paired hold set. -/
def heldPair (target : Nat) : State :=
  ((((paired.modCoil .a fun k => { k with stage := .held ⟨target, false, true⟩ }).modCoil .b fun k =>
    { k with pairedHold := true }).modLine .a fun r => { r with
      state := .stopRequested, causes := CauseSet.empty.add .cutHeld }).modLine .b fun r => { r with
      state := .stopRequested, causes := CauseSet.empty.add .cutHeld })
theorem witness_LineResetDiscardsRun : running.link.takesRequest = true ∧ (running.head 4).settings = some (flyer .a 20) ∧
    (netRunning.line .c).kind = .net ∧ (netRunning.line .c).cfg.scanLink = some .k1 ∧
    ((heldPair 5).coilRec .a).stage = .held ⟨5, false, true⟩ ∧ (heldPair 5).follower .a = some .b ∧
    ((heldPair 5).coilRec .b).pairedHold = true ∧ ((heldPair 5).line .b).cfg.leader = some .a := by decide
/-- A held cut tested again: performed at its target, PLACED again just below it, and left with a reason. -/
theorem witness_Retested :
    ((((heldPair 220000000000).retest .a).coilRec .a).stage = .none ∧
      ((((heldPair 220000000000).retest .a).lane .a).queue.map (·.flags.endSplice)) = [true] ∧
      (((heldPair 220000000000).retest .a).line .b).state = .running) ∧
    (((heldPair 220000000001).retest .a).coilRec .a).stage = .placed ⟨220000000001, false, true⟩ ∧
    (((heldPair 220000000001).retest .a).line .a).state = .running ∧
    (({ heldPair 5 with guard := ⟨true, true, true⟩ } : State).retest .a).pack = (heldPair 5).pack := by decide +kernel
def armed : State := { running with guard := ⟨false, true, false⟩ }
theorem witness_GuardEventReleasesOutputs : 2 ≤ 2 ∧ armed.guard = ⟨false, true, false⟩ ∧ running.guard ≠ ⟨false, true, false⟩ ∧
    armed.link.takesRequest = true ∧ ({ running with guard := ⟨true, false, false⟩ } : State).guard.inputActive = true ∧
    ({ running with guard := ⟨true, false, false⟩ } : State).guard.latch = false ∧ armed.pack.state = .free ∧
    (after armed .guardEvent).pack.state = .guarded := by decide
theorem witness_GuardClearSuspendsHead : latched.link.takesRequest = true ∧ State.reset.guard.latch = false ∧
    (latched.guard.latch = true ∧ latched.guard.inputActive = false) ∧
    ({ latched with guard := ⟨true, true, true⟩ } : State).guard.inputActive = true ∧
    (∀ l ∈ LineId.all, latched.holdsCut l = false) ∧
    (({ heldPair 5 with guard := ⟨false, true, true⟩ } : State).coilRec .a).stage = .held ⟨5, false, true⟩ ∧
    ({ latched with pack := { latched.pack with state := .guarded } } : State).pack.state = .guarded := by decide
/-- A GUARDED head under the latch, with a held cut and the input inactive, and without one: the premises of the held cuts'
clause. -/
def guardedPair : State := { heldPair 220000000000 with
  guard := ⟨false, true, true⟩, pack := { (heldPair 220000000000).pack with state := .guarded } }
theorem witness_GuardClearSuspendsHead_guarded : HeadGuarded guardedPair ∧ guardedPair.link.takesRequest = true ∧
    guardedPair.guard.latch = true ∧ guardedPair.guard.inputActive = false ∧ guardedPair.pack.state = .guarded ∧
    (guardedPair.coilRec .a).stage = .held ⟨220000000000, false, true⟩ ∧
    (after guardedPair (.guardClear 1)).pack.state = .suspended ∧
    ((after guardedPair (.guardClear 1)).coilRec .a).stage = .none := by
  refine ⟨fun _ => .inl (by decide), ?_⟩
  decide +kernel
def latchedRun : State := { running with guard := ⟨false, true, true⟩, pack := { running.pack with state := .guarded } }
theorem witness_GuardLatchRefusesRequests : latchedRun.link.takesRequest = true ∧ latchedRun.guard.latch = true ∧
    (latchedRun.line .b).state = .idle ∧ (latchedRun.line .a).state ≠ .idle ∧
    (latchedRun.line .a).cfg.leader = none ∧ latchedRun.pack.state = .guarded := by decide
def pulsing : State := (running.modPos .a fun p => { p with markerPulse := some 100000 }).modCoil
  .a fun k => { k with cutterPulse := some 200000 }
theorem witness_PulseEndReleasesOutput : (pulsing.pos .a).markerPulse = some 100000 ∧
    (pulsing.coilRec .a).cutterPulse = some 200000 ∧ pulsing.now < 100000 ∧
    ¬({ pulsing with now := 200000 } : State).now < 200000 ∧ (pulsing.coilRec .a).stage = .none ∧
    (pulsing.line .a).cfg.leader = none ∧
    (((heldPair 5).modCoil .a fun k => { k with cutterPulse := some 200000 }).coilRec .a).cutterPulse = some 200000 := by decide

/-! ### Recipes -/

theorem recipeArgs_positions : ∀ p : StrandPos, recipeArgs.positions.get p = ⟨some 65535, some 1, some (-2000)⟩ := by decide
theorem recipeArgs_inRange (p : StrandPos) : PositionInRange 2000 (recipeArgs.positions.get p) := by
  rw [recipeArgs_positions p]
  exact fun _ => ⟨⟨65535, rfl, by decide⟩, ⟨1, rfl, by decide⟩, -2000, rfl, by decide⟩
theorem recipeArgs_meets : RecipeInRange recipeArgs :=
  ⟨by decide, by decide, recipeArgs_inRange, by
    and_intros <;> first
      | decide
      | exact fun _ => ⟨0, Option.some_ne_none _⟩
      | exact fun h => absurd h (by decide)⟩
theorem netRecipeArgs_meets : RecipeInRange netRecipeArgs :=
  ⟨by decide, by decide, recipeArgs_inRange, by simp [netRecipeArgs, recipeArgs, Within]⟩
theorem witness_RecipeStoreReplacesSlot : State.reset.link.takesRequest = true ∧ RecipeInRange recipeArgs ∧
    RecipeInRange netRecipeArgs ∧ SlotFree State.reset 23 :=
  ⟨by decide, recipeArgs_meets, netRecipeArgs_meets, forall_line (by decide)⟩
def dirty : State := ready.setCopy 4 ⟨some 2, .dirty, 170⟩
theorem witness_FlushAndPurgeWriteDirtyCopiesBack : dirty.link.takesRequest = true ∧ dirty.recipe 2 = some ropeRecipe ∧
    DirtyHolder dirty 2 4 ∧ (dirty.head 4).settings = some (flyer .a 20) ∧
    (ropeRecipe.specFor (flyer .a 20)).isSome = true ∧ (∀ g, (4 : HeadId) < g → ¬DirtyHolder dirty 2 g) ∧
    SlotFree dirty 2 := by
  refine ⟨by decide, by decide, ⟨by decide, by decide⟩, by decide, by decide, ?_, forall_line (by decide)⟩
  simp only [DirtyHolder]
  decide

/-! ### The packing station -/

def faulted : State := after banding .bandTimeout
theorem witness_PackingSettingsAreStored : State.reset.link.takesRequest = true ∧
    (State.reset.lane .a).enable = .disabled ∧ (∀ l ∈ LineId.all, (State.reset.lane l).enable ≠ .enabled) ∧
    State.reset.pack.state = .free ∧ (1 ≤ 1 ∧ 1 ≤ 60 ∧ 60 ≤ 60 ∧ 30 ≤ 30) := by decide
theorem witness_LaneEventsEnableAndRearm : 2 ≤ 2 ∧ waiting.link.takesRequest = true ∧ (waiting.lane .a).enable = .enabled ∧
    (waiting.lane .b).enable ≠ .enabled ∧ travelling.pack.attached = some .a ∧ waiting.pack.attached = none ∧
    waiting.pack.abeyance = none := by decide
/-- The six rows of R144 in their order, BLOCKED_LIST at 16 completed records. -/
theorem test_lane_states : [State.reset, faulted, travelling, waiting, { waiting with completed := List.replicate 15 coil },
    { waiting with completed := List.replicate 16 coil }, waiting.modLane .a fun q => { q with rearmed := false }].map
    (fun s => (s.laneState .a).code) = [0, 1, 2, 3, 3, 4, 5] := by decide +kernel
theorem waiting_requests : Requests waiting .a where
  enabled := by decide
  record := by decide
  ready := by decide
  rearmed := by decide
  slot := by decide
  notAttached := by decide
  notInAbeyance := by intro k; show (none : Option (LineId × PackStep)) ≠ _; simp
theorem witness_GrantServesFirstRequestingLane : Requests waiting .a ∧ waiting.pack.state = .free ∧
    waiting.pack.holdReq = false ∧ LineId.a ∈ waiting.pack.rotation ∧ travelling.pack.state ≠ .free ∧
    (¬Requests State.reset .a) ∧
    ({ waiting with pack := { waiting.pack with position := some .a } } : State).pack.position = some .a ∧
    waiting.pack.position ≠ some .a :=
  ⟨waiting_requests, by decide, by decide, by decide, by decide, fun h => absurd h.enabled (by decide), rfl, by decide⟩
def frontCoil : CoilRecord := { coil with attempts := 1 }
def lastBand : State := banding.modPack fun p => { p with step := some (.band 2) }
theorem witness_ServiceRunsBandsAndPacksRecord : 2 ≤ 2 ∧ waiting.pack.state ∉ [PackState.travel, .banding, .labelling] ∧
    travelling.pack.attached = some .a ∧ travelling.pack.state = .travel ∧
    travelling.pack.arrivalStep = some (.band 1) ∧ travelling.pack.suspendPending = false ∧
    ((travelling.modPack fun p => { p with arrivalStep := some .label }).pack.arrivalStep = some .label) ∧
    (banding.pack.attached = some .a ∧ banding.pack.state = .banding ∧ banding.pack.step = some (.band 1) ∧
      (banding.lane .a).queue = frontCoil :: [] ∧ 1 < frontCoil.bandCount) ∧
    (lastBand.pack.step = some (.band 2) ∧ ¬2 < frontCoil.bandCount ∧ (lastBand.lane .a).labelRequired = false) ∧
    (labelling.pack.attached = some .a ∧ labelling.pack.state = .labelling ∧ (labelling.lane .a).queue = frontCoil :: [] ∧
      (labelling.coilRec .a).stage = .none ∧ (labelling.line .a).cfg.leader = none) := by decide
/-- Suspend pending at the arrival before the label, and at the end of a band (R155). -/
def labelAhead : State := travelling.modPack fun p => { p with arrivalStep := some .label, suspendPending := true }
theorem witness_ServiceRunsBandsAndPacksRecord_suspended : labelAhead.pack.attached = some .a ∧
    labelAhead.pack.state = .travel ∧ labelAhead.pack.arrivalStep = some .label ∧ labelAhead.pack.suspendPending = true ∧
    (after (busy labelAhead statusReply) .headAtLane).link.notices.map (·.body) = [.suspended .host (some .a) (some .label)] := by
  decide +kernel
/-- COIL_PACKED of coil 1, packed at its first attempt (R160). -/
theorem test_packed_notice : (after (busy labelling statusReply) .labelDone).link.notices.map (·.body) =
    [.coilPacked 1 1 0 0 0 1] := by decide +kernel
theorem witness_FaultsStopHeadUntilHeadClear : 2 ≤ 2 ∧ banding.pack.attached = some .a ∧
    (travelling.pack.state = .travel ∧ travelling.pack.stepTimer = some 20000000) ∧
    (banding.pack.state = .banding ∧ banding.pack.stepTimer = some 10000000) ∧
    (labelling.pack.state = .labelling ∧ labelling.pack.stepTimer = some 10000000) ∧
    (banding.pack.step = some (.band 1) ∧ (banding.lane .a).queue = frontCoil :: [] ∧
      (banding.modPack fun p => { p with restarts := 2 }).pack.restarts < 3 ∧
      3 ≤ (banding.modPack fun p => { p with restarts := 3 }).pack.restarts) ∧
    ((after faulted .frameSent).link.takesRequest = true ∧ (after faulted .frameSent).pack.state = .fault) := by decide
def suspended : State := banding.modPack fun p => { p with state := .suspended, stepTimer := none }
theorem witness_SuspendResumeAndHoldMoveHead : 2 ≤ 2 ∧ State.reset.link.takesRequest = true ∧ State.reset.pack.state = .free ∧
    State.reset.pack.holdReq = false ∧ banding.pack.state ∈ [PackState.travel, .banding, .labelling, .held, .fault] ∧
    (suspended.pack.state = .suspended ∧ suspended.pack.attached = some .a ∧ suspended.pack.position = some .a ∧
      suspended.pack.step = some (.band 1)) ∧
    ((suspended.modPack fun p => { p with step := some .label }).pack.step = some .label) ∧
    ((suspended.modPack fun p => { p with position := none }).pack.position = none) ∧
    ((suspended.modPack fun p => { p with attached := none, step := none }).pack.attached = none) ∧
    ((after State.reset .holdReqActive).pack.holdReq = true ∧ (after State.reset .holdReqActive).pack.state = .held) := by
  decide
/-- PACK SUSPEND of a banding head is answered with the state it has set pending (R164), that of a FREE head with none. -/
theorem test_suspend_answered : [banding, State.reset].map (fun s =>
    (after (busy s statusReply) (.packSuspend 1)).link.replies.map (·.payload)) = [[[1]], [[0]]] := by decide

/-! ### Knots, twist windows and spans -/

def scanning (read parity : Nat) : State := netRunning.modScanLink .k1 fun r => { r with
  gate := true
  scan := some ⟨0, List.replicate read ⟨true, 0xFF⟩⟩
  parity := r.parity.set 7 parity }
/-- Boards 1, 7 and 8 of 8 read next, a third parity error, END set and clear. -/
theorem witness_BoardFrameReadsNextBoard :
    (∀ read ∈ [0, 6, 7], ((scanning read 2).scanLink .k1).scan = some ⟨0, List.replicate read ⟨true, 0xFF⟩⟩ ∧
      (scanning read 2).linkOwner .k1 = some .c ∧ (scanning read 2).runOpen .c = true ∧
      (scanning read 2).knotSpec .c = some netFields ∧ (List.replicate read (⟨true, 0xFF⟩ : BoardRead)).length < 8) ∧
    (State.reset.scanLink .k1).scan = none ∧
    3 ≤ min 255 (((((scanning 7 2).scanLink .k1).parity[7]?).getD 0) + 1) ∧
    (0#10).getLsbD 9 = false ∧ (512#10).getLsbD 9 = true ∧ 6 + 1 < 8 ∧ 8 ≤ 7 + 1 ∧
    min 255 (((((scanning 7 2).scanLink .k1).parity[7]?).getD 0) + 1) = 3 ∧ (netRunning.scanLink .k1).chain ≠ .short ∧
    (netRunning.scanLink .k1).chain ≠ .long ∧ (netRunning.scanLink .k1).chain = .normal := by decide

def missed (n : Nat) (span : Option (ColumnSpanKind × Nat)) : State :=
  netRunning.modKnot .c fun k => { k with columns := k.columns.set 63 ⟨n, span⟩ }
theorem witness_ColumnJudgmentCountsMisses : (∀ n ∈ [0, 1, 2, 14, 15], (missed n none).runOpen .c = true) ∧ 63 < 64 ∧
    ((missed 1 none).knot .c).column 63 = ⟨1, none⟩ ∧ 1 + 1 < netFields.breakThreshold ∧
    netFields.breakThreshold ≤ 2 + 1 ∧ netFields.stopOnBreak = true ∧
    (∀ span ∈ [none, some (.knot, 5), some (.break, 5)], ((missed 2 span).knot .c).column 63 = ⟨2, span⟩ ∧
      (((missed 2 span).judgedColumn .c netFields 63 7 .missed).line .c).state = .stopRequested) ∧
    ((missed 1 (some (.knot, 5))).knot .c).column 63 = ⟨1, some (.knot, 5)⟩ := by decide +kernel
/-- A row at the mesh pitch of 120 mm and at its tolerance of 50 permille, and just past it. -/
theorem witness_ColumnJudgmentCountsMisses_row : netRunning.knotSpec .c = some netFields ∧
    ((netRunning.modKnot .c fun k => { k with lastRowPos := some 0, unseenSpan := some 3, meshSpan := some 4 }).knot .c).lastRowPos =
      some 0 ∧ (netRunning.knot .c).lastRowPos = none ∧ (netRunning.knot .c).unseenSpan = none ∧
    (((126000000 : Int) - 0 - 120000000) * 1000).tdiv 120000000 = 50 ∧
    (((126120000 : Int) - 0 - 120000000) * 1000).tdiv 120000000 = 51 := by decide
def windowOf (n : Int) (p : Nat) : State :=
  (at' p).modHead 4 fun h => { h with window := some ⟨0, n, 0⟩ }
/-- A window just short of W and one at W; the count at two turns of backlash and just past it. -/
theorem witness_TwistWindowJudgesAndCorrects :
    (∀ n ∈ [165, -8, -9], ((windowOf n 1000000000).head 4).window = some ⟨0, n, 0⟩ ∧
      ((windowOf n 1000000000).head 4).settings = some (flyer .a 20) ∧
      (windowOf n 1000000000).boundRecipe .a = some ropeRecipe ∧ ropeRecipe.specFor (flyer .a 20) = some ⟨4200, .z, 120⟩) ∧
    ((windowOf 0 999999999).pos .a).position - 0 < ropeRecipe.window * 1000000 ∧
    ropeRecipe.window * 1000000 ≤ ((windowOf 0 1000000000).pos .a).position - 0 ∧
    OppositeHand .plus .z (-9) ∧ ¬OppositeHand .plus .z 165 ∧ 2 * 4 < (-9 : Int).natAbs ∧ (-8 : Int).natAbs ≤ 2 * 4 ∧
    (windowOf 0 0).guard.latch = false ∧ ropeRecipe.gain ≠ 0 ∧
    (((windowOf 0 0).copy 4).state ≠ .invalid ∧ ((windowOf 0 0).copy 4).slot = some 2 ∧
      (windowOf 0 0).recipe 2 = some ropeRecipe) := by
  refine ⟨by decide +kernel, by decide +kernel, by decide +kernel, .inr (by decide), ?_, by decide, by decide, by decide, by decide,
    by decide⟩
  simp [OppositeHand]

def spanOpen : SpanEntry := ⟨.slip, .line, 0, some 5, true, 1, false, 0⟩
def withSpans (xs : List SpanEntry) (lost : List SpanKey) : State :=
  running.modSpanRec .a fun r => { r with spans := xs, lostKeys := lost }
/-- R121's table at a cut at 7 mm: closed at the cut, closed above it, open with an end below it and with none, and one that starts
at the cut. -/
theorem test_take_splits_spans :
    let e : SpanEntry := ⟨.slip, .line, 2000000, some 7000000, false, 9, false, 4⟩
    let all := [e, { e with stop := some 8000000 }, { e with stop := some 3000000, isOpen := true },
      { e with stop := none, isOpen := true }, { e with start := 7000000 }]
    all.filterMap (copiedAt 7000000) = [⟨.slip, .line, 2, 7, 9, false, false⟩, ⟨.slip, .line, 2, 7, 9, false, true⟩,
      ⟨.slip, .line, 2, 7, 9, false, true⟩, ⟨.slip, .line, 2, 7, 9, false, true⟩] ∧
    all.filterMap (staysAt 7000000) = [⟨.slip, .line, 7000000, some 8000000, false, 9, true, 4⟩,
      ⟨.slip, .line, 7000000, some 7000000, true, 9, true, 4⟩, ⟨.slip, .line, 7000000, none, true, 9, true, 4⟩,
      { e with start := 7000000 }] := by decide
/-- The first loss of a full list is reported. -/
theorem test_span_overflow_notice : (((withSpans (List.replicate 48 { spanOpen with isOpen := false }) []).submit .a .slip .line
    (.openOrExtend 7 8 1)).link.notices.map (·.body)) = [.spanOverflow .slip .line 0 0] := by decide +kernel
/-- An open that carries an end, as the KS makes it for a KNOT span: stored with that end, raised to the start, and reported at the
first loss (R116, R117, R119). -/
theorem test_open_with_end : (((withSpans [] []).submit .a .knot (.column 3) (.openSpan 7 (some 6) 1)).spanRec .a).spans =
      [⟨.knot, .column 3, 7, some 7, true, 1, false, ((withSpans [] []).spanRec .a).arrival⟩] ∧
    (((withSpans (List.replicate 48 { spanOpen with isOpen := false }) []).submit .a .knot (.column 3)
      (.openSpan 7000000 (some 8000000) 1)).link.notices.map (·.body)) = [.spanOverflow .knot (.column 3) 7 0] := by
  decide +kernel
theorem witness_SpanSubmissionsAndTakeKeepList : ready.runOpen .a = false ∧ (withSpans [spanOpen] []).runOpen .a = true ∧
    ((withSpans [spanOpen] []).spanRec .a).spans.any (fun e => e.isOpen && e.key == ⟨.slip, .line⟩) = true ∧
    ((withSpans [] [⟨.slip, .line⟩]).spanRec .a).lostKeys = [⟨.slip, .line⟩] ∧
    ((withSpans (List.replicate 47 { spanOpen with isOpen := false }) []).spanRec .a).spans.length < 48 ∧
    48 ≤ ((withSpans (List.replicate 48 { spanOpen with isOpen := false }) []).spanRec .a).spans.length ∧
    ((withSpans (List.replicate 48 { spanOpen with isOpen := false }) []).spanRec .a).spans.any
      (fun e => e.isOpen && e.key == ⟨.slip, .line⟩) = false := by decide +kernel

/-! ### Invariants -/

theorem reset_storeLaws : StoreLaws State.reset where
  recipes := by
    have H : ∀ n, State.reset.recipe n = none := by decide
    intro n r h
    rw [H n] at h
    cases h
  boundFull := by
    intro l n h
    cases l <;> simp [State.line, PerLine.get, State.reset, State.powerUp, PerLine.all, LineRec.powerOn] at h
  heads := by
    have H : ∀ h, (State.reset.head h).settings = none := by decide
    intro h u hu
    rw [H h] at hu
    cases hu
  trims := by simp only [TrimLaw]; decide
  clean := by
    have H : ∀ h, (State.reset.copy h).state ≠ .clean := by decide
    exact fun h hc => absurd hc (H h)
  learned := by
    have H : ∀ h, (State.reset.copy h).state = .invalid := by decide
    exact fun h hc => absurd (H h) hc
theorem witness_EveryStepKeepsGuardLaws_store : StoreLaws State.reset ∧ step State.reset = .next State.reset.tick :=
  ⟨reset_storeLaws, rfl⟩
theorem witness_EveryStepKeepsGuardLaws : GuardLaw latchedRun ∧ HeadGuarded latchedRun ∧ latchedRun.guard.latch = true ∧
    ∃ t, step latchedRun = .next t ∧ t.guard.latch = true := by
  refine ⟨fun _ => ⟨forall_line (by decide), forall_line (by decide), by decide, by decide⟩, fun _ => .inl (by decide), by decide,
    _, rfl, by decide⟩
theorem witness_EveryStepKeepsQueueBounds : (∀ l, LaneLaw State.reset l) ∧ NoOwnLeader State.reset ∧
    BufferLaw State.reset ∧ step State.reset = .next State.reset.tick := by
  refine ⟨?_, ?_, ?_, rfl⟩
  · simp only [LaneLaw]; exact forall_line (by decide)
  · simp only [NoOwnLeader]; exact forall_line (by decide)
  · simp only [BufferLaw]; decide

theorem witness_EveryStepKeepsQueueBounds_laws : (∀ l, CausesLaw running l ∧ CoilLaw running l ∧ PositionLaw running l ∧
    SpanLaw running l ∧ SpanOrderLaw running l) ∧ StationLaws travelling := by
  constructor
  · apply forall_line
    simp only [CausesLaw, CoilLaw, PositionLaw, SpanLaw, SpanOrderLaw]
    have H : ∀ l ∈ LineId.all, (running.spanRec l).spans = [] := by decide
    intro l hl
    rw [H l hl]
    refine ⟨?_, ?_, ?_, ?_, trivial, by simp⟩ <;> revert l <;> decide
  · exact ⟨by simp only [CompletedLaw]; decide, by simp only [AttachedLaw]; decide, by simp only [ServiceLaw]; decide⟩

end Sys2Proof.Tests
end

/-! LINE STOP (R11): an offered cause as one update of the line's record, what the LC makes of the request in each state
of the line, and the statement O40. -/

namespace Sys2Proof.Proofs

open Sys2Proof.Machine Sys2Proof.Safety

/-! ## An offered cause as an update of the line's record (R5) -/

/-- A run is open exactly when the line is not IDLE (R4). -/
theorem runOpen_eq_false_iff (s : State) (l : LineId) : s.runOpen l = false ↔ (s.line l).state = .idle := by
  simp [State.runOpen]

/-- A line with a run open is left in STOP_REQUESTED with the cause added. -/
theorem afterOffer_of_ne_idle {r : LineRec} (h : r.state ≠ .idle) (x : StopCause) :
    afterOffer r x = { r with state := .stopRequested, causes := r.causes.add x } := by
  cases r with | mk kind state =>
  cases state with
  | idle => exact absurd rfl h
  | running => rfl
  | stopRequested => rfl

/-- An update of a line's record is known by what it makes of the record the line has. -/
theorem modLine_congr {s : State} {l : LineId} {f g : LineRec → LineRec} (h : f (s.line l) = g (s.line l)) :
    s.modLine l f = s.modLine l g := by
  simp only [State.modLine, h]

/-- Offered to a RUNNING line, a cause other than GUARD changes the line's record and then sends its notice. -/
theorem offerCause_of_running {s : State} {l : LineId} {x : StopCause} (h : (s.line l).state = .running)
    (hx : x ≠ .guard) : s.offerCause l x =
      (s.modLine l (afterOffer · x)).notify (some l) (.stopRequested x ((s.line l).causes.add x)) := by
  have hoffer : s.modLine l (afterOffer · x) =
      s.modLine l fun r => { r with state := .stopRequested, causes := r.causes.add x } :=
    modLine_congr (afterOffer_of_ne_idle (by simp [h]) x)
  simp only [hoffer, State.offerCause, h, if_neg hx, modLine_line_self]

/-- Offered to a line in STOP_REQUESTED, a cause changes the line's record alone. -/
theorem offerCause_of_stopRequested {s : State} {l : LineId} (h : (s.line l).state = .stopRequested) (x : StopCause) :
    s.offerCause l x = s.modLine l (afterOffer · x) := by
  simp only [State.offerCause, h]
  exact modLine_congr (by simp only [afterOffer, h])

/-! ## What the LC makes of LINE STOP -/

/-- Of an IDLE line LINE STOP is refused. -/
theorem lineStop_of_idle {s : State} {l : LineId} (h : (s.line l).state = .idle) :
    s.lineStop (LineId.code l) = .error ⟨.badState, 0⟩ := by
  simp only [State.lineStop, withLine_code, (runOpen_eq_false_iff s l).mpr h, if_true, refuse]

/-- Of a line with a run open LINE STOP is accepted, and reports STOP_REQUESTED with HOST in the set. -/
theorem lineStop_of_ne_idle {s : State} {l : LineId} (h : (s.line l).state ≠ .idle) :
    s.lineStop (LineId.code l) = .ok (s.offerCause l .host,
      enc8 LineState.stopRequested.code ++ encCauses ((s.line l).causes.add .host)) := by
  have hopen : ¬ s.runOpen l = false := mt (runOpen_eq_false_iff s l).mp h
  simp only [State.lineStop, withLine_code, if_neg hopen, accept, State.encStop, offerCause_line_self,
    afterOffer_of_ne_idle h]

/-- `exec` gives LINE STOP to the LC's part of the request. -/
theorem exec_lineStop (tag : Byte) (line : Nat) (s : State) :
    exec (.lineStop tag line) s = request 0x22 tag (·.lineStop line) s := rfl

/-- Settles O40: the state before the notice, `u`, is the line's record updated by the offer of HOST; only a RUNNING line
sends the notice after it. -/
theorem lineStopAddsHost : Obligations.LineStopAddsHost := by
  intro s tag l htakes
  have hline : (s.entered 0x22 tag).line l = s.line l := by simp
  rw [exec_lineStop]
  constructor
  · intro hidle
    exact request_refused htakes (lineStop_of_idle (hline.symm ▸ hidle))
  · intro hopen
    have hafter := afterOffer_of_ne_idle hopen .host
    have haccept := lineStop_of_ne_idle (s := s.entered 0x22 tag) (hline.symm ▸ hopen)
    rw [hline] at haccept
    refine ⟨(s.entered 0x22 tag).offerCause l .host, (s.entered 0x22 tag).modLine l (afterOffer · .host),
      request_accepted htakes haccept, ?_, ?_, rfl, ?_, ?_⟩
    · rw [modLine_line_self, hline, hafter]
    · intro x hx
      simp [hx]
    · intro hstop
      exact offerCause_of_stopRequested (hline.symm ▸ hstop) .host
    · intro hrun
      rw [offerCause_of_running (hline.symm ▸ hrun) (by decide), hline]

end Sys2Proof.Proofs

/-! CHANNEL FREE (R34): the lines whose run makes an entry IN_USE, what the SCU makes of the request for a number out of
range, a used and an unused entry, and the statement O19. -/

namespace Sys2Proof.Proofs

open Sys2Proof.Machine Sys2Proof.Safety

/-! ## The IN_USE test (section 2.8) -/

/-- A line that may be absent is busy exactly when it is there and its run is open. -/
theorem busy_eq_true_iff (s : State) (o : Option LineId) :
    s.busy o = true ↔ ∃ l, o = some l ∧ s.runOpen l = true := by
  cases o with
  | none => simp [State.busy]
  | some l => simp [State.busy]

/-- It is not busy exactly when a run is open of no such line. -/
theorem busy_eq_false_iff (s : State) (o : Option LineId) :
    s.busy o = false ↔ ∀ l, o = some l → s.runOpen l = false := by
  cases o with
  | none => simp [State.busy]
  | some l => simp [State.busy]

/-- Entering the request buffer does not change which line consumes an entry. -/
@[simp] theorem entered_consumingLine (s : State) (kind tag : Byte) (c : Option Consumer) :
    (s.entered kind tag).consumingLine c = s.consumingLine c := by
  match c with
  | none => rfl
  | some (.line _) => rfl
  | some (.head _) => simp [State.consumingLine]

/-- Entering the request buffer opens and closes no run. -/
@[simp] theorem entered_busy (s : State) (kind tag : Byte) (o : Option LineId) :
    (s.entered kind tag).busy o = s.busy o := by
  cases o with
  | none => rfl
  | some l => simp [State.busy, State.runOpen]

/-! ## What the SCU makes of CHANNEL FREE -/

/-- A channel number out of range is refused. -/
theorem channelFree_of_le {n : Nat} (h : 32 ≤ n) (s : State) : s.channelFree n = .error ⟨.badTarget, 0⟩ := by
  simp only [State.channelFree, withChannel, dif_neg (Nat.not_lt.mpr h), refuse]

/-- An entry whose consuming line has its run open is kept. -/
theorem channelFree_of_busy {s : State} {ch : ChannelId}
    (h : s.busy (s.consumingLine (s.channel ch).consumer) = true) :
    s.channelFree ch.val = .error ⟨.inUse, 0⟩ := by
  simp only [State.channelFree, withChannel_val, if_pos h, refuse]

/-- Any other entry is assigned the role FREE, and its former count and tally are reported. -/
theorem channelFree_of_not_busy {s : State} {ch : ChannelId}
    (h : s.busy (s.consumingLine (s.channel ch).consumer) = false) :
    s.channelFree ch.val = .ok (s.modChannel ch (·.assigned .free none false),
      enc32 (s.channel ch).count.toNat ++ enc8 (s.channel ch).tally) := by
  simp only [State.channelFree, withChannel_val, h, Bool.false_eq_true, if_false, accept]

/-- `exec` gives CHANNEL FREE to the SCU's part of the request. -/
theorem exec_channelFree (tag : Byte) (n : Nat) (s : State) :
    exec (.channelFree tag n) s = request 0x02 tag (·.channelFree n) s := rfl

/-- Settles O19: the SCU sees the table and the runs as they were before the request entered the buffer, so its three
answers are the three cases of the statement; the state `t` is the entered one with the entry assigned FREE. -/
theorem channelFreeFreesEntry : Obligations.ChannelFreeFreesEntry := by
  intro s tag n htakes
  rw [exec_channelFree]
  refine ⟨fun hrange => request_refused htakes (channelFree_of_le hrange _), ?_⟩
  rintro ch rfl
  have hchannel : ∀ d, (s.entered 0x02 tag).channel d = s.channel d := by simp
  have hbusy : (s.entered 0x02 tag).busy
      ((s.entered 0x02 tag).consumingLine ((s.entered 0x02 tag).channel ch).consumer) =
        s.busy (s.consumingLine (s.channel ch).consumer) := by
    rw [entered_busy, entered_consumingLine, hchannel]
  constructor
  · intro l hline hopen
    have hused := (busy_eq_true_iff s _).mpr ⟨l, hline, hopen⟩
    exact request_refused htakes (channelFree_of_busy (hbusy.trans hused))
  · intro hclosed
    have hunused := (busy_eq_false_iff s _).mpr hclosed
    have haccept := channelFree_of_not_busy (hbusy.trans hunused)
    rw [hchannel] at haccept
    refine ⟨(s.entered 0x02 tag).modChannel ch (·.assigned .free none false),
      request_accepted htakes haccept, ?_, ?_, rfl⟩
    · rw [modChannel_channel_self, hchannel, Channel.assigned]
    · intro d hd
      rw [modChannel_channel_of_ne _ _ _ hd, hchannel]

end Sys2Proof.Proofs

/-! Refusals (R164, R165): which kinds are unknown, how a request command reaches its owning block, what a refused request
does to the ML, and the statement O11. -/

namespace Sys2Proof.Proofs

open Sys2Proof.Machine Sys2Proof.Safety

/-! ## Kinds that are listed (R164 check 1, R172) -/

/-- The payload of a listed kind spells its command or has a wrong length; it never makes the kind unknown. -/
theorem readWith_ne_unknownKind {α : Type} (get : List Byte → Option (α × List Byte)) (make : α → Instr)
    (payload : List Byte) : readWith get make payload ≠ .unknownKind := by
  unfold readWith
  split
  · exact Spelled.noConfusion
  · exact Spelled.noConfusion

/-- The arms of `spell` are the kinds listed for requests: each reads a payload, and only the arm of all other kinds answers
that the kind is unknown. -/
theorem spell_eq_unknownKind_iff (kind tag : Byte) (payload : List Byte) :
    spell kind tag payload = .unknownKind ↔ kind.toNat ∉ requestKinds := by
  unfold spell
  split
  -- Last of the 42 arms: a kind that none of the 41 listed numbers equals.
  case h_42 => simp_all [requestKinds]
  all_goals
    rename_i hkind
    simp [hkind, requestKinds, readWith_ne_unknownKind]

/-! ## A request command and its owning block (R164) -/

/-- A command that has a request form is run as that request, for each of the 41 request kinds. -/
theorem exec_eq_request {c : Instr} {r : RequestForm} (h : requestForm c = some r) (s : State) :
    exec c s = request r.kind r.tag r.handle s := by
  cases c <;> cases h <;> rfl

/-- A request that the ML takes is refused as its handler says. -/
theorem serve_of_error {s : State} {kind tag : Byte} {handle : State → Result} {d : Denial}
    (htakes : s.link.takesRequest = true) (hdenied : handle (s.entered kind tag) = .error d) :
    s.serve kind tag handle = (s.entered kind tag).refused tag d := by
  simp only [State.serve, htakes, if_true, State.answer, hdenied]

/-- A frame whose kind is unknown is refused with BAD_KIND. -/
theorem serveFrame_of_unknownKind {s : State} {kind tag : Byte} {payload : List Byte}
    (htakes : s.link.takesRequest = true) (h : spell kind tag payload = .unknownKind) :
    s.serveFrame kind tag payload = (s.entered kind tag).refused tag ⟨.badKind, 0⟩ := by
  simp only [State.serveFrame, h]
  exact serve_of_error htakes rfl

/-- A frame whose payload has a wrong length is refused with BAD_VALUE of no field. -/
theorem serveFrame_of_badLength {s : State} {kind tag : Byte} {payload : List Byte}
    (htakes : s.link.takesRequest = true) (h : spell kind tag payload = .badLength) :
    s.serveFrame kind tag payload = (s.entered kind tag).refused tag ⟨.badValue, 0⟩ := by
  simp only [State.serveFrame, h]
  exact serve_of_error htakes rfl

/-! ## What a refusal does to the ML (R165) -/

/-- Of the port flags a refusal sets UNKNOWN_KIND for BAD_KIND and BAD_TARGET for BAD_TARGET, and no other. -/
theorem afterDenial_eq (f : PortFlags) (reason : Reason) :
    f.afterDenial reason = { f with
      unknownKind := f.unknownKind || decide (reason = .badKind)
      badTarget := f.badTarget || decide (reason = .badTarget) } := by
  cases reason <;> simp [PortFlags.afterDenial]

/-- A request refused has its place in the buffer, its refusal in the reply queue and the flag of its reason set. -/
theorem entered_refused_link (s : State) (kind tag : Byte) (d : Denial) :
    ((s.entered kind tag).refused tag d).link = { s.link with
      buffer := s.link.buffer ++ [⟨kind, tag⟩]
      replies := s.link.replies ++ [refusal tag d]
      flags := s.link.flags.afterDenial d.reason } := by
  simp only [State.refused, State.queueReply, State.entered, modLink_link]

/-- A request refused changes no block but the ML. -/
theorem entered_refused_eq (s : State) (kind tag : Byte) (d : Denial) :
    (s.entered kind tag).refused tag d = { s with link := ((s.entered kind tag).refused tag d).link } := rfl

/-- Settles O11: the first clause is the arms of `spell`; a refusal by the owning block and the two refusals of a frame all
come to `refused` of the state entered, of which the last clause says what it changes. -/
theorem refusalChangesOnlyItsPortFlag : Obligations.RefusalChangesOnlyItsPortFlag := by
  refine ⟨spell_eq_unknownKind_iff, ?_, ?_, ?_⟩
  · intro c r s d hform htakes hdenied
    rw [exec_eq_request hform]
    exact request_refused htakes hdenied
  · intro s kind tag payload htakes
    exact ⟨serveFrame_of_unknownKind htakes, serveFrame_of_badLength htakes⟩
  · intro s kind tag d
    refine ⟨entered_refused_eq s kind tag d, ?_⟩
    rw [entered_refused_link, afterDenial_eq]
    rfl

end Sys2Proof.Proofs

/-! Laws that every step keeps: a law that each action of the blocks keeps (`Keeps`) and each action of the link keeps
(`WireKeeps`) is kept by every command, and so by every step. -/

namespace Sys2Proof.Proofs

open Sys2Proof.Machine Sys2Proof.Safety

/-! ## The parts of a cut, of a run's opening and end, and of LINE RESET -/

/-- The records of the line and of its running follower closed: steps 1 to 5 of a cut (R134, R138). -/
def cutClosed (s : State) (l : LineId) (why : CutReason) : State :=
  let f := s.runningFollower l
  let mismatch := match f with
    | some f => s.pairMismatch l f
    | none => false
  let idOf := fun x => (x, (s.coilRec x).number)
  let s2 := ((l :: f.toList).foldl State.assertCutter s).closeCoil l why true (f.map idOf) mismatch
  match f with
  | some x => s2.closeCoil x why false (some (idOf l)) mismatch
  | none => s2

/-- What a cut of the lines `both` does once their records are closed: steps 6 to 9, or the end of the runs. -/
def cutSettled (s : State) (both : List LineId) (l : LineId) (why : CutReason) : State :=
  match why with
  | .endOfRun =>
    let s4 := both.foldl (fun s x => s.modCoil x fun k => { k with number := nextNumber k.number }) s
    (both.foldl State.endRun (both.foldl State.notifyCut (s4.releasePair l))).evaluateGrant
  | _ =>
    let s5 := both.foldl State.settleCoil ((both.foldl State.openNextCoil s).applyPending both)
    (both.foldl State.notifyCut (s5.releasePair l)).evaluateGrant

theorem performCut_eq (s : State) (l : LineId) (why : CutReason) :
    s.performCut l why = cutSettled (cutClosed s l why) (s.cutLines l) l why := by
  cases why <;> rfl

/-- The records of a line whose run ends: lists, slip window, mark target, coil, state and causes (R10). -/
def endRecords (s : State) (l : LineId) : State :=
  (((s.modSpanRec l SpanRec.emptied).modPos l fun p => { p with slip := none, markTarget := none }).modCoil l
    fun k => { k with coil := none, stage := .none, pairedHold := false }).modLine l
    fun r => { r with state := .idle, causes := r.causes.guardOnly }

/-- What the end of a run does to the KS and to the heads of the line (R10, R83, R93, R104). -/
def endMeasures (s : State) (l : LineId) : State :=
  let s1 := s.abandonScan l
  let s2 := match (s1.line l).kind with
    | .net => s1.modKnot l KnotRec.atRunEnd
    | .rope => s1
  (s2.headsOf l).foldl (fun s h => s.modHead h HeadRec.atRunEnd) s2

theorem endRun_eq (s : State) (l : LineId) : s.endRun l = endRecords (endMeasures s l) l := rfl

/-- LINE RESET of a line but for the test of its leader's held cut (R13). -/
def discardRun (s : State) (l : LineId) : State :=
  let s1 := ((s.releaseFollower l).knotReset l).resetHeads l
  (((s1.modSpanRec l SpanRec.emptied).modPos l fun p => { p with position := 0, slip := none, markTarget := none }).modCoil l
    fun k => { k with coil := none, stage := .none, pairedHold := false }).modLine l
    fun r => { r with state := .idle, causes := r.causes.guardOnly, reverseClamp := false, warmStart := false }

theorem resetLine_eq (s : State) (l : LineId) : s.resetLine l =
    match ((discardRun s l).line l).cfg.leader with
    | some x => (discardRun s l).retest x
    | none => discardRun s l := rfl

/-- A run's opening up to the SCU's part: recipe, heads, KS and channels (R8). -/
def runPrepared (s : State) (l : LineId) (n : Slot) : State :=
  let heads := s.headsOf l
  let target := fun (_ : HeadId) => some n
  let s1 := (s.evictAndLoad target heads).bindPending l (s.evicted target heads).length true
  let s3 := (heads.foldl (fun s h => s.modHead h HeadRec.atRunStart) s1).knotRunStart l
  (s3.channelsOf l).foldl (fun s c => s.modChannel c Channel.atRunStart) s3

/-- The records of a line whose run opens: lists, coil, position and line (R8). -/
def runRecords (s : State) (l : LineId) (n : Slot) (r : Recipe) (warm : Bool) : State :=
  let s5 := s.modSpanRec l fun r => { r.emptied with arrival := 0 }
  let s6 := s5.modCoil l fun k => { k with coil := some ⟨n, 0, 0, 0⟩, stage := .none, pairedHold := false }
  let s7 := s6.modPos l fun p => { p with
    position := 0
    slip := if (s6.line l).cfg.wheelChannel.isSome then some ⟨0, 0, 0⟩ else none
    markTarget := markTargetFrom 0 (some r) }
  s7.modLine l fun x => { x with state := .running, causes := .empty, reverseClamp := false, warmStart := warm }

theorem openRun_eq (s : State) (l : LineId) (n : Slot) (r : Recipe) : s.openRun l n r =
    let t := runRecords (runPrepared s l n) l n r (!(s.headsOf l).isEmpty && (s.headsOf l).all (s.isHit n))
    match t.follower l with
    | some f => t.dropPlacement f
    | none => t := rfl

/-- GUARD CLEAR but for the tests of the held cuts and the last notice (R18). -/
def guardReleased (s : State) : State :=
  (LineId.all.foldl (fun (s : State) l => s.modLine l fun r => { r with causes := r.causes.drop .guard })
    { s with guard := { s.guard with latch := false } }).packGuardClear

theorem clearGuard_eq (s : State) : s.clearGuard =
    ((guardReleased s).inAnyOrder (LineId.all.filter (guardReleased s).holdsCut) State.retest).notify none
      .guardCleared := rfl

/-- A slot becomes the bound recipe of a line, and the limit counts of its heads are cleared (R64, R83). -/
def boundTo (s : State) (l : LineId) (n : Slot) : State :=
  let s1 := s.modLine l fun r => { r with bound := some n, pendingRecipe := none }
  (s1.headsOf l).foldl (fun s h => s.modHead h fun r => { r with limitCount := 0 }) s1

theorem bindPending_eq (s : State) (l : LineId) (written : Nat) (atRunStart : Bool) :
    s.bindPending l written atRunStart =
      match (s.line l).pendingRecipe with
      | none => s
      | some n =>
        let s3 := match ((boundTo s l n).line l).kind, (boundTo s l n).knotSpec l with
          | .net, some k => (boundTo s l n).settleColumns l k.columnsUsed
          | _, _ => boundTo s l n
        s3.notify (some l) (.recipeApplied (s.line l).bound n (s3.coilRec l).number written atRunStart) := rfl

/-- The head record when GUARD CLEAR attaches the service in abeyance again (R158). -/
def serviceBack (p : PackRec) : PackRec :=
  { p with state := .suspended, attached := p.abeyance.map (·.1), step := p.abeyance.map (·.2), abeyance := none }

theorem packGuardClear_eq (s : State) : s.packGuardClear =
    if s.pack.state = .guarded then (s.modPack serviceBack).notify (serviceBack s.pack).attached
      (.suspended .guard (serviceBack s.pack).attached (serviceBack s.pack).step)
    else s := rfl

/-- The trim after a correction (R88). -/
def newTrim (s : State) (h : HeadId) (r : Recipe) (deviation : Int) : Int :=
  clampAbs r.trimLimit ((s.head h).trim + correction deviation r.gain r.slew)

/-- The limit count after a correction (R89). -/
def newLimitCount (s : State) (h : HeadId) (r : Recipe) (deviation : Int) (outside : Bool) : Nat :=
  if (newTrim s h r deviation).natAbs = r.trimLimit ∧ outside then min r.limitWindows ((s.head h).limitCount + 1) else 0

/-- The trim, the limit count and the flag of a corrected window set, and the learned trim with it (R88, R89). -/
def trimSet (s : State) (h : HeadId) (r : Recipe) (deviation : Int) (outside : Bool) : State :=
  let s1 := s.modHead h fun x => { x with
    trim := newTrim s h r deviation, limitCount := newLimitCount s h r deviation outside
    lastFlags := x.lastFlags.map fun f => { f with corrected := true } }
  if (s1.copy h).valid then (s1.setCopy h { s1.copy h with learned := newTrim s h r deviation }).remark h else s1

theorem correctTrim_eq (s : State) (l : LineId) (h : HeadId) (r : Recipe) (deviation : Int) (outside : Bool) :
    s.correctTrim l h r deviation outside =
      if newLimitCount s h r deviation outside = r.limitWindows then (trimSet s h r deviation outside).offerCause l .trimExhausted
      else trimSet s h r deviation outside := rfl

/-! ## Conditions under which the blocks act -/

/-- No hold reason is present (R132). -/
def CutFree (s : State) (l : LineId) : Prop := (s.holds l).any = false

/-- A head of a line whose run is open under recipe `r`. -/
def Tracked (s : State) (l : LineId) (h : HeadId) (r : Recipe) : Prop :=
  s.runOpen l = true ∧ s.boundRecipe l = some r ∧ ∃ u, (s.head h).settings = some u ∧ u.line = l

/-- What RUN START has found when it opens the run (R7). -/
structure RunReady (s : State) (l : LineId) (n : Slot) (r : Recipe) : Prop where
  closed : s.runOpen l = false
  latch : s.guard.latch = false
  slot : (s.line l).runSlot = some n
  recipe : s.recipe n = some r

/-- The service of a lane is in progress. -/
def InService (s : State) (l : LineId) : Prop :=
  (s.pack.state = .travel ∨ s.pack.state = .banding ∨ s.pack.state = .labelling) ∧ s.pack.attached = some l

/-- What a request leaves when its owning block accepts it. -/
def Gives (P : State → Prop) (r : Result) : Prop := ∀ t p, r = .ok (t, p) → P t

/-- A law that what falls due on a count keeps (R38). -/
structure KeepsCounts (P : State → Prop) : Prop where
  free : ∀ (s : State) (now : Nat) (duty : Vector Nat 16) (knots : PerLine KnotRec) (k1 k2 : LinkRec)
    (chans : Vector Channel 32) (n : Nat), P s → P { s with
      now := now, drivenDuty := duty, knots := knots, linkK1 := k1, linkK2 := k2, channels := chans, choices := n }
  notify : ∀ (s : State) (l : Option LineId) (b : NoticeBody), P s → P (s.notify l b)
  offerCause : ∀ (s : State) (l : LineId) (x : StopCause), P s → P (s.offerCause l x)
  removeCutHeld : ∀ (s : State) (l : LineId), P s → P (s.removeCutHeld l)
  submit : ∀ (s : State) (l : LineId) (k : SpanKind) (c : SpanSource) (x : Submission), P s → P (s.submit l k c x)
  head : ∀ (s : State) (h : HeadId) (f : HeadRec → HeadRec), (∀ r, (f r).settings = r.settings ∧ (f r).trim = r.trim) →
    P s → P (s.modHead h f)
  pos : ∀ (s : State) (l : LineId) (f : PositionRec → PositionRec), (∀ r, (f r).position = r.position ∧
    ((f r).markerPulse = r.markerPulse ∨ (f r).markerPulse = none)) → P s → P (s.modPos l f)
  mark : ∀ (s : State) (l : LineId) (f : PositionRec → PositionRec), s.guard.latch = false →
    (∀ r, (f r).position = r.position) → P s → P (s.modPos l f)
  coil : ∀ (s : State) (l : LineId) (f : CoilRec → CoilRec), (∀ k, (f k).coil.map (·.start) = k.coil.map (·.start) ∧
    ((f k).cutterPulse = k.cutterPulse ∨ (f k).cutterPulse = none)) → P s → P (s.modCoil l f)
  cut : ∀ (s : State) (l : LineId) (why : CutReason), why ≠ .endOfRun → CutFree s l → P s → P (s.performCut l why)
  correct : ∀ (s : State) (l : LineId) (h : HeadId) (r : Recipe) (d : Int) (b : Bool), s.guard.latch = false →
    Tracked s l h r → P s → P (s.correctTrim l h r d b)

/-- A law that every action of the packing station keeps (R144 to R160). -/
structure KeepsStation (P : State → Prop) : Prop where
  lane : ∀ (s : State) (l : LineId) (f : LaneRec → LaneRec), (∀ r, (f r).queue.length = r.queue.length) → P s →
    P (s.modLane l f)
  pack : ∀ (s : State) (f : PackRec → PackRec), (∀ p, (f p).state = p.state ∧ (f p).attached = p.attached ∧
    (f p).abeyance = p.abeyance ∧ (f p).reserved = p.reserved) → P s → P (s.modPack f)
  evaluateGrant : ∀ s : State, P s → P s.evaluateGrant
  enterHeld : ∀ s : State, s.pack.state = .free → P s → P s.enterHeld
  suspendFree : ∀ s : State, s.pack.state = .free → P s → P (s.suspend none none)
  leaveStop : ∀ s : State, s.pack.state = .fault ∨ s.pack.state = .held → P s → P s.leaveStop
  resumeHead : ∀ s : State, s.pack.state ≠ .guarded → P s → P s.resumeHead
  proceedTo : ∀ (s : State) (l : LineId) (k : PackStep), InService s l → P s → P (s.proceedTo l k)
  restartBand : ∀ (s : State) (l : LineId) (k n : Nat), InService s l → P s → P (s.startBand k n)
  packFault : ∀ (s : State) (l : LineId) (f : PackFault), InService s l → P s → P (s.packFault l f)
  endService : ∀ (s : State) (l : LineId), InService s l → P s → P (s.endService l)
  taken : ∀ (s : State) (r : CoilRecord) (rest : List CoilRecord), s.completed = r :: rest → P s →
    P { s with completed := rest }

/-- A law that every action of the blocks keeps, but for the clearing of the latch. -/
structure Keeps (P : State → Prop) : Prop extends KeepsCounts P, KeepsStation P where
  link : ∀ (s : State) (f : Link → Link), (∀ k, (f k).buffer = k.buffer ∧ (f k).replies = k.replies ∧
    (f k).sending = k.sending ∧ (f k).notices = k.notices) → P s → P (s.modLink f)
  submitSplice : ∀ (s : State) (l : LineId) (p : Nat), P s → P (s.submitSplice l p)
  moved : ∀ (s : State) (l : LineId) (pitch : Nat) (b : Bool) (g : Option SlipWindow → Option SlipWindow), P s →
    P (s.modPos l fun p => { p with
      position := (movedPosition (s.coilStart l) pitch (s.pos l).position b).1, slip := g p.slip })
  line : ∀ (s : State) (l : LineId) (f : LineRec → LineRec), (∀ r, (f r).state = r.state ∧ (f r).causes = r.causes ∧
    (f r).cfg = r.cfg ∧ (f r).bound = r.bound ∧ (f r).pendingRecipe = r.pendingRecipe) → P s → P (s.modLine l f)
  runEnd : ∀ (s : State) (l : LineId), CutFree s l → P s → P (s.performCut l .endOfRun)
  openRun : ∀ (s : State) (l : LineId) (n : Slot) (r : Recipe), RunReady s l n r → P s → P (s.openRun l n r)
  discard : ∀ (s : State) (l : LineId), P s → P (discardRun s l)
  resume : ∀ (s : State) (l : LineId), (s.line l).state = .stopRequested → P s → P (s.resumeLine l)
  guardInput : ∀ (s : State) (x y : Bool), P s → P { s with guard := ⟨x, y, s.guard.latch⟩ }
  guardEvent : ∀ s : State, s.guard.latch = false → P s → P s.guardEvent
  lineSet : ∀ (s : State) (f : LineSetArgs), P s → Gives P (s.lineSet f)
  lineBind : ∀ (s : State) (x y : Nat), P s → Gives P (s.lineBind x y)
  headSet : ∀ (s : State) (f : HeadSetArgs), P s → Gives P (s.headSet f)
  headFree : ∀ (s : State) (x : Nat), P s → Gives P (s.headFree x)
  recipeStore : ∀ (s : State) (x : Nat) (f : RecipeArgs), P s → Gives P (s.recipeStore x f)
  flushSlot : ∀ (s : State) (n : Slot), P s → P (s.flushSlot n)
  invalidateSlot : ∀ (s : State) (n : Slot), P s → P (s.invalidateSlot n)

/-! ## Results of the owning blocks -/

theorem Gives.refuse {P : State → Prop} (r : Reason) : Gives P (refuse r) := fun _ _ h => by cases h
theorem Gives.badField {P : State → Prop} (n : Nat) : Gives P (badField n) := fun _ _ h => by cases h
theorem Gives.error {P : State → Prop} (d : Denial) : Gives P (.error d) := fun _ _ h => by cases h
theorem Gives.accept {P : State → Prop} {s : State} {p : List Byte} (h : P s) : Gives P (accept s p) :=
  fun _ _ e => by cases e; exact h

theorem Gives.withLine {P : State → Prop} {n : Nat} {k : LineId → Result} (h : ∀ l, Gives P (k l)) :
    Gives P (withLine n k) := by
  unfold Machine.withLine
  split
  · exact h _
  · exact .refuse _

theorem Gives.withHead {P : State → Prop} {n : Nat} {k : HeadId → Result} (h : ∀ x, Gives P (k x)) :
    Gives P (withHead n k) := by
  unfold Machine.withHead
  split
  · exact h _
  · exact .refuse _

theorem Gives.withChannel {P : State → Prop} {n : Nat} {k : ChannelId → Result} (h : ∀ x, Gives P (k x)) :
    Gives P (withChannel n k) := by
  unfold Machine.withChannel
  split
  · exact h _
  · exact .refuse _

theorem Gives.withSlot {P : State → Prop} {n : Nat} {k : Slot → Result} (h : ∀ x, Gives P (k x)) :
    Gives P (withSlot n k) := by
  unfold Machine.withSlot
  split
  · exact h _
  · exact .refuse _

end Sys2Proof.Proofs

namespace Sys2Proof.Proofs

open Sys2Proof.Machine Sys2Proof.Safety

/-- A list of actions made one after another keeps what each of them keeps. -/
theorem foldl_keeps {Q : State → Prop} {α : Type} {f : State → α → State} {xs : List α} (hf : ∀ s, ∀ a ∈ xs, Q s → Q (f s a))
    {s : State} (h : Q s) : Q (xs.foldl f s) := by
  induction xs generalizing s with
  | nil => exact h
  | cons a as ih =>
    exact ih (fun s x hx => hf s x (List.mem_cons_of_mem _ hx)) (hf s a List.mem_cons_self h)

namespace KeepsCounts

variable {P : State → Prop} (K : KeepsCounts P) {s : State}

include K

/-! ## Blocks that no law speaks of -/

theorem advanceTo (t : Nat) (h : P s) : P (s.advanceTo t) := by
  unfold State.advanceTo
  split
  · exact h
  · exact K.free s t _ s.knots s.linkK1 s.linkK2 s.channels s.choices h

theorem modKnot (l : LineId) (f : KnotRec → KnotRec) (h : P s) : P (s.modKnot l f) :=
  K.free s s.now s.drivenDuty _ s.linkK1 s.linkK2 s.channels s.choices h

theorem modChannel (c : ChannelId) (f : Channel → Channel) (h : P s) : P (s.modChannel c f) :=
  K.free s s.now s.drivenDuty s.knots s.linkK1 s.linkK2 _ s.choices h

theorem modScanLink (k : ScanLink) (f : LinkRec → LinkRec) (h : P s) : P (s.modScanLink k f) := by
  cases k
  · exact K.free s s.now s.drivenDuty s.knots _ s.linkK2 s.channels s.choices h
  · exact K.free s s.now s.drivenDuty s.knots s.linkK1 _ s.channels s.choices h

theorem inOrder {α : Type} {f : State → α → State} {xs : List α} (hf : ∀ s, ∀ a ∈ xs, P s → P (f s a)) (h : P s) :
    P (s.inOrder xs f) :=
  foldl_keeps hf (K.free s s.now s.drivenDuty s.knots s.linkK1 s.linkK2 s.channels _ h)

theorem inAnyOrder {α : Type} {f : State → α → State} {xs : List α} (hf : ∀ s a, P s → P (f s a)) (h : P s) :
    P (s.inAnyOrder xs f) := K.inOrder (fun s x _ => hf s x) h

/-! ## Cuts -/

theorem releasePair (l : LineId) (h : P s) : P (s.releasePair l) := by
  have hu := K.removeCutHeld s l h
  unfold State.releasePair
  dsimp only
  split
  · split
    · exact K.coil _ _ _ (fun _ => ⟨rfl, .inl rfl⟩) (K.removeCutHeld _ _ hu)
    · exact hu
  · exact hu

theorem holdCut (l : LineId) (p : Placement) (h : P s) : P (s.holdCut l p) := by
  have h1 : P (s.modCoil l fun k => { k with stage := .held p }) := K.coil _ _ _ (fun _ => ⟨rfl, .inl rfl⟩) h
  have h2 := K.offerCause _ l .cutHeld (K.notify _ (some l)
    (.cutHeld (s.coilRec l).number (mm p.target) (mm (s.pos l).position) (s.holds l)) h1)
  unfold State.holdCut
  dsimp only
  split
  · exact K.coil _ _ _ (fun _ => ⟨rfl, .inl rfl⟩) (K.offerCause _ _ _ h2)
  · exact h2

theorem testDue (l : LineId) (p : Placement) (h : P s) : P (s.testDue l p) := by
  unfold State.testDue
  split
  · split
    · exact K.holdCut l p h
    · exact K.cut _ _ _ nofun (by simp_all [CutFree]) h
  · exact h

theorem testCut (l : LineId) (h : P s) : P (s.testCut l) := by
  unfold State.testCut
  split
  · split
    · split
      · exact K.testDue l _ (K.coil _ _ _ (fun _ => ⟨rfl, .inl rfl⟩) h)
      · exact h
    · exact h
  · exact K.testDue l _ h
  · exact h

theorem retest (l : LineId) (h : P s) : P (s.retest l) := by
  unfold State.retest
  split
  · split
    · exact h
    · split
      · exact K.cut _ _ _ nofun (by simp_all [CutFree]) h
      · exact K.releasePair l (K.coil _ _ _ (fun _ => ⟨rfl, .inl rfl⟩) h)
  · exact h

theorem retestAround (l : LineId) (h : P s) : P (s.retestAround l) := by
  unfold State.retestAround
  split
  · exact K.retest _ (K.retest l h)
  · exact K.retest l h

/-! ## Counts -/

theorem testSlip (l : LineId) (h : P s) : P (s.testSlip l) := by
  unfold State.testSlip
  split
  · split
    · refine K.pos _ _ _ (fun _ => ⟨rfl, .inl rfl⟩) ?_
      split
      · exact K.submit _ _ _ _ _ h
      · exact K.submit _ _ _ _ _ h
    · exact h
  · exact h

theorem testMark (l : LineId) (h : P s) : P (s.testMark l) := by
  unfold State.testMark
  split
  · split
    · have coilMild : ∀ (k : CoilRec) (f : OpenCoil → OpenCoil), (∀ c, (f c).start = c.start) →
          (k.coil.map f).map (·.start) = k.coil.map (·.start) := by
        intro k f hf
        simp [Option.map_map, Function.comp_def, hf]
      dsimp only
      split
      · exact K.coil _ _ _ (fun k => ⟨coilMild k _ fun _ => rfl, .inl rfl⟩) (K.pos _ _ _ (fun _ => ⟨rfl, .inl rfl⟩) h)
      · rename_i hl
        exact K.mark _ _ _ (by simpa using hl) (fun _ => rfl) (K.coil _ _ _
          (fun k => ⟨coilMild k _ fun _ => rfl, .inl rfl⟩) (K.pos _ _ _ (fun _ => ⟨rfl, .inl rfl⟩) h))
    · exact h
  · exact h

theorem testStall (l : LineId) (x : HeadId) (h : P s) : P (s.testStall l x) := by
  unfold State.testStall
  split
  · exact h
  · split
    · exact K.offerCause _ _ _ (K.submit _ _ _ _ _ (K.head _ _ _ (fun _ => ⟨rfl, rfl⟩) h))
    · exact h

end KeepsCounts

/-! ## What a count leaves of the head table's settings and of the runs -/

/-- A law that recipes bound and loaded, and the parts of a cut that goes on, keep. -/
structure KeepsRuns (P : State → Prop) : Prop where
  free : ∀ (s : State) (now : Nat) (duty : Vector Nat 16) (knots : PerLine KnotRec) (k1 k2 : LinkRec)
    (chans : Vector Channel 32) (n : Nat), P s → P { s with
      now := now, drivenDuty := duty, knots := knots, linkK1 := k1, linkK2 := k2, channels := chans, choices := n }
  notify : ∀ (s : State) (l : Option LineId) (b : NoticeBody), P s → P (s.notify l b)
  submit : ∀ (s : State) (l : LineId) (k : SpanKind) (c : SpanSource) (x : Submission), P s → P (s.submit l k c x)
  setRecipe : ∀ (s : State) (n : Slot) (r : Option Recipe), P s → P (s.setRecipe n r)
  setCopy : ∀ (s : State) (h : HeadId) (c : WorkingCopy), P s → P (s.setCopy h c)
  head : ∀ (s : State) (h : HeadId) (f : HeadRec → HeadRec), (∀ r, (f r).settings = r.settings) → P s → P (s.modHead h f)
  bound : ∀ (s : State) (l : LineId) (f : LineRec → LineRec), (∀ r, (f r).state = r.state ∧ (f r).causes = r.causes ∧
    (f r).cfg = r.cfg) → P s → P (s.modLine l f)

namespace KeepsRuns

variable {P : State → Prop} (K : KeepsRuns P) {s : State}

include K

theorem modKnot (l : LineId) (f : KnotRec → KnotRec) (h : P s) : P (s.modKnot l f) :=
  K.free s s.now s.drivenDuty _ s.linkK1 s.linkK2 s.channels s.choices h

theorem modScanLink (k : ScanLink) (f : LinkRec → LinkRec) (h : P s) : P (s.modScanLink k f) := by
  cases k
  · exact K.free s s.now s.drivenDuty s.knots _ s.linkK2 s.channels s.choices h
  · exact K.free s s.now s.drivenDuty s.knots s.linkK1 _ s.channels s.choices h

theorem modHeads (hs : List HeadId) (f : HeadRec → HeadRec) (hf : ∀ r, (f r).settings = r.settings) (h : P s) :
    P (hs.foldl (fun s h => s.modHead h f) s) := foldl_keeps (fun s x _ => K.head s x f hf) h

theorem modChannels (cs : List ChannelId) (f : Channel → Channel) (h : P s) :
    P (cs.foldl (fun s c => s.modChannel c f) s) :=
  foldl_keeps (fun s _ _ => K.free s s.now s.drivenDuty s.knots s.linkK1 s.linkK2 _ s.choices) h

theorem remark (x : HeadId) (h : P s) : P (s.remark x) := by
  unfold State.remark
  dsimp only
  split
  · exact K.setCopy _ _ _ h
  · exact h

theorem remarkSlot (n : Slot) (h : P s) : P (s.remarkSlot n) := foldl_keeps (fun _ x _ => K.remark x) h

theorem writeBack (x : HeadId) (h : P s) : P (s.writeBack x) := by
  unfold State.writeBack
  split
  · split
    · exact K.setRecipe _ _ _ h
    · exact h
  · exact h

theorem writeBackAll (hs : List HeadId) (h : P s) : P (s.writeBackAll hs) :=
  foldl_keeps (fun _ x _ => K.remarkSlot x) (foldl_keeps (fun _ x _ => K.writeBack x) h)

theorem load (n : Slot) (x : HeadId) (h : P s) : P (s.load n x) := by
  unfold State.load
  exact K.head _ _ _ (fun _ => rfl) (K.remark x (K.setCopy _ _ _ h))

theorem evictAndLoad (target : HeadId → Option Slot) (hs : List HeadId) (h : P s) : P (s.evictAndLoad target hs) := by
  refine foldl_keeps (fun s x _ h => ?_) (K.writeBackAll _ h)
  split
  · exact K.load _ x h
  · exact h

theorem settleColumns (l : LineId) (used : Nat) (h : P s) : P (s.settleColumns l used) := by
  unfold State.settleColumns
  refine K.modKnot _ _ (foldl_keeps (fun s x _ h => ?_) h)
  split
  · split
    · exact K.submit _ _ _ _ _ h
    · exact h
  · exact h

theorem boundTo (l : LineId) (n : Slot) (h : P s) : P (boundTo s l n) := by
  unfold Proofs.boundTo
  refine foldl_keeps (fun s x _ h => ?_) ?_
  · exact K.head s x _ (fun _ => rfl) h
  · exact K.bound _ _ _ (fun _ => ⟨rfl, rfl, rfl⟩) h

theorem bindPending (l : LineId) (n : Nat) (b : Bool) (h : P s) : P (s.bindPending l n b) := by
  rw [bindPending_eq]
  split
  · exact h
  · refine K.notify _ _ _ ?_
    split
    · exact K.settleColumns l _ (K.boundTo l _ h)
    · exact K.boundTo l _ h

theorem applyPending (ls : List LineId) (h : P s) : P (s.applyPending ls) :=
  foldl_keeps (fun _ x _ => K.bindPending x _ _) (K.evictAndLoad _ _ h)

end KeepsRuns

/-- A law that every part of a cut keeps once the records are closed, the pending recipes applied as one part. -/
structure KeepsCutParts (P : State → Prop) : Prop where
  notify : ∀ (s : State) (l : Option LineId) (b : NoticeBody), P s → P (s.notify l b)
  removeCutHeld : ∀ (s : State) (l : LineId), P s → P (s.removeCutHeld l)
  pos : ∀ (s : State) (l : LineId) (f : PositionRec → PositionRec), (∀ r, (f r).position = r.position ∧
    (f r).markerPulse = r.markerPulse) → P s → P (s.modPos l f)
  coil : ∀ (s : State) (l : LineId) (f : CoilRec → CoilRec), (∀ k, (f k).coil.map (·.start) = k.coil.map (·.start)) →
    P s → P (s.modCoil l f)
  openNextCoil : ∀ (s : State) (l : LineId), P s → P (s.openNextCoil l)
  evaluateGrant : ∀ s : State, P s → P s.evaluateGrant
  applyPending : ∀ (s : State) (ls : List LineId), P s → P (s.applyPending ls)

namespace KeepsCutParts

variable {P : State → Prop} (K : KeepsCutParts P) {s : State}

include K

theorem releasePair (l : LineId) (h : P s) : P (s.releasePair l) := by
  have hu := K.removeCutHeld s l h
  unfold State.releasePair
  dsimp only
  split
  · split
    · exact K.coil _ _ _ (fun _ => rfl) (K.removeCutHeld _ _ hu)
    · exact hu
  · exact hu

theorem notifyCut (l : LineId) (h : P s) : P (s.notifyCut l) := by
  unfold State.notifyCut
  split
  · exact K.notify _ _ _ h
  · exact h

theorem settleCoil (l : LineId) (h : P s) : P (s.settleCoil l) := by
  unfold State.settleCoil
  refine K.pos _ _ _ (fun _ => ⟨rfl, rfl⟩) ?_
  exact K.coil _ _ _ (fun k => by simp [Option.map_map, Function.comp_def]) h

theorem cutSettled (both : List LineId) (l : LineId) (why : CutReason)
    (hend : why = .endOfRun → ∀ (s : State) (l : LineId), P s → P (s.endRun l)) (h : P s) :
    P (cutSettled s both l why) := by
  have goesOn : P ((both.foldl State.notifyCut ((both.foldl State.settleCoil
      ((both.foldl State.openNextCoil s).applyPending both)).releasePair l)).evaluateGrant) :=
    K.evaluateGrant _ (foldl_keeps (fun s x _ => K.notifyCut x) (K.releasePair l (foldl_keeps
      (fun s x _ => K.settleCoil x) (K.applyPending _ both (foldl_keeps (fun s x _ => K.openNextCoil s x) h)))))
  cases why with
  | placement p => exact goesOn
  | onRequest => exact goesOn
  | endOfRun =>
    refine K.evaluateGrant _ (foldl_keeps (fun s x _ => hend rfl s x) (foldl_keeps (fun s x _ => K.notifyCut x)
      (K.releasePair l (foldl_keeps (fun s x _ h => ?_) h))))
    exact K.coil _ _ _ (fun _ => rfl) h

end KeepsCutParts

/-- A law that every part of a cut that goes on keeps once the records are closed. -/
structure KeepsSettled (P : State → Prop) : Prop extends KeepsRuns P where
  removeCutHeld : ∀ (s : State) (l : LineId), P s → P (s.removeCutHeld l)
  pos : ∀ (s : State) (l : LineId) (f : PositionRec → PositionRec), (∀ r, (f r).position = r.position ∧
    (f r).markerPulse = r.markerPulse) → P s → P (s.modPos l f)
  coil : ∀ (s : State) (l : LineId) (f : CoilRec → CoilRec), (∀ k, (f k).coil.map (·.start) = k.coil.map (·.start)) →
    P s → P (s.modCoil l f)
  openNextCoil : ∀ (s : State) (l : LineId), P s → P (s.openNextCoil l)
  evaluateGrant : ∀ s : State, P s → P s.evaluateGrant

/-- A law that every part of a cut that goes on keeps. -/
structure KeepsCuts (P : State → Prop) : Prop extends KeepsSettled P where
  closeCoil : ∀ (s : State) (l : LineId) (why : CutReason) (own : Bool) (p : Option (LineId × Nat)) (m : Bool), P s →
    P (s.closeCoil l why own p m)

theorem KeepsSettled.parts {P : State → Prop} (K : KeepsSettled P) : KeepsCutParts P where
  notify := K.notify
  removeCutHeld := K.removeCutHeld
  pos := K.pos
  coil := K.coil
  openNextCoil := K.openNextCoil
  evaluateGrant := K.evaluateGrant
  applyPending _ ls h := K.toKeepsRuns.applyPending ls h

namespace KeepsCuts

variable {P : State → Prop} (K : KeepsCuts P) {s : State}

include K

theorem cutClosed (l : LineId) (why : CutReason) (h : P s) : P (cutClosed s l why) := by
  have h1 := foldl_keeps (xs := l :: (s.runningFollower l).toList) (f := State.assertCutter)
    (fun s x _ h => K.coil s x _ (fun _ => rfl) h) h
  unfold Proofs.cutClosed
  dsimp only
  split
  · exact K.closeCoil _ _ _ _ _ _ (K.closeCoil _ _ _ _ _ _ h1)
  · exact K.closeCoil _ _ _ _ _ _ h1

theorem performCut (l : LineId) (why : CutReason)
    (hend : why = .endOfRun → ∀ (s : State) (l : LineId), P s → P (s.endRun l)) (h : P s) :
    P (s.performCut l why) := by
  rw [performCut_eq]
  exact K.parts.cutSettled _ _ _ hend (K.cutClosed _ _ h)

end KeepsCuts

end Sys2Proof.Proofs

namespace Sys2Proof.Proofs

open Sys2Proof.Machine Sys2Proof.Safety

/-! ## Runs and head settings through a count -/

/-- The heads keep their settings, and the same runs are open. -/
structure RunsOn (s t : State) : Prop where
  settings : ∀ h, (t.head h).settings = (s.head h).settings
  runOpen : ∀ l, t.runOpen l = s.runOpen l

theorem RunsOn.refl (s : State) : RunsOn s s := ⟨fun _ => rfl, fun _ => rfl⟩

theorem RunsOn.trans {s t u : State} (a : RunsOn s t) (b : RunsOn t u) : RunsOn s u :=
  ⟨fun h => (b.settings h).trans (a.settings h), fun l => (b.runOpen l).trans (a.runOpen l)⟩

/-- An action that leaves the head table and the lines alone. -/
theorem RunsOn.of_same {s t : State} (hh : t.heads = s.heads) (hl : t.lines = s.lines) : RunsOn s t :=
  ⟨fun h => by simp only [State.head, hh], fun l => by unfold State.runOpen State.line; rw [hl]⟩

theorem RunsOn.modHead {s : State} {h : HeadId} {f : HeadRec → HeadRec} (hf : ∀ r, (f r).settings = r.settings) :
    RunsOn s (s.modHead h f) := by
  refine ⟨fun x => ?_, fun _ => rfl⟩
  rw [modHead_head]
  split
  · rename_i hx; rw [hf, hx]
  · rfl

theorem RunsOn.modLine {s : State} {l : LineId} {f : LineRec → LineRec}
    (hf : (f (s.line l)).state = .idle ↔ (s.line l).state = .idle) : RunsOn s (s.modLine l f) := by
  refine ⟨fun _ => rfl, fun x => ?_⟩
  simp only [State.runOpen, modLine_line]
  split
  · rename_i hx; subst hx; simp only [ne_eq, hf]
  · rfl

theorem RunsOn.offerCause (s : State) (l : LineId) (x : StopCause) : RunsOn s (s.offerCause l x) := by
  refine ⟨fun h => by simp, fun y => ?_⟩
  by_cases hy : y = l
  · subst hy
    simp only [State.runOpen, offerCause_line_self, afterOffer]
    cases hs : (s.line y).state
    case idle => by_cases hx : x = .guard <;> simp [hx, hs]
    all_goals simp
  · simp [State.runOpen, hy]

theorem RunsOn.removeCutHeld (s : State) (l : LineId) : RunsOn s (s.removeCutHeld l) := by
  unfold State.removeCutHeld
  split
  · refine .modLine ?_
    dsimp only
    split
    · rename_i h; simp [h.1]
    · rfl
  · exact .refl s

theorem RunsOn.evaluateGrant (s : State) : RunsOn s s.evaluateGrant := by
  have hgrant : ∀ l, RunsOn s (s.grantTo l) := by
    intro l
    unfold State.grantTo
    dsimp only
    split <;> exact .of_same rfl rfl
  unfold State.evaluateGrant
  split
  · exact .refl s
  · split
    · exact .of_same rfl rfl
    · split
      · exact hgrant _
      · exact .refl s

theorem RunsOn.closeCoil (s : State) (l : LineId) (why : CutReason) (own : Bool) (p : Option (LineId × Nat)) (m : Bool) :
    RunsOn s (s.closeCoil l why own p m) := by
  unfold State.closeCoil
  split
  · exact .of_same rfl rfl
  · exact .refl s

/-- The parts of a cut that goes on keep the heads' settings and the runs. -/
theorem RunsOn.keepsCuts (s : State) : KeepsCuts (RunsOn s) where
  free _ _ _ _ _ _ _ _ h := h.trans (.of_same rfl rfl)
  notify t l b h := h.trans (.of_same (by simp) (by simp))
  submit t l k c x h := h.trans (.of_same (by simp) (by simp))
  setRecipe _ _ _ h := h.trans (.of_same rfl rfl)
  setCopy _ _ _ h := h.trans (.of_same rfl rfl)
  head _ _ _ hf h := h.trans (.modHead hf)
  bound t l f hf h := h.trans (.modLine (by rw [(hf _).1]))
  removeCutHeld t l h := h.trans (.removeCutHeld t l)
  pos _ _ _ _ h := h.trans (.of_same rfl rfl)
  coil _ _ _ _ h := h.trans (.of_same rfl rfl)
  closeCoil t l why own p m h := h.trans (.closeCoil t l why own p m)
  openNextCoil _ _ h := h.trans (.of_same rfl rfl)
  evaluateGrant t h := h.trans (.evaluateGrant t)

theorem RunsOn.trimSet (s : State) (h : HeadId) (r : Recipe) (d : Int) (b : Bool) : RunsOn s (trimSet s h r d b) := by
  have hmod : ∀ c n, RunsOn s (s.modHead h fun x => { x with
      trim := c, limitCount := n, lastFlags := x.lastFlags.map fun f => { f with corrected := true } }) :=
    fun _ _ => .modHead fun _ => rfl
  have hcopy : ∀ (t : State) (c : WorkingCopy), RunsOn t ((t.setCopy h c).remark h) := fun t c =>
    .of_same (by simp) (by simp)
  unfold Proofs.trimSet
  dsimp only
  split
  · exact (hmod _ _).trans (hcopy _ _)
  · exact hmod _ _

theorem RunsOn.correctTrim (s : State) (l : LineId) (h : HeadId) (r : Recipe) (d : Int) (b : Bool) :
    RunsOn s (s.correctTrim l h r d b) := by
  rw [correctTrim_eq]
  split
  · exact (RunsOn.trimSet s h r d b).trans (.offerCause _ _ _)
  · exact .trimSet s h r d b

/-- What falls due on a count keeps the heads' settings and the runs. -/
theorem RunsOn.keepsCounts (s : State) : KeepsCounts (RunsOn s) where
  free _ _ _ _ _ _ _ _ h := h.trans (.of_same rfl rfl)
  notify t l b h := (RunsOn.keepsCuts s).notify t l b h
  offerCause t l x h := h.trans (.offerCause t l x)
  removeCutHeld t l h := h.trans (.removeCutHeld t l)
  submit t l k c x h := (RunsOn.keepsCuts s).submit t l k c x h
  head _ _ _ hf h := h.trans (.modHead fun r => (hf r).1)
  pos _ _ _ _ h := h.trans (.of_same rfl rfl)
  mark _ _ _ _ _ h := h.trans (.of_same rfl rfl)
  coil _ _ _ _ h := h.trans (.of_same rfl rfl)
  cut _ l why hwhy _ h := (RunsOn.keepsCuts s).performCut l why (fun e => absurd e hwhy) h
  correct t l x r d b _ _ h := h.trans (.correctTrim t l x r d b)

/-- Two laws that what falls due on a count keeps are kept together. -/
theorem KeepsCounts.and {P Q : State → Prop} (K : KeepsCounts P) (L : KeepsCounts Q) : KeepsCounts fun s => P s ∧ Q s where
  free s n d k k1 k2 c m h := ⟨K.free s n d k k1 k2 c m h.1, L.free s n d k k1 k2 c m h.2⟩
  notify s l b h := ⟨K.notify s l b h.1, L.notify s l b h.2⟩
  offerCause s l x h := ⟨K.offerCause s l x h.1, L.offerCause s l x h.2⟩
  removeCutHeld s l h := ⟨K.removeCutHeld s l h.1, L.removeCutHeld s l h.2⟩
  submit s l k c x h := ⟨K.submit s l k c x h.1, L.submit s l k c x h.2⟩
  head s x f hf h := ⟨K.head s x f hf h.1, L.head s x f hf h.2⟩
  pos s l f hf h := ⟨K.pos s l f hf h.1, L.pos s l f hf h.2⟩
  mark s l f hl hf h := ⟨K.mark s l f hl hf h.1, L.mark s l f hl hf h.2⟩
  coil s l f hf h := ⟨K.coil s l f hf h.1, L.coil s l f hf h.2⟩
  cut s l why hw hf h := ⟨K.cut s l why hw hf h.1, L.cut s l why hw hf h.2⟩
  correct s l x r d b hl ht h := ⟨K.correct s l x r d b hl ht h.1, L.correct s l x r d b hl ht h.2⟩

/-- A head stays tracked where its settings, the runs, the bound recipe and the latch stay. -/
theorem Tracked.of_same {s t : State} {l : LineId} {h : HeadId} {r : Recipe} (ht : Tracked s l h r)
    (hs : (t.head h).settings = (s.head h).settings) (hl : t.lines = s.lines) (hn : t.slots = s.slots) : Tracked t l h r := by
  obtain ⟨hrun, hbound, hset⟩ := ht
  refine ⟨?_, ?_, hs ▸ hset⟩
  · unfold State.runOpen State.line at hrun ⊢
    rwa [hl]
  · have : t.recipe = s.recipe := by funext n; simp only [State.recipe, hn]
    simpa only [State.boundRecipe, State.line, hl, this] using hbound

namespace KeepsCounts

variable {P : State → Prop} (K : KeepsCounts P) {s : State}

include K

theorem closeJudgedWindow {l : LineId} {h : HeadId} {t : HeadSettings} {w : TwistWindow} {r : Recipe} {target : Nat}
    {kind : WindowKind} {n : Nat} (ht : Tracked s l h r) (hs : P s) :
    P (s.closeJudgedWindow l h t w r target kind n) := by
  -- the law, the tracking and the guard, carried through the window's spans and flags
  let Q : State → Prop := fun u => P u ∧ Tracked u l h r ∧ u.guard = s.guard
  have submit : ∀ u k c x, Q u → Q (u.submit l k c x) := fun u k c x hu =>
    ⟨K.submit _ _ _ _ _ hu.1, hu.2.1.of_same (by simp) (by simp) (by simp), by simp [hu.2.2]⟩
  have head : ∀ u f, (∀ r, (f r).settings = r.settings ∧ (f r).trim = r.trim) → Q u → Q (u.modHead h f) :=
    fun u f hf hu => ⟨K.head _ _ _ hf hu.1, hu.2.1.of_same (by simp [(hf _).1]) rfl rfl, hu.2.2⟩
  have correct : ∀ u d b, Q u → P (if s.guard.latch ∨ r.gain = 0 then u else u.correctTrim l h r d b) := by
    intro u d b hu
    split
    · exact hu.1
    · rename_i hl
      exact K.correct _ _ _ _ _ _ (by simp_all [hu.2.2]) hu.2.1 hu.1
  unfold State.closeJudgedWindow
  refine correct _ _ _ ?_
  have hfirst : Q (if (s.head h).handFault then
      (s.submit l .hand (.head h) (.close (t.coordinate w.start))).modHead h fun x => { x with handFault := false }
      else s) := by
    split
    · exact head _ _ (fun _ => ⟨rfl, rfl⟩) (submit _ _ _ _ ⟨hs, ht, rfl⟩)
    · exact ⟨hs, ht, rfl⟩
  split
  · exact submit _ _ _ _ (head _ _ (fun _ => ⟨rfl, rfl⟩) hfirst)
  · exact submit _ _ _ _ (head _ _ (fun _ => ⟨rfl, rfl⟩) hfirst)

theorem testWindow (l : LineId) (x : HeadId) (hrun : s.runOpen l = true)
    (hx : ∃ u, (s.head x).settings = some u ∧ u.line = l) (h : P s) : P (s.testWindow l x) := by
  unfold State.testWindow
  split
  · exact h
  · split
    · rename_i r _ _ hbound
      have ht : Tracked s l x r := ⟨hrun, hbound, hx⟩
      refine K.head _ _ _ (fun _ => ⟨rfl, rfl⟩) ?_
      split
      · split
        · unfold State.closeHandWindow
          exact K.head _ _ _ (fun _ => ⟨rfl, rfl⟩) (K.submit _ _ _ _ _ h)
        · exact K.closeJudgedWindow ht h
        · exact K.closeJudgedWindow ht h
      · exact h
    · exact h

end KeepsCounts

theorem mem_headsOf {s : State} {l : LineId} {h : HeadId} :
    h ∈ s.headsOf l ↔ ∃ u, (s.head h).settings = some u ∧ u.line = l := by
  simp only [State.headsOf, allHeads, List.mem_filter, List.mem_finRange, true_and]
  split <;> simp_all

/-- An event of a count is one of a head of the line, or of no head. -/
def CountEvent.headIn (e : CountEvent) (hs : List HeadId) : Prop :=
  match e with
  | .window h => h ∈ hs
  | .stall h => h ∈ hs
  | _ => True

/-- The events of a count are those of the line's own heads. -/
theorem headIn_of_mem_countEvents {s : State} {l : LineId} {a b : Bool} {e : CountEvent} (h : e ∈ s.countEvents l a b) :
    CountEvent.headIn e (s.headsOf l) := by
  simp only [State.countEvents, List.mem_append] at h
  cases e with
  | window x | stall x =>
    simp only [CountEvent.headIn]
    cases a <;> cases b <;> (split at h <;> simp_all)
  | _ => trivial

namespace KeepsCounts

variable {P : State → Prop} (K : KeepsCounts P) {s : State}

include K

theorem countEvent (l : LineId) (e : CountEvent) (hrun : s.runOpen l = true) (he : CountEvent.headIn e (s.headsOf l)) (h : P s) :
    P (State.countEvent l s e) := by
  cases e with
  | runLimit => exact K.offerCause _ _ _ h
  | slip => exact K.testSlip l h
  | mark => exact K.testMark l h
  | window x => exact K.testWindow l x hrun (mem_headsOf.mp he) h
  | stall x => exact K.testStall l x h
  | cut => exact K.testCut l h

/-- The events of a count one after another: the line's run stays open, and its heads stay its heads. -/
theorem countEvents (l : LineId) {es : List CountEvent} (hrun : s.runOpen l = true)
    (hes : ∀ e ∈ es, CountEvent.headIn e (s.headsOf l)) (h : P s) : P (s.inOrder es (State.countEvent l)) := by
  have L := K.and (RunsOn.keepsCounts s)
  refine (L.inOrder (fun t e he ht => L.countEvent l e ?_ ?_ ht) ⟨h, .refl s⟩).1
  · rw [ht.2.runOpen, hrun]
  · have heads : t.headsOf l = s.headsOf l := by simp only [State.headsOf, ht.2.settings]
    rw [heads]
    exact hes e he

end KeepsCounts

/-! ## Laws that do not speak of the packing station -/

theorem length_onFront (r : LaneRec) (f : CoilRecord → CoilRecord) : (r.onFront f).queue.length = r.queue.length := by
  unfold LaneRec.onFront
  split
  · rename_i heq; simp [heq]
  · rfl

section

variable {P : State → Prop} (hpack : ∀ (s : State) (p : PackRec), P s → P { s with pack := p })
  (hlane : ∀ (s : State) (l : LineId) (f : LaneRec → LaneRec), (∀ r, (f r).queue.length = r.queue.length) → P s →
    P (s.modLane l f))

include hpack hlane

theorem evaluateGrant_keeps {s : State} (h : P s) : P s.evaluateGrant := by
  have hgrant : ∀ l, P (s.grantTo l) := by
    intro l
    have hfront : ∀ g, P (s.modLane l (·.onFront g)) := fun g => hlane _ _ _ (fun r => length_onFront r g) h
    unfold State.grantTo
    dsimp only
    split
    · exact hpack _ _ (hpack _ _ (hfront _))
    · exact hpack _ _ (hpack _ _ (hfront _))
  unfold State.evaluateGrant
  split
  · exact h
  · split
    · exact hpack _ _ h
    · split
      · exact hgrant _
      · exact h

variable (K : KeepsCounts P) (hcompleted : ∀ (s : State) (c : List CoilRecord), P s → P { s with completed := c })
  (hpop : ∀ (s : State) (l : LineId) (r : CoilRecord) (rest : List CoilRecord), (s.lane l).queue = r :: rest → P s →
    P (s.modLane l fun q => { q with queue := rest }))

include K hcompleted hpop

theorem endService_keeps {s : State} (l : LineId) (h : P s) : P (s.endService l) := by
  have hfree : ∀ t : State, P t → P t.freeHead := fun t ht => evaluateGrant_keeps hpack hlane (hpack _ _ ht)
  have hfinish : ∀ t r, P t → P (t.finishService l r) := by
    intro t r ht
    have hlaned : ∀ b, P ((t.notify (some l) b).modLane l fun q => { q with
        rearmed := !q.coilReady, enable := if q.disablePending then .disabled else q.enable, disablePending := false }) :=
      fun b => hlane _ _ _ (fun _ => rfl) (K.notify _ _ b ht)
    unfold State.finishService
    dsimp only
    split
    · exact K.notify _ _ _ (hpack _ _ (hlaned _))
    · exact hfree _ (hlaned _)
  unfold State.endService
  split
  · exact h
  · rename_i r rest hqueue
    have hpacked : ∀ (t : State) c p, P t → P { t with completed := c, pack := p } := fun t c p ht =>
      hpack { t with completed := c } p (hcompleted t c ht)
    refine K.inAnyOrder (fun t e ht => ?_) (hpacked _ _ _ (hpop s l r rest hqueue h))
    cases e with
    | finish => exact hfinish t _ ht
    | retest => exact K.retestAround l ht

/-- Such a law is kept by every action of the packing station. -/
theorem KeepsStation.of_free : KeepsStation P := by
  have hgrant : ∀ s : State, P s → P s.evaluateGrant := fun s => evaluateGrant_keeps hpack hlane
  have hfree : ∀ s : State, P s → P s.freeHead := fun s h => hgrant _ (hpack _ _ h)
  have henter : ∀ (s : State) (k : PackStep), P s → P (s.enterStep k) := fun s k h => by cases k <;> exact hpack _ _ h
  refine ⟨hlane, fun s f _ => hpack s _, hgrant, fun s _ => hpack s _, fun s _ h => K.notify _ _ _ (hpack s _ h), ?_, ?_, ?_,
    fun s _ k n _ => hpack s _, fun s l f _ h => ?_, fun s l _ => ?_, fun s _ rest _ => hcompleted s rest⟩
  · intro s _ h
    unfold State.leaveStop
    split
    · exact hpack _ _ h
    · split
      · exact K.notify _ _ _ (hpack _ _ h)
      · exact hfree _ h
  · intro s _ h
    unfold State.resumeHead
    split
    · split
      · unfold State.resumeService
        split
        · exact hpack _ _ h
        · exact hpack _ _ h
        · exact henter _ _ h
      · exact hfree _ h
    all_goals exact hpack _ _ h
  · intro s l k _ h
    unfold State.proceedTo
    split
    · exact K.notify _ _ _ (hpack _ _ h)
    · exact henter _ _ h
  · exact K.notify _ _ _ (hlane _ _ _ (fun _ => rfl) (hpack _ _ h))
  · exact endService_keeps hpack hlane K hcompleted hpop l

end

end Sys2Proof.Proofs

namespace Sys2Proof.Proofs

open Sys2Proof.Machine Sys2Proof.Safety

namespace Keeps

variable {P : State → Prop} (K : Keeps P) {s : State}

include K

/-! ## Counts and captures handed to the blocks -/

theorem authorityCount (l : LineId) (pitch : Nat) (b : Bool) (hrun : s.runOpen l = true) (h : P s) :
    P (s.authorityCount l pitch b) := by
  unfold State.authorityCount
  have hmoved := K.moved s l pitch b
    (·.map fun w => { w with authAdvance := addAdvance w.authAdvance (signedPitch pitch b) }) h
  refine K.countEvents l ?_ ?_ ?_
  · split
    · exact (RunsOn.modLine (s := s.modPos l _) Iff.rfl).runOpen l |>.trans hrun
    · exact hrun
  · intro e he
    exact headIn_of_mem_countEvents (lpuOrdered_spec _ _ |>.1.mem_iff.mp he)
  · split
    · exact K.line _ _ _ (fun _ => ⟨rfl, rfl, rfl, rfl, rfl⟩) hmoved
    · exact hmoved

theorem lineCount (l : LineId) (r : Role) (b : Bool) (h : P s) : P (s.lineCount l r b) := by
  unfold State.lineCount
  split
  · rename_i hrun
    dsimp only
    split
    · exact K.authorityCount l _ b hrun h
    · unfold State.otherCount
      exact K.pos _ _ _ (fun _ => ⟨rfl, .inl rfl⟩) h
  · exact h

theorem flyerCount (x : HeadId) (n : Int) (h : P s) : P (s.flyerCount x n) := by
  unfold State.flyerCount
  split
  · split
    · refine K.head _ _ _ (fun _ => ⟨rfl, rfl⟩) ?_
      split
      · exact K.head _ _ _ (fun _ => ⟨rfl, rfl⟩) (K.submit _ _ _ _ _ h)
      · exact h
    · exact h
  · exact h

/-! ## Knots and scans -/

theorem judgedColumn (l : LineId) (k : KnotSpec) (c p : Nat) (m : ColumnMark) (h : P s) :
    P (s.judgedColumn l k c p m) := by
  cases m with
  | tied =>
    unfold State.judgedColumn State.columnTied
    refine K.modKnot _ _ ?_
    split
    · exact K.submit _ _ _ _ _ h
    · exact h
  | missed =>
    simp only [State.judgedColumn, State.columnMissed]
    repeat (first | exact h | apply K.offerCause | apply K.notify | apply K.modKnot | apply K.submit | split)
  | unknown => exact h

theorem judgeRow (l : LineId) (c : Scan) (o : ScanOutcome) (b : Option Nat) (h : P s) : P (s.judgeRow l c o b) := by
  have unseen : ∀ {t : State} (b : Bool) (lo hi : Nat), P t → P (t.judgeUnseen l b lo hi) := by
    intro t b lo hi h
    unfold State.judgeUnseen
    split
    · exact K.modKnot _ _ (K.submit _ _ _ _ _ h)
    · exact K.submit _ _ _ _ _ h
    · exact K.modKnot _ _ (K.submit _ _ _ _ _ h)
    · exact h
  have mesh : ∀ {t : State} (k : KnotSpec) (p lo hi : Nat), P t → P (t.judgeMesh l k p lo hi) := by
    intro t k p lo hi h
    unfold State.judgeMesh
    split
    · exact h
    · dsimp only
      split
      · exact K.modKnot _ _ (K.submit _ _ _ _ _ h)
      · exact K.submit _ _ _ _ _ h
      · exact K.modKnot _ _ (K.submit _ _ _ _ _ h)
      · exact h
  unfold State.judgeRow
  split
  · exact h
  · refine K.modKnot _ _ (mesh _ _ _ _ (unseen _ _ _ (foldl_keeps (fun t m _ ht => ?_) (K.modKnot _ _ h))))
    exact K.judgedColumn l _ _ _ _ ht

theorem evaluateGate (l : LineId) (h : P s) : P (s.evaluateGate l) := by
  unfold State.evaluateGate
  split
  · exact h
  · split
    · refine K.modScanLink _ _ ?_
      split
      · exact K.judgeRow l _ _ _ (K.modScanLink _ _ h)
      · exact h
    · exact K.modScanLink _ _ h
    · exact h

theorem shaftArrival (l : LineId) (b : Bool) (h : P s) : P (s.shaftArrival l b) := by
  have htake : P (s.takeGate l) := K.modKnot _ _ h
  unfold State.shaftArrival
  dsimp only
  split
  · exact K.evaluateGate l (K.modKnot _ _ htake)
  · split
    · exact K.evaluateGate l htake
    · split
      · exact K.offerCause _ _ _ (K.evaluateGate l (K.modKnot _ _ htake))
      · exact K.evaluateGate l (K.modKnot _ _ htake)

theorem checkParity (k : ScanLink) (l : LineId) (b : Nat) (g : Bool) (h : P s) : P (s.checkParity k l b g) := by
  simp only [State.checkParity]
  repeat (first | exact h | apply K.offerCause | apply K.notify | apply K.modScanLink | split)

theorem setChain (k : ScanLink) (l : LineId) (o : ScanOutcome) (b : Option Nat) (h : P s) : P (s.setChain k l o b) := by
  simp only [State.setChain]
  repeat (first | exact h | apply K.notify | apply K.modScanLink | split)

theorem endScan (k : ScanLink) (l : LineId) (c : Scan) (o : ScanOutcome) (b : Option Nat) (h : P s) :
    P (s.endScan k l c o b) := by
  unfold State.endScan
  dsimp only
  split
  · exact K.setChain k l o b (K.judgeRow l c o b (K.modScanLink _ _ h))
  · refine K.inAnyOrder (fun t e ht => ?_) (K.modScanLink _ _ h)
    cases e with
    | judge => exact K.judgeRow l c o b ht
    | chain => exact K.setChain k l o b ht

theorem boardFrame (k : ScanLink) (w : BitVec 10) (h : P s) : P (s.boardFrame k w) := by
  unfold State.boardFrame
  split
  · have hread : ∀ f l b, P ((s.modScanLink k f).checkParity k l b (parityGood w)) := fun f l b =>
      K.checkParity k l b _ (K.modScanLink k f h)
    dsimp only
    split
    · exact K.endScan k _ _ _ _ (hread _ _ _)
    · exact K.endScan k _ _ _ _ (hread _ _ _)
    · exact K.endScan k _ _ _ _ (hread _ _ _)
    · exact hread _ _ _
  · exact h

/-! ## Channels -/

theorem handCount (c : ChannelId) (b : Bool) (h : P s) : P (s.handCount c b) := by
  unfold State.handCount
  split
  · exact K.lineCount _ _ _ h
  · exact K.lineCount _ _ _ h
  · split
    · exact K.flyerCount _ _ h
    · exact h
  · exact h

theorem illegalStep (c : ChannelId) (d : Nat) (h : P s) : P (s.illegalStep c d) := by
  unfold State.illegalStep
  dsimp only
  split
  · exact K.offerCause _ _ _ (K.modChannel _ _ h)
  · exact K.modChannel _ _ h

theorem shaftStep (c : ChannelId) (a b : Bool) (h : P s) : P (s.shaftStep c a b) := by
  unfold State.shaftStep
  dsimp only
  generalize hlevels : s.modChannel c _ = s1
  have h1 : P s1 := hlevels ▸ K.modChannel _ _ h
  split
  · split
    · split
      · exact K.shaftArrival _ _ h1
      · exact h1
    · exact h1
  · exact h1

theorem spliceStep (c : ChannelId) (a b : Bool) (h : P s) : P (s.spliceStep c a b) := by
  unfold State.spliceStep
  dsimp only
  generalize hlevels : s.modChannel c _ = s1
  have h1 : P s1 := hlevels ▸ K.modChannel _ _ h
  split
  · split
    · exact K.submitSplice _ _ _ (K.modChannel _ _ h1)
    · exact h1
  · exact h1

theorem takeLevels (c : ChannelId) (d : Nat) (a b : Bool) (h : P s) : P (s.takeLevels c d a b) := by
  have quadrature : ∀ p, P (s.quadratureStep c d p) := fun p => K.handCount _ _ (K.modChannel _ _ h)
  unfold State.takeLevels
  dsimp only
  split
  · exact K.modChannel _ _ h
  · exact K.shaftStep _ _ _ h
  · exact K.spliceStep _ _ _ h
  all_goals
    split
    · exact K.illegalStep _ _ h
    · exact quadrature _
    · exact quadrature _
    · exact h

omit K in
theorem ifHeld {held : Nat} {take : State → State} (ht : ∀ t, P t → P (take t)) (h : P s) : P (s.ifHeld held take) := by
  unfold State.ifHeld
  split
  · exact h
  · exact ht _ h

theorem filtered {w : ChannelChange} {take : State → State} (ht : ∀ t, P t → P (take t)) (h : P s) :
    P (s.filtered w take) := ifHeld (fun _ hu => ht _ (K.advanceTo _ hu)) h

end Keeps
end Sys2Proof.Proofs

namespace Sys2Proof.Proofs

open Sys2Proof.Machine Sys2Proof.Safety

namespace Keeps

variable {P : State → Prop} (K : Keeps P) {s : State}

include K

/-! ## Lines and the packing station -/

theorem resetLine (l : LineId) (h : P s) : P (s.resetLine l) := by
  rw [resetLine_eq]
  split
  · exact K.retest _ (K.discard _ _ h)
  · exact K.discard _ _ h

theorem clearGuard (h : P (guardReleased s)) : P s.clearGuard := by
  rw [clearGuard_eq]
  exact K.notify _ _ _ (K.inAnyOrder (fun t l => K.retest l) h)

theorem guardInputTo (x : Bool) (h : P s) : P (s.guardInput x) := by
  have hinput := K.guardInput s x s.guard.armed h
  unfold State.guardInput
  dsimp only
  split
  · rename_i hevent
    exact K.guardEvent _ (by simp_all) hinput
  · exact hinput

theorem enableLane (l : LineId) (h : P s) : P (s.enableLane l) := by
  unfold State.enableLane
  split
  · exact K.lane _ _ _ (fun _ => rfl) h
  · exact K.evaluateGrant _ (K.lane _ _ _ (fun _ => rfl) h)

theorem disableLane (l : LineId) (h : P s) : P (s.disableLane l) := by
  unfold State.disableLane
  split
  · exact K.lane _ _ _ (fun _ => rfl) h
  · exact h
  all_goals exact K.lane _ _ _ (fun _ => rfl) h

theorem coilReadyOn (l : LineId) (h : P s) : P (s.coilReadyOn l) := by
  unfold State.coilReadyOn
  split
  · exact h
  · exact K.evaluateGrant _ (K.lane _ _ _ (fun _ => rfl) h)

theorem coilReadyOff (l : LineId) (h : P s) : P (s.coilReadyOff l) := by
  unfold State.coilReadyOff
  split
  · exact K.lane _ _ _ (fun _ => rfl) h
  · exact h

theorem arrive (h : P s) : P s.arrive := by
  unfold State.arrive
  split
  · rename_i hstate hatt
    exact K.proceedTo _ _ _ ⟨.inl hstate, hatt⟩ (K.pack _ _ (fun _ => ⟨rfl, rfl, rfl, rfl⟩) h)
  · exact h

theorem bandDone (h : P s) : P s.bandDone := by
  unfold State.bandDone
  split
  · rename_i l k hstate hatt _
    have hserve : ∀ f g, (∀ p : PackRec, (g p).state = p.state ∧ (g p).attached = p.attached) →
        InService ((s.modLane l f).modPack g) l := fun f g hg =>
      ⟨.inr (.inl ((hg s.pack).1.trans hstate)), (hg s.pack).2.trans hatt⟩
    unfold State.bandEnds
    split
    · exact h
    · have hcount : ∀ g, P ((s.modLane l (·.onFront g)).modPack fun p => { p with stepTimer := none }) := fun g =>
        K.pack _ _ (fun _ => ⟨rfl, rfl, rfl, rfl⟩) (K.lane _ _ _ (fun r => length_onFront r g) h)
      dsimp only
      split
      · exact K.proceedTo _ _ _ (hserve _ _ fun _ => ⟨rfl, rfl⟩) (hcount _)
      · split
        · exact K.proceedTo _ _ _ (hserve _ _ fun _ => ⟨rfl, rfl⟩) (hcount _)
        · exact K.endService _ _ (hserve _ _ fun _ => ⟨rfl, rfl⟩) (hcount _)
  · exact h

theorem labelDone (h : P s) : P s.labelDone := by
  unfold State.labelDone
  split
  · rename_i hstate hatt
    exact K.endService _ _ ⟨.inr (.inr hstate), hatt⟩ h
  · exact h

theorem clampSlip (h : P s) : P s.clampSlip := by
  unfold State.clampSlip
  split
  · rename_i l k hstate hatt _
    have hcount : ∀ g, P (s.modLane l (·.onFront g)) := fun g => K.lane _ _ _ (fun r => length_onFront r g) h
    have hserve : ∀ f, InService (s.modLane l f) l := fun f => ⟨.inr (.inl hstate), hatt⟩
    unfold State.clampSlips
    dsimp only
    split
    · exact K.restartBand _ _ _ _ (hserve _) (hcount _)
    · exact K.packFault _ _ _ (hserve _) (hcount _)
  · exact h

theorem stepTimeout (d : PackState) (f : PackFault) (hd : d = .travel ∨ d = .banding ∨ d = .labelling) (h : P s) :
    P (s.stepTimeout d f) := by
  unfold State.stepTimeout
  split
  · rename_i hstate
    split
    · rename_i hatt
      exact K.packFault _ _ _ ⟨by simpa [hstate] using hd, by simpa using hatt⟩ (K.advanceTo _ h)
    · exact h
  · exact h

theorem suspendHead (h : P s) : P s.suspendHead := by
  unfold State.suspendHead
  split
  · rename_i hstate; exact K.suspendFree _ hstate h
  · exact h
  · exact h
  all_goals exact K.pack _ _ (fun _ => ⟨rfl, rfl, rfl, rfl⟩) h

theorem holdReqOn (h : P s) : P s.holdReqOn := by
  unfold State.holdReqOn
  split
  · exact h
  · have hreq := K.pack s (fun p => { p with holdReq := true }) (fun _ => ⟨rfl, rfl, rfl, rfl⟩) h
    dsimp only
    split
    · rename_i hstate; exact K.enterHeld _ hstate hreq
    · exact K.pack _ _ (fun _ => ⟨rfl, rfl, rfl, rfl⟩) hreq

theorem holdReqOff (h : P s) : P s.holdReqOff := by
  unfold State.holdReqOff
  split
  · have hreq := K.pack s (fun p => { p with holdReq := false, holdPending := false }) (fun _ => ⟨rfl, rfl, rfl, rfl⟩) h
    dsimp only
    split
    · rename_i hstate; exact K.leaveStop _ (.inr hstate) hreq
    · exact hreq
  · exact h

/-! ## Requests -/

omit K in
theorem cutFree_of_cutRefusal {l : LineId} (h : s.cutRefusal l = none) : CutFree s l := by
  revert h
  unfold State.cutRefusal CutFree HoldSet.any
  dsimp only
  split; · nofun
  split; · nofun
  split; · nofun
  split; · nofun
  split; · nofun
  simp_all

theorem runStart (x : Nat) (h : P s) : Gives P (s.runStart x) := by
  refine .withLine fun l => ?_
  split
  · exact .refuse _
  rename_i hclosed
  split
  · exact .refuse _
  rename_i hlatch
  split
  · exact .refuse _
  rename_i n hslot
  split
  · exact .refuse _
  rename_i r hrecipe
  split
  · exact .refuse _
  split
  · exact .error _
  · exact .accept (K.openRun _ _ _ _ ⟨by simpa using hclosed, by simpa using hlatch, hslot, hrecipe⟩ h)

theorem lineResume (x : Nat) (h : P s) : Gives P (s.lineResume x) := by
  refine .withLine fun l => ?_
  split
  · exact .refuse _
  · split
    · exact .refuse _
    · exact .accept h
  · rename_i hstate
    split
    · exact .refuse _
    · exact .accept (K.resume _ _ hstate h)

/-- What a request's owning block makes of it keeps the law: each handler is refused or accepted in a state that an action
of the block left. -/
theorem handle {c : Instr} {r : RequestForm} (hform : requestForm c = some r)
    (hrel : (∃ tag, c = .guardClear tag) → s.guard.latch = true → P s → P (guardReleased s)) (h : P s) : Gives P (r.handle s) := by
  cases c <;> cases hform
  all_goals dsimp only [State.channelSet, State.channelFree, State.channelRead, State.laneSet, State.packSet, State.packMode,
    State.noticeLevel, State.recipeRead, State.recipeFlush, State.recipePurge, State.runEnd, State.lineStop,
    State.lineReset, State.cutNow, State.laneEnable, State.laneDisable, State.packSuspend, State.packResume,
    State.headClear, State.guardArm, State.guardClear, State.resetAll, State.status, State.lineStatus,
    State.headStatus, State.snapshot, State.spansRead, State.splicesRead, State.coilPeek, State.coilTake,
    State.portFlags, State.knotStatus, State.cutStatus, State.packStatus]
  case channelSet =>
    refine .withChannel fun ch => ?_
    split; · exact .refuse _
    split; · exact .badField _
    split; · exact .badField _
    split; · exact .badField _
    split; · exact .refuse _
    exact .accept (K.modChannel _ _ h)
  case channelFree =>
    refine .withChannel fun ch => ?_
    split
    · exact .refuse _
    · exact .accept (K.modChannel _ _ h)
  case channelRead => exact .withChannel fun ch => .accept (K.modChannel _ _ h)
  case headSet => exact K.headSet _ _ h
  case headFree => exact K.headFree _ _ h
  case lineSet => exact K.lineSet _ _ h
  case laneSet =>
    refine .withLine fun l => ?_
    split; · exact .badField _
    split; · exact .badField _
    split; · exact .refuse _
    exact .accept (K.lane _ _ _ (fun _ => rfl) h)
  case packSet =>
    split; · exact .badField _
    split; · exact .refuse _
    exact .accept (K.pack _ _ (fun _ => ⟨rfl, rfl, rfl, rfl⟩) h)
  case packMode =>
    split; · exact .badField _
    exact .accept (K.pack _ _ (fun _ => ⟨rfl, rfl, rfl, rfl⟩) h)
  case noticeLevel =>
    split; · exact .badField _
    exact .accept (K.link _ _ (fun _ => ⟨rfl, rfl, rfl, rfl⟩) h)
  case recipeStore => exact K.recipeStore _ _ _ h
  case recipeRead =>
    refine .withSlot fun n => ?_
    split
    · exact .refuse _
    · exact .accept h
  case recipeFlush =>
    refine .withSlot fun n => ?_
    split
    · exact .refuse _
    · exact .accept (K.flushSlot _ _ h)
  case recipePurge =>
    refine .withSlot fun n => ?_
    split; · exact .refuse _
    split; · exact .refuse _
    exact .accept (K.invalidateSlot _ _ (K.flushSlot _ _ h))
  case lineBind => exact K.lineBind _ _ _ h
  case runStart => exact K.runStart _ h
  case runEnd =>
    refine .withLine fun l => ?_
    split
    · exact .refuse _
    · rename_i hfree; exact .accept (K.runEnd _ _ (cutFree_of_cutRefusal hfree) h)
  case lineStop =>
    refine .withLine fun l => ?_
    split
    · exact .refuse _
    · exact .accept (K.offerCause _ _ _ h)
  case lineResume => exact K.lineResume _ h
  case lineReset => exact .withLine fun l => .accept (K.resetLine l h)
  case cutNow =>
    refine .withLine fun l => ?_
    split
    · exact .refuse _
    · rename_i hfree; exact .accept (K.cut _ _ _ nofun (cutFree_of_cutRefusal hfree) h)
  case laneEnable => exact .withLine fun l => .accept (K.enableLane l h)
  case laneDisable => exact .withLine fun l => .accept (K.disableLane l h)
  case packSuspend => exact .accept (K.suspendHead h)
  case packResume =>
    split
    · exact .refuse _
    · rename_i hstate; exact .accept (K.resumeHead _ hstate h)
  case headClear =>
    split
    · rename_i hstate; exact .accept (K.leaveStop _ (.inl hstate) h)
    · exact .refuse _
  case guardArm =>
    have harmed := K.guardInput s s.guard.inputActive true h
    refine .accept ?_
    split
    · rename_i hevent
      exact K.guardEvent _ (by simp_all) harmed
    · exact harmed
  case guardClear =>
    split; · exact .accept h
    split; · exact .refuse _
    rename_i hlatch _
    exact .accept (K.clearGuard (hrel ⟨_, rfl⟩ (by simpa using hlatch) h))
  case resetAll => exact .accept h
  case status => exact .accept (K.link _ _ (fun _ => ⟨rfl, rfl, rfl, rfl⟩) h)
  case lineStatus => exact .withLine fun l => .accept (K.line _ _ _ (fun _ => ⟨rfl, rfl, rfl, rfl, rfl⟩) h)
  case headStatus => exact .withHead fun x => .accept h
  case snapshot => exact .accept h
  case spansRead =>
    refine .withLine fun l => ?_
    split
    · exact .badField _
    · exact .accept h
  case splicesRead => exact .withLine fun l => .accept h
  case coilPeek =>
    split
    · exact .refuse _
    · exact .accept h
  case coilTake =>
    refine .withLine fun l => ?_
    split; · exact .badField _
    split; · exact .refuse _
    rename_i hcompleted
    split
    · exact .accept (K.evaluateGrant _ (K.taken _ _ _ hcompleted h))
    · exact .badField _
  case portFlags => exact .accept (K.link _ _ (fun _ => ⟨rfl, rfl, rfl, rfl⟩) h)
  case knotStatus =>
    refine .withLine fun l => ?_
    split; · exact .refuse _
    split
    · exact .accept h
    · exact .refuse _
  case cutStatus => exact .withLine fun l => .accept h
  case packStatus => exact .accept h

end Keeps
end Sys2Proof.Proofs

namespace Sys2Proof.Proofs

open Sys2Proof.Machine Sys2Proof.Safety

/-! ## Events -/

/-- What an event that is none of the link and no reset does, before an idle transmitter chooses. -/
def blockEvent : Instr → Option (State → State)
  | .quadratureCount w phase => some fun s => s.filtered w fun t =>
    match phase with
    | .a => t.takeLevels w.channel w.date (!(s.channel w.channel).refA) (s.channel w.channel).refB
    | .b => t.takeLevels w.channel w.date (s.channel w.channel).refA (!(s.channel w.channel).refB)
  | .illegalTransition w => some fun s => s.filtered w fun t =>
    t.takeLevels w.channel w.date (!(s.channel w.channel).refA) (!(s.channel w.channel).refB)
  | .periodSaturation ch => some fun s =>
    match (s.channel ch).timerFrom with
    | some f => (s.advanceTo (f + 10000000)).modChannel ch fun c => { c with lastPeriod := some 10000000 }
    | none => s
  | .shaftEdge w a b => some fun s => s.filtered w (·.takeLevels w.channel w.date a b)
  | .spliceEdge w a b => some fun s => s.filtered w (·.takeLevels w.channel w.date a b)
  | .phaseLevelChange w a b => some fun s => s.filtered w (·.takeLevels w.channel w.date a b)
  | .markerPulseEnd l => some fun s =>
    match (s.pos l).markerPulse with
    | some e => (s.advanceTo e).modPos l fun p => { p with markerPulse := none }
    | none => s
  | .cutterPulseEnd l => some fun s =>
    match (s.coilRec l).cutterPulse with
    | some e => ((s.advanceTo e).modCoil l fun k => { k with cutterPulse := none }).retestAround l
    | none => s
  | .boardFrame k w => some (·.boardFrame k w)
  | .guardEvent held => some (·.ifHeld held (·.guardInput true))
  | .guardInputChange active held => some (·.ifHeld held (·.guardInput active))
  | .coilReadyActive l held => some (·.ifHeld held (·.coilReadyOn l))
  | .coilReadyInactive l held => some (·.ifHeld held (·.coilReadyOff l))
  | .headAtLane held => some (·.ifHeld held State.arrive)
  | .bandDone held => some (·.ifHeld held State.bandDone)
  | .clampSlip held => some (·.ifHeld held State.clampSlip)
  | .labelDone held => some (·.ifHeld held State.labelDone)
  | .travelTimeout => some (·.stepTimeout .travel .travelTimeout)
  | .bandTimeout => some (·.stepTimeout .banding .bandTimeout)
  | .labelTimeout => some (·.stepTimeout .labelling .labelTimeout)
  | .holdReqActive held => some (·.ifHeld held State.holdReqOn)
  | .holdReqInactive held => some (·.ifHeld held State.holdReqOff)
  | _ => none

theorem exec_eq_done {c : Instr} {f : State → State} (h : blockEvent c = some f) (s : State) : exec c s = done (f s) := by
  cases c <;> cases h
  case periodSaturation ch =>
    simp only [exec, execPeriodSaturation]
    split <;> (rename_i heq; simp only [heq])
  case markerPulseEnd l =>
    simp only [exec, execMarkerPulseEnd]
    split <;> (rename_i heq; simp only [heq])
  case cutterPulseEnd l =>
    simp only [exec, execCutterPulseEnd]
    split <;> (rename_i heq; simp only [heq])
  all_goals rfl

theorem Keeps.blockEvent {P : State → Prop} (K : Keeps P) {s : State} {c : Instr} {f : State → State}
    (hc : blockEvent c = some f) (h : P s) : P (f s) := by
  cases c <;> cases hc
  case quadratureCount w phase =>
    refine K.filtered (fun t ht => ?_) h
    cases phase
    · exact K.takeLevels _ _ _ _ ht
    · exact K.takeLevels _ _ _ _ ht
  case illegalTransition w => exact K.filtered (fun t ht => K.takeLevels _ _ _ _ ht) h
  case periodSaturation ch =>
    dsimp only
    split
    · exact K.modChannel _ _ (K.advanceTo _ h)
    · exact h
  case shaftEdge | spliceEdge | phaseLevelChange => exact K.filtered (fun t ht => K.takeLevels _ _ _ _ ht) h
  case markerPulseEnd l =>
    dsimp only
    split
    · exact K.pos _ _ _ (fun _ => ⟨rfl, .inr rfl⟩) (K.advanceTo _ h)
    · exact h
  case cutterPulseEnd l =>
    dsimp only
    split
    · exact K.retestAround _ (K.coil _ _ _ (fun _ => ⟨rfl, .inr rfl⟩) (K.advanceTo _ h))
    · exact h
  case boardFrame => exact K.boardFrame _ _ h
  case guardEvent | guardInputChange => exact ifHeld (fun t => K.guardInputTo _) h
  case coilReadyActive => exact ifHeld (fun t => K.coilReadyOn _) h
  case coilReadyInactive => exact ifHeld (fun t => K.coilReadyOff _) h
  case headAtLane => exact ifHeld (fun t => K.arrive) h
  case bandDone => exact ifHeld (fun t => K.bandDone) h
  case clampSlip => exact ifHeld (fun t => K.clampSlip) h
  case labelDone => exact ifHeld (fun t => K.labelDone) h
  case travelTimeout => exact K.stepTimeout _ _ (.inl rfl) h
  case bandTimeout => exact K.stepTimeout _ _ (.inr (.inl rfl)) h
  case labelTimeout => exact K.stepTimeout _ _ (.inr (.inr rfl)) h
  case holdReqActive => exact ifHeld (fun t => K.holdReqOn) h
  case holdReqInactive => exact ifHeld (fun t => K.holdReqOff) h

/-! ## The link -/

/-- An action of a block keeps the notice queue's law, and leaves the request buffer and the replies (R163, R166). -/
structure LinkKept (s t : State) : Prop where
  notices : NoticeLaw s → NoticeLaw t
  buffer : t.link.buffer = s.link.buffer
  replies : t.link.replies = s.link.replies
  sending : t.link.sending = s.link.sending

/-- What every action of the link makes of `P`, given what the owning blocks make of a request: `P` before the blocks
act, `Q` after they did. -/
structure WireKeeps (P Q : State → Prop) : Prop where
  weaken : ∀ s : State, P s → Q s
  chooseFrame : ∀ s : State, Q s → Q s.chooseFrame
  serve : ∀ (s : State) (kind tag : Byte) (handle : State → Result), (∀ s, Gives (LinkKept s) (handle s)) →
    (∀ s, P s → Gives Q (handle s)) → P s → Q (s.serve kind tag handle)
  receiver : ∀ (s : State) (f : Link → Link), (∀ k, (f k).buffer = k.buffer ∧ (f k).replies = k.replies ∧
    (f k).sending = k.sending ∧ (f k).notices = k.notices) → P s → P (s.modLink f)
  sent : ∀ (s : State) (f : Frame), s.link.sending = some f → P s → P (s.modLink fun k => { k with
    sending := none, buffer := if f.kind = noticeKind then k.buffer else k.buffer.tail })
  powerUp : ∀ (pins : Pins) (now epoch n : Nat) (duty : Vector Nat 16) (pending : List Instr), Q { State.powerUp pins with
    now := now, epoch := epoch, drivenDuty := duty, choices := n, pending := pending }
  pending : ∀ (s : State) (cs : List Instr), P s → P { s with pending := cs }

/-- The owning blocks' requests and the events of the blocks turn `P` into `Q`, and time keeps `P`. -/
structure BlocksKeep (P Q : State → Prop) : Prop where
  handle : ∀ (s : State) (c : Instr) (r : RequestForm), requestForm c = some r → P s → Gives Q (r.handle s)
  event : ∀ (s : State) (c : Instr) (f : State → State), blockEvent c = some f → P s → Q (f s)
  advanceTo : ∀ (s : State) (t : Nat), P s → P (s.advanceTo t)

theorem Keeps.blocks {P : State → Prop} (K : Keeps P)
    (hrel : ∀ s : State, s.guard.latch = true → P s → P (guardReleased s)) : BlocksKeep P P where
  handle s _ _ hform h := K.handle hform (fun _ => hrel s) h
  event _ _ _ hevent h := K.blockEvent hevent h
  advanceTo _ t h := K.advanceTo t h

section

variable {P Q : State → Prop} (K : BlocksKeep P Q) (W : WireKeeps P Q) (L : ∀ s, BlocksKeep (LinkKept s) (LinkKept s)) {s : State}

include K W L

theorem serveFrame_keeps (kind tag : Byte) (payload : List Byte) (h : P s) : Q (s.serveFrame kind tag payload) := by
  unfold State.serveFrame
  split
  · exact W.serve _ _ _ _ (fun _ => .refuse _) (fun _ _ => .refuse _) h
  · exact W.serve _ _ _ _ (fun _ => .badField _) (fun _ _ => .badField _) h
  · split
    · rename_i hform
      exact W.serve _ _ _ _ (fun t => (L t).handle _ _ _ hform ⟨id, rfl, rfl, rfl⟩) (fun t ht => K.handle _ _ _ hform ht) h
    · exact W.weaken _ h

theorem completeFrame_keeps (got : List Byte) (h : P s) : Q (s.completeFrame got) := by
  have hhunt : P (s.modLink fun k => { k with receiver := .hunt }) := W.receiver _ _ (fun _ => ⟨rfl, rfl, rfl, rfl⟩) h
  unfold State.completeFrame
  dsimp only
  split
  · split
    · exact serveFrame_keeps K W L _ _ _ hhunt
    · exact W.weaken _ hhunt
  · exact W.weaken _ (W.receiver _ _ (fun _ => ⟨rfl, rfl, rfl, rfl⟩) hhunt)

omit K L in
theorem framingError_keeps (h : P s) : P s.framingError := W.receiver _ _ (fun _ => ⟨rfl, rfl, rfl, rfl⟩) h

theorem byteArrives_keeps (b : Byte) (h : P s) : Q (s.byteArrives b) := by
  have taken : ∀ r, P (s.modLink fun k => { k with receiver := r, rxLast := s.now }) := fun r =>
    W.receiver _ _ (fun _ => ⟨rfl, rfl, rfl, rfl⟩) h
  unfold State.byteArrives
  split
  · split
    · exact W.weaken _ (taken _)
    · exact W.weaken _ h
  · unfold State.frameByte
    split
    · split
      · exact W.weaken _ (framingError_keeps W h)
      · exact W.weaken _ (taken _)
    · split
      · exact completeFrame_keeps K W L _ h
      · exact W.weaken _ (taken _)

omit K L in
theorem done_keeps {u t : State} (hu : Q u) (ht : done u = .next t) : Q t := by
  cases ht; exact W.chooseFrame _ hu

/-- The resets and the events of the link. -/
theorem exec_keeps_of_link {c : Instr} {t : State} (hform : requestForm c = none) (hevent : blockEvent c = none) (h : P s)
    (ht : exec c s = .next t) : Q t := by
  have reset : Q s.resetPart := W.powerUp _ _ _ _ _ _
  cases c <;> cases hform <;> cases hevent
  case powerOn pins => cases ht; exact W.powerUp _ _ _ _ _ _
  case resetTakesEffect =>
    simp only [exec, execResetTakesEffect] at ht
    split at ht
    · cases ht; exact reset
    · exact done_keeps W (W.weaken _ h) ht
  case frameComplete b =>
    simp only [exec, execFrameComplete] at ht
    split at ht
    · exact done_keeps W (byteArrives_keeps K W L b h) ht
    · exact done_keeps W (W.weaken _ h) ht
  case frameLengthBroken b =>
    simp only [exec, execFrameLengthBroken] at ht
    split at ht
    · exact done_keeps W (byteArrives_keeps K W L b h) ht
    · exact done_keeps W (W.weaken _ h) ht
  case stopBitError => exact done_keeps W (W.weaken _ (framingError_keeps W h)) ht
  case interByteGap =>
    simp only [exec, execInterByteGap] at ht
    split at ht
    · exact done_keeps W (W.weaken _ h) ht
    · exact done_keeps W (W.weaken _ (framingError_keeps W (K.advanceTo _ _ h))) ht
  case frameSent =>
    simp only [exec, execFrameSent] at ht
    split at ht
    · exact done_keeps W (W.weaken _ h) ht
    · rename_i f hsending
      split at ht
      · cases ht; exact reset
      · exact done_keeps W (W.weaken _ (W.sent s f hsending h)) ht
  case byteReceived b => exact done_keeps W (byteArrives_keeps K W L b h) ht

/-- Every command makes `Q` of `P` if every action of the blocks and of the link does. -/
theorem exec_keeps {c : Instr} {t : State} (h : P s) (ht : exec c s = .next t) : Q t := by
  cases hform : requestForm c with
  | some r =>
    rw [exec_eq_request hform] at ht
    exact done_keeps W (W.serve _ _ _ _ (fun u => (L u).handle _ _ _ hform ⟨id, rfl, rfl, rfl⟩)
      (fun u hu => K.handle _ _ _ hform hu) h) ht
  | none =>
    cases hevent : blockEvent c with
    | some f =>
      rw [exec_eq_done hevent] at ht
      exact done_keeps W (K.event _ _ _ hevent h) ht
    | none => exact exec_keeps_of_link K W L hform hevent h ht

/-- So does every step. -/
theorem step_keeps {t : State} (h : P s) (ht : step s = .next t) : Q t := by
  unfold step at ht
  split at ht
  · cases ht; exact W.weaken _ (K.advanceTo _ _ h)
  · exact exec_keeps K W L (W.pending s _ h) ht

end

/-- Laws that do not speak of the link are kept by its actions. -/
theorem WireKeeps.of_link {P Q : State → Prop} (weaken : ∀ s, P s → Q s)
    (hlink : ∀ (s : State) (k : Link), P s → P { s with link := k })
    (hlink' : ∀ (s : State) (k : Link), Q s → Q { s with link := k })
    (powerUp : ∀ (pins : Pins) (now epoch n : Nat) (duty : Vector Nat 16) (pending : List Instr), Q { State.powerUp pins with
      now := now, epoch := epoch, drivenDuty := duty, choices := n, pending := pending })
    (pending : ∀ (s : State) (cs : List Instr), P s → P { s with pending := cs }) : WireKeeps P Q where
  weaken := weaken
  chooseFrame s h := by
    unfold State.chooseFrame
    split
    · exact h
    · split
      · exact hlink' _ _ h
      · split
        · exact hlink' _ _ h
        · exact h
  serve s kind tag handle _ hgives h := by
    unfold State.serve
    split
    · unfold State.answer
      split
      · rename_i t p ht; exact hlink' _ _ (hgives _ (hlink _ _ h) t p ht)
      · exact weaken _ (hlink _ _ (hlink _ _ (hlink _ _ h)))
    · split
      · exact weaken _ h
      · exact weaken _ (hlink _ _ h)
  receiver _ _ _ h := hlink _ _ h
  sent _ _ _ h := hlink _ _ h
  powerUp := powerUp
  pending := pending

/-- A law that does not speak of the link is kept by its actions. -/
theorem WireKeeps.of_law {P : State → Prop} (hlink : ∀ (s : State) (k : Link), P s → P { s with link := k })
    (powerUp : ∀ (pins : Pins) (now epoch n : Nat) (duty : Vector Nat 16) (pending : List Instr), P { State.powerUp pins with
      now := now, epoch := epoch, drivenDuty := duty, choices := n, pending := pending })
    (pending : ∀ (s : State) (cs : List Instr), P s → P { s with pending := cs }) : WireKeeps P P :=
  .of_link (fun _ h => h) hlink hlink powerUp pending

end Sys2Proof.Proofs

namespace Sys2Proof.Proofs

open Sys2Proof.Machine Sys2Proof.Safety

/-! ## The link's own laws -/

theorem LinkKept.of_link {s t : State} (h : t.link = s.link) : LinkKept s t :=
  ⟨fun hs => by simpa only [NoticeLaw, h] using hs, by rw [h], by rw [h], by rw [h]⟩

theorem LinkKept.of_calm {s t : State} (h : Calm s t) : LinkKept s t := by
  have hlink := h.link
  unfold SameButNotices at hlink
  exact ⟨h.notices, by rw [hlink], by rw [hlink], by rw [hlink]⟩

theorem LinkKept.trans {s t u : State} (a : LinkKept s t) (b : LinkKept t u) : LinkKept s u :=
  ⟨fun h => b.notices (a.notices h), b.buffer.trans a.buffer, b.replies.trans a.replies, b.sending.trans a.sending⟩

theorem LinkKept.guardEvent (s : State) : LinkKept s s.guardEvent := by
  have hlatch : LinkKept s { s with guard := { s.guard with latch := true } } := .of_link rfl
  refine hlatch.trans (.of_calm ?_)
  refine Calm.notify (Calm.modPack (Calm.foldl (fun s t l h => Calm.modCoil h l _) (Calm.foldl (fun s t l h => Calm.modPos h l _)
    (Calm.foldl (fun s t l h => Calm.offerCause h l _) (Calm.refl _)))) _) _ _

theorem LinkKept.packGuardClear (s : State) : LinkKept s s.packGuardClear := by
  rw [packGuardClear_eq]
  split
  · exact .of_calm (.notify (.modPack (.refl s) _) _ _)
  · exact .of_link rfl

theorem LinkKept.guardReleased (s : State) : LinkKept s (guardReleased s) := by
  have hlatch : LinkKept s { s with guard := { s.guard with latch := false } } := .of_link rfl
  refine hlatch.trans (.trans (.of_calm ?_) (.packGuardClear _))
  exact Calm.foldl (fun s t l h => Calm.modLine h l fun _ => ⟨rfl, rfl⟩) (Calm.refl _)

theorem LinkKept.configure (s : State) (l : LineId) (k : ProductKind) (c : LineConfig) : LinkKept s (s.configure l k c) := by
  cases k <;> exact .of_link rfl

/-- Every action of a block keeps the notice queue's law, and leaves the request buffer and the replies. -/
theorem LinkKept.keeps (s : State) : Keeps (LinkKept s) where
  free _ _ _ _ _ _ _ _ h := h.trans (.of_link rfl)
  link t f hf h := by
    refine h.trans ⟨fun ht => ?_, (hf _).1, (hf _).2.1, (hf _).2.2.1⟩
    unfold NoticeLaw
    rw [modLink_link, (hf _).2.2.2]
    exact ht
  notify t l b h := h.trans (.of_calm (.notify (.refl t) l b))
  offerCause t l x h := h.trans (.of_calm (.offerCause (.refl t) l x))
  removeCutHeld t l h := h.trans (.of_calm (.removeCutHeld (.refl t) l))
  submit t l k c x h := h.trans (.of_calm (.submit (.refl t) l k c x))
  submitSplice t l p h := h.trans (.of_calm (.submitSplice (.refl t) l p))
  head _ _ _ _ h := h.trans (.of_link rfl)
  pos _ _ _ _ h := h.trans (.of_link rfl)
  mark _ _ _ _ _ h := h.trans (.of_link rfl)
  moved _ _ _ _ _ h := h.trans (.of_link rfl)
  coil _ _ _ _ h := h.trans (.of_link rfl)
  lane _ _ _ _ h := h.trans (.of_link rfl)
  line _ _ _ _ h := h.trans (.of_link rfl)
  cut t l why _ _ h := h.trans (.of_calm (.performCut (.refl t) l why))
  runEnd t l _ h := h.trans (.of_calm (.performCut (.refl t) l _))
  correct t l x r d b _ _ h := h.trans (.of_calm (.correctTrim (.refl t) l x r d b))
  openRun t l n r _ h := h.trans (.of_calm (.openRun (.refl t) l n r))
  discard t l h := by
    unfold discardRun
    refine h.trans (.of_calm (Calm.modLine ?_ _ fun _ => ⟨rfl, rfl⟩))
    exact Calm.modCoil (Calm.modPos (Calm.modSpanRec (Calm.resetHeads (Calm.knotReset (Calm.releaseFollower (.refl t) l) l) l)
      _ _) _ _) _ _
  resume _ _ _ h := h.trans (.of_link rfl)
  guardInput _ _ _ h := h.trans (.of_link rfl)
  guardEvent t _ h := h.trans (.guardEvent t)
  lineSet t f h := by
    refine .withLine fun l => ?_
    split; · exact .refuse _
    split; · exact .refuse _
    split; · exact .badField _
    split; · exact .refuse _
    exact .accept (h.trans (.configure t _ _ _))
  lineBind t x y h := by
    refine .withLine fun l => .withSlot fun n => ?_
    dsimp only
    split; · exact .refuse _
    split; · exact .badField _
    split; · exact .accept (h.trans (.of_link rfl))
    split; · exact .accept (h.trans (.of_link rfl))
    split; · exact .error _
    exact .accept (h.trans (.of_link rfl))
  headSet t f h := by
    refine .withHead fun x => .withLine fun l => .withChannel fun c => ?_
    split; · exact .badField _
    split
    · split; · exact .badField _
      split; · exact .refuse _
      refine .accept (h.trans ?_)
      split
      · exact .of_link rfl
      · exact .of_link rfl
    · exact .badField _
  headFree t x h := by
    refine .withHead fun y => ?_
    split; · exact .refuse _
    split
    · exact .accept h
    · exact .accept (h.trans (.of_link rfl))
  recipeStore t x f h := by
    refine .withSlot fun n => ?_
    split; · exact .badField _
    · exact .badField _
    split; · exact .refuse _
    exact .accept (h.trans (.of_calm (.invalidateSlot (.setRecipe (.refl t) _ _) n)))
  flushSlot t n h := h.trans (.of_calm (.flushSlot (.refl t) n))
  invalidateSlot t n h := h.trans (.of_calm (.invalidateSlot (.refl t) n))
  pack _ _ _ h := h.trans (.of_link rfl)
  evaluateGrant t h := h.trans (.of_calm (.evaluateGrant (.refl t)))
  enterHeld t _ h := h.trans (.of_calm (.enterHeld (.refl t)))
  suspendFree t _ h := h.trans (.of_calm (.suspend (.refl t) _ _))
  leaveStop t _ h := h.trans (.of_calm (.leaveStop (.refl t)))
  resumeHead t _ h := h.trans (.of_calm (.resumeHead (.refl t)))
  proceedTo t l k _ h := h.trans (.of_calm (.proceedTo (.refl t) l k))
  restartBand t _ k n _ h := h.trans (.of_calm (.startBand (.refl t) k n))
  packFault t l f _ h := h.trans (.of_calm (.packFault (.refl t) l f))
  endService t l _ h := h.trans (.of_calm (.endService (.refl t) l))
  taken _ _ _ _ h := h.trans (.of_link rfl)

theorem LinkKept.released (s t : State) (_ : t.guard.latch = true) (h : LinkKept s t) : LinkKept s (Proofs.guardReleased t) :=
  h.trans (.guardReleased t)

/-- A law of the link that depends on what `LinkKept` keeps is kept by the blocks. -/
theorem BlocksKeep.of_linkKept {P : State → Prop} (hP : ∀ s t, LinkKept s t → P s → P t) : BlocksKeep P P where
  handle s c r hform h t p ht := hP s t ((LinkKept.keeps s).blocks (LinkKept.released s) |>.handle s c r hform (.of_link rfl) t p ht) h
  event s c f hevent h := hP s _ ((LinkKept.keeps s).blockEvent hevent (.of_link rfl)) h
  advanceTo s t h := hP s _ (.of_link (by simp)) h

/-- Every step makes `Q` of `P` if the actions of the blocks and of the link do. -/
theorem BlocksKeep.step {P Q : State → Prop} (K : BlocksKeep P Q) (W : WireKeeps P Q) {s t : State} (h : P s)
    (ht : step s = .next t) : Q t := step_keeps K W (fun s => (LinkKept.keeps s).blocks (LinkKept.released s)) h ht

/-! ## The notice queue (R171) -/

theorem noticeLaw_of_notices {s t : State} (h : t.link.notices = s.link.notices) (hs : NoticeLaw s) : NoticeLaw t := by
  unfold NoticeLaw
  rwa [h]

theorem noticeLaw_chooseFrame (s : State) (h : NoticeLaw s) : NoticeLaw s.chooseFrame := by
  unfold State.chooseFrame
  split
  · exact h
  · split
    · exact h
    · split
      · rename_i n ns hnotices
        obtain ⟨hlen, hord⟩ := h
        rw [hnotices] at hlen hord
        exact ⟨by simp at hlen; simp; omega, (noticesInOrder_cons.mp hord).2⟩
      · exact h

theorem noticeLaw_wire : WireKeeps NoticeLaw NoticeLaw where
  weaken _ h := h
  chooseFrame := noticeLaw_chooseFrame
  serve s kind tag handle _ hgives h := by
    unfold State.serve
    split
    · unfold State.answer
      split
      · rename_i t p ht; exact noticeLaw_of_notices rfl (hgives (s.entered kind tag) h t p ht)
      · exact noticeLaw_of_notices rfl h
    · split
      · exact h
      · exact noticeLaw_of_notices rfl h
  receiver _ _ hf h := noticeLaw_of_notices (hf _).2.2.2 h
  sent _ _ _ h := h
  powerUp _ _ _ _ _ _ := ⟨Nat.zero_le _, trivial⟩
  pending _ _ h := h

/-- Settles O16: the blocks only offer notices, and the transmitter takes the first. -/
theorem everyStepKeepsNoticeQueue : Obligations.EveryStepKeepsNoticeQueue := by
  intro s s' h hstep
  exact BlocksKeep.step (.of_linkKept fun _ _ hk => hk.notices) noticeLaw_wire h hstep

/-! ## The request buffer (R163, R166) -/

/-- The replies queued or being sent. -/
def owedReplies (k : Link) : Nat :=
  k.replies.length + (match k.sending with
    | some f => if f.kind = 0xF0#8 then 0 else 1
    | none => 0)

theorem bufferLaw_iff (s : State) :
    BufferLaw s ↔ s.link.buffer.length ≤ 2 ∧ owedReplies s.link ≤ s.link.buffer.length := Iff.rfl

theorem bufferLaw_of_link {s t : State} (hb : t.link.buffer = s.link.buffer) (hr : t.link.replies = s.link.replies)
    (hs : t.link.sending = s.link.sending) (h : BufferLaw s) : BufferLaw t := by
  unfold BufferLaw
  rwa [hb, hr, hs]

theorem bufferLaw_chooseFrame (s : State) (h : BufferLaw s) : BufferLaw s.chooseFrame := by
  obtain ⟨hroom, howed⟩ := h
  unfold State.chooseFrame
  split
  · exact ⟨hroom, howed⟩
  · rename_i hidle
    rw [hidle] at howed
    split
    · rename_i f fs hreplies
      rw [hreplies] at howed
      refine ⟨hroom, ?_⟩
      simp only [modLink_link]
      simp only [List.length_cons] at howed
      split <;> omega
    · rename_i hreplies
      split
      · exact ⟨hroom, by simp [hreplies, Notice.toFrame]⟩
      · exact ⟨hroom, by simp [hreplies, hidle]⟩

theorem bufferLaw_serve (s : State) (kind tag : Byte) (handle : State → Result)
    (hlink : ∀ s, Gives (LinkKept s) (handle s)) (h : BufferLaw s) : BufferLaw (s.serve kind tag handle) := by
  rw [bufferLaw_iff] at h ⊢
  obtain ⟨hroom, howed⟩ := h
  unfold State.serve
  split
  · rename_i htakes
    -- the request enters the buffer, and its reply takes the place it has there
    have hfree : s.link.buffer.length < 2 := by simpa [Link.takesRequest] using (Bool.and_eq_true_iff.mp htakes).2
    unfold State.answer
    split
    · rename_i t p ht
      have hkept := hlink _ t p ht
      have howed' : owedReplies t.link = owedReplies s.link := by
        simp only [owedReplies, hkept.replies, hkept.sending, State.entered, modLink_link]
      have hbuffer : t.link.buffer.length = s.link.buffer.length + 1 := by
        rw [hkept.buffer]; simp [State.entered]
      simp only [State.queueReply, modLink_link, owedReplies, List.length_append, List.length_singleton, hbuffer] at *
      omega
    · simp only [State.refused, State.queueReply, State.entered, modLink_link, owedReplies, List.length_append,
        List.length_singleton] at *
      omega
  · split
    · exact ⟨hroom, howed⟩
    · exact ⟨hroom, howed⟩

theorem bufferLaw_sent (s : State) (f : Frame) (hsending : s.link.sending = some f) (h : BufferLaw s) :
    BufferLaw (s.modLink fun k => { k with
      sending := none, buffer := if f.kind = noticeKind then k.buffer else k.buffer.tail }) := by
  obtain ⟨hroom, howed⟩ := h
  rw [hsending] at howed
  rw [bufferLaw_iff]
  simp only [modLink_link, noticeKind, owedReplies]
  by_cases hnotice : f.kind = 0xF0#8
  · simp only [hnotice, if_true] at howed ⊢
    exact ⟨hroom, howed⟩
  · simp only [hnotice, if_false, List.length_tail] at howed ⊢
    omega

theorem bufferLaw_wire : WireKeeps BufferLaw BufferLaw where
  weaken _ h := h
  chooseFrame := bufferLaw_chooseFrame
  serve s kind tag handle hlink _ h := bufferLaw_serve s kind tag handle hlink h
  receiver _ _ hf h := bufferLaw_of_link (hf _).1 (hf _).2.1 (hf _).2.2.1 h
  sent := bufferLaw_sent
  powerUp _ _ _ _ _ _ := ⟨Nat.zero_le _, Nat.zero_le _⟩
  pending _ _ h := h

theorem step_keeps_bufferLaw {s t : State} (h : BufferLaw s) (ht : step s = .next t) : BufferLaw t :=
  BlocksKeep.step (.of_linkKept fun _ _ hk => bufferLaw_of_link hk.buffer hk.replies hk.sending) bufferLaw_wire h ht

end Sys2Proof.Proofs

/-! The laws of a line that speak of its state, its causes, its position, its open coil and its lists (R4, R5, R41, R114, R118). -/

namespace Sys2Proof.Proofs

open Sys2Proof.Machine Sys2Proof.Safety

/-- What those laws speak of: the start of the open coil is absent without one. -/
structure LineData where
  state : LineState
  causes : CauseSet
  position : Nat
  start : Option Nat
  spans : SpanRec

def lineData (s : State) (l : LineId) : LineData where
  state := (s.line l).state
  causes := (s.line l).causes
  position := (s.pos l).position
  start := (s.coilRec l).coil.map (·.start)
  spans := s.spanRec l

/-- What an event can do to the two lists of a line, but for emptying them (R116 to R122). -/
inductive ListStep (r : SpanRec) : SpanRec → Prop
  | same {r' : SpanRec} : r'.spans = r.spans → r'.splices = r.splices → ListStep r r'
  | onOpen (k : SpanKey) (f : SpanEntry → SpanEntry) : (∀ e, (f e).start = e.start ∧ (f e).arrival = e.arrival ∧
      ((f e).isOpen = false → e.isOpen = false ∧ (f e).stop = e.stop ∨ ∃ x, (f e).stop = some x ∧ e.start ≤ x)) →
      ListStep r (r.onOpen k f)
  | stored {r' : SpanRec} (e : SpanEntry) : r.spans.length < 48 → e.isOpen = true → r'.spans = insertEntry e r.spans →
      r'.splices = r.splices → ListStep r r'
  | spliced {r' : SpanRec} (x : Nat) : r.splices.length < 16 → r'.splices = insertSplice x r.splices →
      r'.spans = r.spans → ListStep r r'
  | taken (c : Nat) : ListStep r (r.afterTake c)

theorem storeSpan_step (s : State) (l : LineId) (k : SpanKind) (c : SpanSource) (start : Nat) (stop : Option Nat) (worst : Nat) :
    ListStep (s.spanRec l) ((s.storeSpan l k c start stop worst).spanRec l) := by
  unfold State.storeSpan
  dsimp only
  split
  · split
    · exact .same (by simp) (by simp)
    · exact .same (by simp) (by simp)
  · rename_i hroom
    rw [modSpanRec_spanRec_self]
    exact .stored _ (by omega) rfl rfl rfl

theorem extended_mild (stop : Option Nat) (worst : Nat) (e : SpanEntry) :
    (e.extended stop worst).start = e.start ∧ (e.extended stop worst).arrival = e.arrival ∧
      ((e.extended stop worst).isOpen = false → e.isOpen = false ∧ (e.extended stop worst).stop = e.stop ∨
        ∃ x, (e.extended stop worst).stop = some x ∧ e.start ≤ x) := by
  refine ⟨rfl, rfl, fun h => ?_⟩
  cases stop with
  | none => exact .inl ⟨h, rfl⟩
  | some x => exact .inr ⟨_, rfl, Nat.le_max_right _ _⟩

theorem upgraded_mild (e : SpanEntry) : e.upgraded.start = e.start ∧ e.upgraded.arrival = e.arrival ∧
    (e.upgraded.isOpen = false → e.isOpen = false ∧ e.upgraded.stop = e.stop ∨ ∃ x, e.upgraded.stop = some x ∧ e.start ≤ x) :=
  ⟨rfl, rfl, fun h => .inl ⟨h, rfl⟩⟩

theorem closed_mild (stop : Nat) (e : SpanEntry) : (e.closed stop).start = e.start ∧ (e.closed stop).arrival = e.arrival ∧
    ((e.closed stop).isOpen = false → e.isOpen = false ∧ (e.closed stop).stop = e.stop ∨
      ∃ x, (e.closed stop).stop = some x ∧ e.start ≤ x) :=
  ⟨rfl, rfl, fun _ => .inr ⟨_, rfl, Nat.le_max_right _ _⟩⟩

theorem submit_step (s : State) (l : LineId) (k : SpanKind) (c : SpanSource) (x : Submission) :
    ListStep (s.spanRec l) ((s.submit l k c x).spanRec l) := by
  have onOpen : ∀ key f, (∀ e : SpanEntry, (f e).start = e.start ∧ (f e).arrival = e.arrival ∧
      ((f e).isOpen = false → e.isOpen = false ∧ (f e).stop = e.stop ∨ ∃ x, (f e).stop = some x ∧ e.start ≤ x)) →
      ListStep (s.spanRec l) ((s.modSpanRec l (·.onOpen key f)).spanRec l) := by
    intro key f hf
    rw [modSpanRec_spanRec_self]
    exact .onOpen key f hf
  unfold State.submit
  dsimp only
  split; · exact .same rfl rfl
  split
  · cases x with
    | openOrExtend => exact onOpen _ _ (extended_mild _ _)
    | openSpan => exact onOpen _ _ (extended_mild _ _)
    | extend => exact onOpen _ _ (extended_mild _ _)
    | upgrade =>
      dsimp only
      split
      · exact onOpen _ _ upgraded_mild
      · exact .same rfl rfl
    | close => exact onOpen _ _ (closed_mild _)
  split
  · cases x with
    | close => exact .same (by simp) (by simp)
    | _ => exact .same rfl rfl
  · cases x with
    | openOrExtend => exact storeSpan_step _ _ _ _ _ _ _
    | openSpan => exact storeSpan_step _ _ _ _ _ _ _
    | _ => exact .same rfl rfl

theorem submitSplice_step (s : State) (l : LineId) (x : Nat) :
    ListStep (s.spanRec l) ((s.submitSplice l x).spanRec l) := by
  unfold State.submitSplice
  dsimp only
  split; · exact .same rfl rfl
  split; · exact .same rfl rfl
  split; · exact .same rfl rfl
  split
  · rename_i hroom
    rw [modSpanRec_spanRec_self]
    exact .spliced x hroom rfl rfl
  · split
    · exact .same (by simp) (by simp)
    · exact .same (by simp) (by simp)

theorem submitSplice_spanRec_of_ne (s : State) {l y : LineId} (h : y ≠ l) (x : Nat) :
    (s.submitSplice l x).spanRec y = s.spanRec y := by
  unfold State.submitSplice
  dsimp only
  split; · rfl
  split; · rfl
  split; · rfl
  split; · simp [h]
  split <;> simp [h]

/-- A law of a line's data that each event of the line keeps. -/
structure LineLaw (q : LineData → Prop) : Prop where
  offered : ∀ (d : LineData) (r : LineRec) (x : StopCause), r.state = d.state → r.causes = d.causes → q d →
    q { d with state := (afterOffer r x).state, causes := (afterOffer r x).causes }
  released : ∀ d : LineData, q d → q { d with
    causes := d.causes.drop .cutHeld
    state := if d.causes.cutHeld = true ∧ d.state = .stopRequested ∧ d.causes.drop .cutHeld = .empty then .running
      else d.state }
  listed : ∀ (d : LineData) (r : SpanRec), ListStep d.spans r → q d → q { d with spans := r }
  moved : ∀ (d : LineData) (pitch : Nat) (b : Bool), q d →
    q { d with position := (movedPosition (d.start.getD 0) pitch d.position b).1 }
  nextCoil : ∀ d : LineData, q d → q { d with start := d.start.map fun _ => d.position }
  opened : ∀ d : LineData, q d → q ⟨.running, .empty, 0, some 0, { d.spans.emptied with arrival := 0 }⟩
  ended : ∀ d : LineData, q d → q ⟨.idle, d.causes.guardOnly, d.position, none, d.spans.emptied⟩
  discarded : ∀ d : LineData, q d → q ⟨.idle, d.causes.guardOnly, 0, none, d.spans.emptied⟩
  resumed : ∀ (d : LineData) (c : CauseSet), d.state = .stopRequested → q d →
    q { d with causes := c, state := if c = .empty then .running else .stopRequested }
  unguarded : ∀ d : LineData, q d → q { d with causes := d.causes.drop .guard }
  initial : q ⟨.idle, .empty, 0, none, ⟨[], [], 0, 0, [], 0, 0⟩⟩

/-- Every line's data meet a law. -/
def Lines (q : LineData → Prop) (s : State) : Prop := ∀ l, q (lineData s l)

variable {q : LineData → Prop} {s : State}

/-- An action that leaves the data of every line. -/
theorem Lines.of_same {t : State} (he : ∀ l, lineData t l = lineData s l) (h : Lines q s) : Lines q t := fun l => by
  rw [he]; exact h l

/-- An action that changes the data of one line. -/
theorem Lines.of_one {t : State} (l : LineId) (d : LineData) (hl : lineData t l = d) (hd : q d)
    (hne : ∀ x, x ≠ l → lineData t x = lineData s x) (h : Lines q s) : Lines q t := fun x => by
  by_cases hx : x = l
  · rw [hx, hl]; exact hd
  · rw [hne x hx]; exact h x

namespace LineLaw

variable (Q : LineLaw q)

include Q

theorem submit (l : LineId) (k : SpanKind) (c : SpanSource) (x : Submission) (h : Lines q s) :
    Lines q (s.submit l k c x) :=
  h.of_one l { lineData s l with spans := (s.submit l k c x).spanRec l } (by simp [lineData])
    (Q.listed _ _ (submit_step s l k c x) (h l)) fun y hy => by simp [lineData, hy]

theorem submitSplice (l : LineId) (x : Nat) (h : Lines q s) : Lines q (s.submitSplice l x) :=
  h.of_one l { lineData s l with spans := (s.submitSplice l x).spanRec l } (by simp [lineData])
    (Q.listed _ _ (submitSplice_step s l x) (h l)) fun y hy => by simp [lineData, submitSplice_spanRec_of_ne s hy]

theorem offerCause (l : LineId) (x : StopCause) (h : Lines q s) : Lines q (s.offerCause l x) :=
  h.of_one l { lineData s l with state := (afterOffer (s.line l) x).state, causes := (afterOffer (s.line l) x).causes }
    (by simp [lineData]) (Q.offered _ (s.line l) x rfl rfl (h l)) fun y hy => by simp [lineData, hy]

theorem removeCutHeld (l : LineId) (h : Lines q s) : Lines q (s.removeCutHeld l) :=
  h.of_one l _ (by simp only [lineData, removeCutHeld_line_self, removeCutHeld_same]; rfl) (Q.released _ (h l))
    fun y hy => by simp [lineData, hy]

omit Q in
theorem modCoil (l : LineId) (f : CoilRec → CoilRec) (hf : ∀ k, (f k).coil.map (·.start) = k.coil.map (·.start))
    (h : Lines q s) : Lines q (s.modCoil l f) := by
  refine h.of_same fun y => ?_
  by_cases hy : y = l
  · subst hy; simp [lineData, hf]
  · simp [lineData, hy]

omit Q in
theorem modPos (l : LineId) (f : PositionRec → PositionRec) (hf : ∀ p, (f p).position = p.position) (h : Lines q s) :
    Lines q (s.modPos l f) := by
  refine h.of_same fun y => ?_
  by_cases hy : y = l
  · subst hy; simp [lineData, hf]
  · simp [lineData, hy]

omit Q in
theorem modLine (l : LineId) (f : LineRec → LineRec) (hf : ∀ r, (f r).state = r.state ∧ (f r).causes = r.causes)
    (h : Lines q s) : Lines q (s.modLine l f) := by
  refine h.of_same fun y => ?_
  by_cases hy : y = l
  · subst hy; simp [lineData, hf]
  · simp [lineData, hy]

theorem closeCoil (l : LineId) (why : CutReason) (own : Bool) (p : Option (LineId × Nat)) (m : Bool) (h : Lines q s) :
    Lines q (s.closeCoil l why own p m) := by
  unfold State.closeCoil
  split
  · exact h.of_one l { lineData s l with spans := (s.spanRec l).afterTake (s.pos l).position } (by simp [lineData])
      (Q.listed _ _ (.taken _) (h l)) fun y hy => by simp [lineData, hy]
  · exact h

theorem openNextCoil (l : LineId) (h : Lines q s) : Lines q (s.openNextCoil l) :=
  h.of_one l _ (by simp [lineData, State.openNextCoil, Function.comp_def]) (Q.nextCoil _ (h l)) fun y hy => by
    simp [lineData, State.openNextCoil, hy]

theorem keepsCuts : KeepsCuts (Lines q) where
  free _ _ _ _ _ _ _ _ h := h
  notify _ _ _ h := h.of_same fun y => by simp [lineData]
  submit _ l k c x h := Q.submit l k c x h
  setRecipe _ _ _ h := h
  setCopy _ _ _ h := h
  head _ _ _ _ h := h
  bound _ l f hf h := modLine l f (fun r => ⟨(hf r).1, (hf r).2.1⟩) h
  removeCutHeld _ l h := Q.removeCutHeld l h
  pos _ l f hf h := modPos l f (fun p => (hf p).1) h
  coil _ l f hf h := modCoil l f hf h
  closeCoil _ l why own p m h := Q.closeCoil l why own p m h
  openNextCoil _ l h := Q.openNextCoil l h
  evaluateGrant _ h := evaluateGrant_keeps (fun _ _ h => h) (fun _ _ _ _ h => h) h

theorem endRun (l : LineId) (h : Lines q s) : Lines q (s.endRun l) := by
  have hmeasures : Lines q (endMeasures s l) := by
    have habandon : Lines q (s.abandonScan l) := by
      unfold State.abandonScan
      split
      · exact h.of_same fun y => by simp [lineData]
      · exact h
    refine Q.keepsCuts.modHeads _ _ (fun _ => rfl) ?_
    split
    · exact habandon
    · exact habandon
  rw [endRun_eq]
  exact hmeasures.of_one l _ (by simp [lineData, endRecords]) (Q.ended _ (hmeasures l)) fun y hy => by
    simp [lineData, endRecords, hy]

theorem openRun (l : LineId) (n : Slot) (r : Recipe) (h : Lines q s) : Lines q (s.openRun l n r) := by
  have K := Q.keepsCuts
  have hknot : ∀ t, Lines q t → Lines q (t.knotRunStart l) := by
    intro t ht
    unfold State.knotRunStart
    split
    · exact ht
    · dsimp only
      split
      · exact K.modScanLink _ _ (K.modKnot l _ ht)
      · exact K.modKnot l _ ht
  have hprepared : Lines q (runPrepared s l n) :=
    K.modChannels _ _ (hknot _ (K.modHeads _ _ (fun _ => rfl) (K.bindPending l _ _ (K.evictAndLoad _ _ h))))
  have hrecords : ∀ w, Lines q (runRecords (runPrepared s l n) l n r w) := fun w =>
    hprepared.of_one l _ (by simp [lineData, runRecords]) (Q.opened _ (hprepared l)) fun y hy => by
      simp [lineData, runRecords, hy]
  have hdrop : ∀ t x, Lines q t → Lines q (t.dropPlacement x) := by
    intro t x ht
    unfold State.dropPlacement
    split
    · exact ht
    · exact LineLaw.modCoil x _ (fun _ => rfl) ht
    · exact Q.removeCutHeld x (LineLaw.modCoil x _ (fun _ => rfl) ht)
  rw [openRun_eq]
  dsimp only
  split
  · exact hdrop _ _ (hrecords _)
  · exact hrecords _

theorem discardRun (l : LineId) (h : Lines q s) : Lines q (discardRun s l) := by
  have hfollower : Lines q (s.releaseFollower l) := by
    unfold State.releaseFollower
    split
    · split
      · exact LineLaw.modCoil _ _ (fun _ => rfl) (Q.removeCutHeld _ h)
      · exact h
    · exact h
  have hknot : Lines q ((s.releaseFollower l).knotReset l) := by
    unfold State.knotReset State.abandonScan
    split
    · refine Lines.of_same (fun y => ?_) hfollower
      split <;> simp [lineData]
    · exact hfollower
  have hheads : Lines q (((s.releaseFollower l).knotReset l).resetHeads l) := by
    unfold State.resetHeads
    refine foldl_keeps (fun t x _ ht => ?_) hknot
    exact ht
  unfold Proofs.discardRun
  dsimp only
  generalize ((s.releaseFollower l).knotReset l).resetHeads l = t at hheads ⊢
  exact hheads.of_one l _ (by simp [lineData]) (Q.discarded _ (hheads l)) fun y hy => by simp [lineData, hy]

omit Q in
theorem invalidateSlot (n : Slot) (h : Lines q s) : Lines q (s.invalidateSlot n) := by
  unfold State.invalidateSlot
  refine foldl_keeps (fun t x _ ht => ?_) h
  exact ht

theorem guardEvent (h : Lines q s) : Lines q s.guardEvent := by
  have hpack : ∀ t f, Lines q t → Lines q (State.modPack t f) := fun _ _ ht => ht
  unfold State.guardEvent
  refine Q.keepsCuts.notify _ _ _ (hpack _ _ (foldl_keeps (fun t x _ ht => ?_) (foldl_keeps (fun t x _ ht => ?_)
    (foldl_keeps (fun t x _ ht => Q.offerCause x _ ht) ?_))))
  · exact modCoil x _ (fun _ => rfl) ht
  · exact modPos x _ (fun _ => rfl) ht
  · exact h

theorem guardReleased (h : Lines q s) : Lines q (guardReleased s) := by
  have hdropped : Lines q (LineId.all.foldl (fun (s : State) l => s.modLine l fun r => { r with causes := r.causes.drop .guard })
      { s with guard := { s.guard with latch := false } }) := by
    refine foldl_keeps (fun t x _ ht => ?_) h
    exact ht.of_one x _ (by simp [lineData]) (Q.unguarded _ (ht x)) fun y hy => by simp [lineData, hy]
  unfold Proofs.guardReleased
  rw [packGuardClear_eq]
  split
  · exact Q.keepsCuts.notify _ _ _ hdropped
  · exact hdropped

theorem keepsCounts : KeepsCounts (Lines q) where
  free _ _ _ _ _ _ _ _ h := h
  notify := Q.keepsCuts.notify
  offerCause _ l x h := Q.offerCause l x h
  removeCutHeld _ l h := Q.removeCutHeld l h
  submit _ l k c x h := Q.submit l k c x h
  head _ _ _ _ h := h
  pos _ l f hf h := modPos l f (fun p => (hf p).1) h
  mark _ l f _ hf h := modPos l f hf h
  coil _ l f hf h := modCoil l f (fun k => (hf k).1) h
  cut _ l why hwhy _ h := Q.keepsCuts.performCut l why (fun e => absurd e hwhy) h
  correct t l x r d b _ _ h := by
    have hset : Lines q (trimSet t x r d b) := by
      unfold trimSet
      dsimp only
      split
      · exact Q.keepsCuts.remark x h
      · exact h
    rw [correctTrim_eq]
    split
    · exact Q.offerCause _ _ hset
    · exact hset

theorem keeps : Keeps (Lines q) where
  toKeepsCounts := Q.keepsCounts
  toKeepsStation := .of_free (fun _ _ h => h) (fun _ _ _ _ h => h) Q.keepsCounts (fun _ _ h => h) (fun _ _ _ _ _ h => h)
  link _ _ _ h := h
  submitSplice _ l x h := Q.submitSplice l x h
  moved t l pitch b g h := h.of_one l { lineData t l with
      position := (movedPosition (t.coilStart l) pitch (t.pos l).position b).1 } (by simp [lineData])
    (by
      have hstart : t.coilStart l = (lineData t l).start.getD 0 := by
        unfold State.coilStart lineData
        cases (t.coilRec l).coil <;> rfl
      rw [hstart]
      exact Q.moved _ pitch b (h l)) fun y hy => by simp [lineData, hy]
  line _ l f hf h := modLine l f (fun r => ⟨(hf r).1, (hf r).2.1⟩) h
  runEnd _ l _ h := Q.keepsCuts.performCut l _ (fun _ _ x => Q.endRun x) h
  openRun _ l n r _ h := Q.openRun l n r h
  discard _ l h := Q.discardRun l h
  resume t l hstate h := h.of_one l _ (by simp [lineData, State.resumeLine])
    (Q.resumed _ (t.causesLeft l (t.line l).causes) hstate (h l)) fun y hy => by simp [lineData, State.resumeLine, hy]
  guardInput _ _ _ h := h
  guardEvent _ _ h := Q.guardEvent h
  lineSet t f h := by
    refine .withLine fun l => ?_
    split; · exact .refuse _
    split; · exact .refuse _
    split; · exact .badField _
    split; · exact .refuse _
    refine .accept ?_
    have hline := modLine (s := t) l (fun r => { r with
      kind := Machine.LineSetArgs.kindStored f, cfg := Machine.LineSetArgs.config f }) (fun _ => ⟨rfl, rfl⟩) h
    unfold State.configure
    split
    · exact hline
    · exact hline
  lineBind t x y h := by
    have hbind : ∀ l (b : LineRec → Option Slot) p,
        Lines q (t.modLine l fun r => { r with bound := b r, pendingRecipe := p }) := fun l b p =>
      modLine l _ (fun _ => ⟨rfl, rfl⟩) h
    refine .withLine fun l => .withSlot fun n => ?_
    dsimp only
    split; · exact .refuse _
    split; · exact .badField _
    split; · exact .accept (hbind l (fun _ => some n) _)
    split; · exact .accept (hbind l (·.bound) _)
    split; · exact .error _
    exact .accept (hbind l (·.bound) _)
  headSet t f h := by
    refine .withHead fun x => .withLine fun l => .withChannel fun c => ?_
    split; · exact .badField _
    split
    · split; · exact .badField _
      split; · exact .refuse _
      refine .accept ?_
      split
      · exact h
      · exact h
    · exact .badField _
  headFree t x h := by
    refine .withHead fun y => ?_
    split; · exact .refuse _
    split
    · exact .accept h
    · exact .accept h
  recipeStore t x f h := by
    refine .withSlot fun n => ?_
    split; · exact .badField _
    · exact .badField _
    split; · exact .refuse _
    exact .accept (LineLaw.invalidateSlot n h)
  flushSlot _ n h := Q.keepsCuts.remarkSlot n (foldl_keeps (fun _ x _ => Q.keepsCuts.writeBack x) h)
  invalidateSlot _ n h := LineLaw.invalidateSlot n h

end LineLaw

end Sys2Proof.Proofs

namespace Sys2Proof.Proofs

open Sys2Proof.Machine Sys2Proof.Safety

/-! ## Causes, coil and position -/

theorem afterOffer_idle_iff (r : LineRec) (x : StopCause) : (afterOffer r x).state = .idle ↔ r.state = .idle := by
  unfold afterOffer
  cases hs : r.state with
  | idle => by_cases hx : x = .guard <;> simp [hx, hs]
  | running | stopRequested => simp

/-- `CausesLaw`, of a line's data. -/
def CausesOf (d : LineData) : Prop :=
  (d.state = .running → d.causes = .empty) ∧ (d.state = .idle → d.causes = d.causes.guardOnly)

theorem causesOf_law : LineLaw CausesOf where
  offered d r x hs hc h := by
    cases hd : d.state with
    | running | stopRequested =>
      have hstate : (afterOffer r x).state = .stopRequested := by simp only [afterOffer, hs, hd]
      exact ⟨fun hr => by simp [hstate] at hr, fun hr => by simp [hstate] at hr⟩
    | idle =>
      have hstate : (afterOffer r x).state = .idle := (afterOffer_idle_iff r x).mpr (hs.trans hd)
      refine ⟨fun hr => by simp [hstate] at hr, fun _ => ?_⟩
      have hcauses := h.2 hd
      simp only [afterOffer, hs, hd]
      split
      · rename_i hx
        rw [hc, hcauses, hx]
        rfl
      · rwa [hc]
  released d h := by
    obtain ⟨hrun, hidle⟩ := h
    unfold CausesOf
    dsimp only
    split
    · rename_i hlast
      exact ⟨fun _ => hlast.2.2, nofun⟩
    · exact ⟨fun hs => by rw [hrun hs]; rfl, fun hs => by rw [hidle hs]; rfl⟩
  listed _ _ _ h := h
  moved _ _ _ h := h
  nextCoil _ h := h
  opened _ _ := ⟨fun _ => rfl, nofun⟩
  ended _ _ := ⟨nofun, fun _ => rfl⟩
  discarded _ _ := ⟨nofun, fun _ => rfl⟩
  resumed d c _ _ := by
    unfold CausesOf
    dsimp only
    split
    · rename_i hc; exact ⟨fun _ => hc, nofun⟩
    · exact ⟨nofun, nofun⟩
  unguarded d h := ⟨fun hs => by rw [h.1 hs]; rfl, fun hs => by rw [h.2 hs]; rfl⟩
  initial := ⟨fun _ => rfl, fun _ => rfl⟩

/-- `CoilLaw`, of a line's data. -/
def CoilOf (d : LineData) : Prop := d.start.isSome = decide (d.state ≠ .idle)

theorem coilOf_law : LineLaw CoilOf where
  offered d r x hs _ h := by
    have hidle : (afterOffer r x).state = .idle ↔ d.state = .idle := hs ▸ afterOffer_idle_iff r x
    simp only [CoilOf, ne_eq, hidle]
    exact h
  released d h := by
    unfold CoilOf at h ⊢
    dsimp only
    split
    · rename_i hlast; simpa [hlast.2.1] using h
    · exact h
  listed _ _ _ h := h
  moved _ _ _ h := h
  nextCoil d h := by simpa [CoilOf] using h
  opened _ _ := rfl
  ended _ _ := rfl
  discarded _ _ := rfl
  resumed d c hs h := by
    unfold CoilOf at h ⊢
    dsimp only
    split <;> simpa [hs] using h
  unguarded _ h := h
  initial := rfl

/-- `PositionLaw`, of a line's data. -/
def PositionOf (d : LineData) : Prop := ∀ c, d.start = some c → c ≤ d.position ∧ d.position ≤ ceiling

theorem positionOf_law : LineLaw PositionOf where
  offered _ _ _ _ _ h := h
  released _ h := h
  listed _ _ _ h := h
  moved d pitch b h c hc := by
    obtain ⟨hfloor, htop⟩ := h c hc
    dsimp only at hc ⊢
    rw [hc, Option.getD_some, movedPosition]
    cases b with
    | true => simp only [if_true]; split <;> dsimp only <;> omega
    | false => simp only [Bool.false_eq_true, if_false]; split <;> dsimp only <;> omega
  nextCoil d h c hc := by
    obtain ⟨c', hc', rfl⟩ := Option.map_eq_some_iff.mp hc
    exact ⟨Nat.le_refl _, (h c' hc').2⟩
  opened _ _ c hc := by cases hc; exact ⟨Nat.le_refl _, Nat.zero_le _⟩
  ended _ _ _ hc := nomatch hc
  discarded _ _ _ hc := nomatch hc
  resumed _ _ _ h := h
  unguarded _ h := h
  initial _ hc := nomatch hc

/-! ## Span and splice lists -/

theorem length_insertEntry (e : SpanEntry) (es : List SpanEntry) : (insertEntry e es).length = es.length + 1 := by
  rw [insertEntry_eq, List.length_append, List.length_cons, ← Nat.add_assoc, ← List.length_append,
    List.takeWhile_append_dropWhile]

theorem mem_insertEntry {n x : SpanEntry} {es : List SpanEntry} : x ∈ insertEntry n es ↔ x = n ∨ x ∈ es := by
  induction es with
  | nil => simp [insertEntry]
  | cons e es ih =>
    unfold insertEntry
    split
    · rw [List.mem_cons, ih, List.mem_cons]
      exact or_left_comm
    · rw [List.mem_cons]

theorem length_insertSplice (x : Nat) (xs : List Nat) : (insertSplice x xs).length = xs.length + 1 := by
  rw [insertSplice_eq, List.length_append, List.length_cons, ← Nat.add_assoc, ← List.length_append,
    List.takeWhile_append_dropWhile]

theorem length_orderEntries (es : List SpanEntry) : (orderEntries es).length = es.length := by
  induction es with
  | nil => rfl
  | cons e es ih => rw [orderEntries, length_insertEntry, ih, List.length_cons]

theorem mem_orderEntries {x : SpanEntry} {es : List SpanEntry} : x ∈ orderEntries es ↔ x ∈ es := by
  induction es with
  | nil => rfl
  | cons e es ih => rw [orderEntries, mem_insertEntry, ih, List.mem_cons]

/-- The order of a span list, of two entries (R118). -/
def Precedes (a b : SpanEntry) : Prop := a.start < b.start ∨ (a.start = b.start ∧ a.arrival ≤ b.arrival)

theorem spansInOrder_iff (es : List SpanEntry) : spansInOrder es ↔ es.Pairwise Precedes := by
  have htrans : ∀ {a b c : SpanEntry}, Precedes a b → Precedes b c → Precedes a c := by unfold Precedes; omega
  induction es with
  | nil => simp [spansInOrder]
  | cons a as ih =>
    cases as with
    | nil => simp [spansInOrder]
    | cons b bs =>
      have hcons : spansInOrder (a :: b :: bs) ↔ Precedes a b ∧ spansInOrder (b :: bs) := Iff.rfl
      refine (hcons.trans (and_congr_right fun _ => ih)).trans (Iff.trans ?_ List.pairwise_cons.symm)
      refine and_congr_left fun hrest => ⟨fun hab x hx => ?_, fun h => h b List.mem_cons_self⟩
      rcases List.mem_cons.mp hx with rfl | hx
      · exact hab
      · exact htrans hab ((List.pairwise_cons.mp hrest).1 x hx)

theorem spansInOrder_insertEntry (n : SpanEntry) {es : List SpanEntry} (h : spansInOrder es) :
    spansInOrder (insertEntry n es) := by
  rw [spansInOrder_iff] at h ⊢
  induction es with
  | nil => simp [insertEntry]
  | cons e es ih =>
    obtain ⟨hfirst, hrest⟩ := List.pairwise_cons.mp h
    simp only [insertEntry]
    split
    · rename_i hle
      refine List.pairwise_cons.mpr ⟨fun x hx => ?_, ih hrest⟩
      rcases mem_insertEntry.mp hx with rfl | hx
      · exact hle
      · exact hfirst x hx
    · rename_i hlt
      have hn : Precedes n e := by unfold Precedes; omega
      refine List.pairwise_cons.mpr ⟨fun x hx => ?_, h⟩
      rcases List.mem_cons.mp hx with rfl | hx
      · exact hn
      · have := hfirst x hx
        unfold Precedes at this hn ⊢
        omega

theorem spansInOrder_orderEntries (es : List SpanEntry) : spansInOrder (orderEntries es) := by
  induction es with
  | nil => trivial
  | cons e es ih => exact spansInOrder_insertEntry e ih

/-- `SpanLaw`, of a line's data. -/
def SpansOf (d : LineData) : Prop := d.spans.spans.length ≤ 48 ∧ d.spans.splices.length ≤ 16

theorem spansOf_law : LineLaw SpansOf where
  offered _ _ _ _ _ h := h
  released _ h := h
  listed d r hstep h := by
    obtain ⟨hspans, hsplices⟩ := h
    cases hstep with
    | same hs hp => exact ⟨by rwa [← hs] at hspans, by rwa [← hp] at hsplices⟩
    | onOpen k f _ => exact ⟨by simpa [SpanRec.onOpen, SpanRec.bump] using hspans, hsplices⟩
    | stored e hroom _ hs hp =>
      refine ⟨?_, by rwa [← hp] at hsplices⟩
      show r.spans.length ≤ 48
      rw [hs, length_insertEntry]
      exact hroom
    | spliced x hroom hp hs =>
      refine ⟨by rwa [← hs] at hspans, ?_⟩
      show r.splices.length ≤ 16
      rw [hp, length_insertSplice]
      exact hroom
    | taken c =>
      have hrest := List.length_filterMap_le (·.restAt c) d.spans.spans
      have hkept := List.length_filter_le (fun x => decide (c ≤ x)) d.spans.splices
      exact ⟨by simp only [SpanRec.afterTake, SpanRec.bump, length_orderEntries]; omega, by
        simp only [SpanRec.afterTake, SpanRec.bump]; omega⟩
  moved _ _ _ h := h
  nextCoil _ h := h
  opened _ _ := ⟨Nat.zero_le _, Nat.zero_le _⟩
  ended _ _ := ⟨Nat.zero_le _, Nat.zero_le _⟩
  discarded _ _ := ⟨Nat.zero_le _, Nat.zero_le _⟩
  resumed _ _ _ h := h
  unguarded _ h := h
  initial := ⟨Nat.zero_le _, Nat.zero_le _⟩

/-- A closed entry has an end, at or above its start (R118). -/
def EndsAbove (e : SpanEntry) : Prop := e.isOpen = false → ∃ x, e.stop = some x ∧ e.start ≤ x

theorem endsAbove_restAt {e r : SpanEntry} {c : Nat} (h : EndsAbove e) (hr : e.restAt c = some r) : EndsAbove r := by
  unfold SpanEntry.restAt at hr
  split at hr
  · cases hr; exact h
  · split at hr
    · rename_i x hopen hstop
      split at hr
      · cases hr
      · cases hr; exact fun _ => ⟨x, hstop, by dsimp only; omega⟩
    · cases hr
      intro hopen
      obtain ⟨x, hx, -⟩ := h hopen
      exact ⟨max x c, by simp [hx], Nat.le_max_right _ _⟩

/-- `SpanOrderLaw`, of a line's data. -/
def SpanOrderOf (d : LineData) : Prop := spansInOrder d.spans.spans ∧ ∀ e ∈ d.spans.spans, EndsAbove e

theorem spanOrderOf_law : LineLaw SpanOrderOf where
  offered _ _ _ _ _ h := h
  released _ h := h
  listed d r hstep h := by
    obtain ⟨horder, hends⟩ := h
    show spansInOrder r.spans ∧ ∀ e ∈ r.spans, EndsAbove e
    cases hstep with
    | same hs => rw [hs]; exact ⟨horder, hends⟩
    | onOpen k f hf =>
      let g : SpanEntry → SpanEntry := fun e => if e.holds k then f e else e
      have hplace : ∀ e, (g e).start = e.start ∧ (g e).arrival = e.arrival := by
        intro e
        simp only [g]
        split
        · exact ⟨(hf e).1, (hf e).2.1⟩
        · exact ⟨rfl, rfl⟩
      constructor
      · show spansInOrder (d.spans.spans.map g)
        rw [spansInOrder_iff] at horder ⊢
        refine List.pairwise_map.mpr (horder.imp fun {a b} hab => ?_)
        simpa only [Precedes, hplace] using hab
      · intro e he
        obtain ⟨a, ha, rfl⟩ := List.mem_map.mp he
        split
        · intro hopen
          obtain ⟨hstart, -, hstop⟩ := hf a
          rcases hstop hopen with hkept | ⟨x, hx, hle⟩
          · obtain ⟨x, hx, hle⟩ := hends a ha hkept.1
            exact ⟨x, hkept.2.trans hx, hstart ▸ hle⟩
          · exact ⟨x, hx, hstart ▸ hle⟩
        · exact hends a ha
    | stored e _ hopen hs =>
      rw [hs]
      refine ⟨spansInOrder_insertEntry e horder, fun x hx => ?_⟩
      rcases mem_insertEntry.mp hx with rfl | hx
      · intro hclosed; rw [hopen] at hclosed; cases hclosed
      · exact hends x hx
    | spliced x _ _ hs => rw [hs]; exact ⟨horder, hends⟩
    | taken c =>
      refine ⟨spansInOrder_orderEntries _, fun e he => ?_⟩
      obtain ⟨a, ha, hr⟩ := List.mem_filterMap.mp (mem_orderEntries.mp he)
      exact endsAbove_restAt (hends a ha) hr
  moved _ _ _ h := h
  nextCoil _ h := h
  opened _ _ := ⟨trivial, nofun⟩
  ended _ _ := ⟨trivial, nofun⟩
  discarded _ _ := ⟨trivial, nofun⟩
  resumed _ _ _ h := h
  unguarded _ h := h
  initial := ⟨trivial, nofun⟩

/-! ## Every step -/

/-- Every step keeps a law of the lines' data. -/
theorem LineLaw.step {q : LineData → Prop} (Q : LineLaw q) {s t : State} (h : Lines q s) (ht : step s = .next t) :
    Lines q t := by
  refine BlocksKeep.step (Q.keeps.blocks fun _ _ => Q.guardReleased) (.of_law (fun _ _ h => h) ?_ fun _ _ h => h) h ht
  intro pins now epoch n duty pending l
  have hpower : lineData (State.powerUp pins) l = ⟨.idle, .empty, 0, none, ⟨[], [], 0, 0, [], 0, 0⟩⟩ := by cases l <;> rfl
  exact hpower ▸ Q.initial

theorem coilLaw_iff (s : State) (l : LineId) : CoilLaw s l ↔ CoilOf (lineData s l) := by
  unfold CoilLaw CoilOf lineData
  rw [Option.isSome_map]
  exact Iff.rfl

theorem positionLaw_iff (s : State) (l : LineId) : PositionLaw s l ↔ PositionOf (lineData s l) := by
  unfold PositionLaw PositionOf lineData State.coilStart
  cases (s.coilRec l).coil <;> simp

end Sys2Proof.Proofs

/-! The laws of the packing station and of the lane queues (R3, R147, R148, R150, R159). -/

namespace Sys2Proof.Proofs

open Sys2Proof.Machine Sys2Proof.Safety

/-- The packing station, the lanes and the lines' configurations are as they were. -/
structure SameStation (s t : State) : Prop where
  pack : t.pack = s.pack
  completed : t.completed = s.completed
  lanes : t.lanes = s.lanes
  cfg : ∀ l, (t.line l).cfg = (s.line l).cfg

namespace SameStation

variable {s t : State}

theorem refl (s : State) : SameStation s s := ⟨rfl, rfl, rfl, fun _ => rfl⟩

theorem trans {u : State} (a : SameStation s t) (b : SameStation t u) : SameStation s u :=
  ⟨b.pack.trans a.pack, b.completed.trans a.completed, b.lanes.trans a.lanes, fun l => (b.cfg l).trans (a.cfg l)⟩

/-- An action that leaves the station, the lanes and every line. -/
theorem of_same (hp : t.pack = s.pack) (hc : t.completed = s.completed) (hq : t.lanes = s.lanes) (hl : t.lines = s.lines) :
    SameStation s t := ⟨hp, hc, hq, fun l => by unfold State.line; rw [hl]⟩

theorem modLine (l : LineId) (f : LineRec → LineRec) (hf : ∀ r, (f r).cfg = r.cfg) : SameStation s (s.modLine l f) :=
  ⟨rfl, rfl, rfl, fun y => by
    by_cases hy : y = l
    · subst hy; simp [hf]
    · simp [hy]⟩

theorem removeCutHeld (s : State) (l : LineId) : SameStation s (s.removeCutHeld l) :=
  ⟨by simp, by simp, by simp, (Calm.removeCutHeld (.refl s) l).cfg⟩

theorem offerCause (s : State) (l : LineId) (x : StopCause) : SameStation s (s.offerCause l x) :=
  ⟨by simp, by simp, by simp, (Calm.offerCause (.refl s) l x).cfg⟩

theorem keepsRuns (s : State) : KeepsRuns (SameStation s) where
  free _ _ _ _ _ _ _ _ h := h.trans (.of_same rfl rfl rfl rfl)
  notify _ _ _ h := h.trans (.of_same (by simp) (by simp) (by simp) (by simp))
  submit _ _ _ _ _ h := h.trans (.of_same (by simp) (by simp) (by simp) (by simp))
  setRecipe _ _ _ h := h.trans (.of_same rfl rfl rfl rfl)
  setCopy _ _ _ h := h.trans (.of_same rfl rfl rfl rfl)
  head _ _ _ _ h := h.trans (.of_same rfl rfl rfl rfl)
  bound _ l f hf h := h.trans (.modLine l f fun r => (hf r).2.2)

theorem endRun (s : State) (l : LineId) : SameStation s (s.endRun l) := by
  have K := keepsRuns s
  have habandon : SameStation s (s.abandonScan l) := by
    unfold State.abandonScan
    split
    · exact K.modScanLink _ _ (.refl s)
    · exact .refl s
  have hmeasures : SameStation s (endMeasures s l) := by
    refine K.modHeads _ _ (fun _ => rfl) ?_
    split
    · exact K.modKnot l _ habandon
    · exact habandon
  rw [endRun_eq]
  unfold endRecords
  refine hmeasures.trans (.trans ?_ (.modLine l _ fun _ => rfl))
  exact .of_same rfl rfl rfl rfl

theorem dropPlacement (s : State) (l : LineId) : SameStation s (s.dropPlacement l) := by
  have hcoil : SameStation s (s.modCoil l fun k => { k with stage := .none }) := .of_same rfl rfl rfl rfl
  unfold State.dropPlacement
  split
  · exact .refl s
  · exact hcoil
  · exact hcoil.trans (removeCutHeld _ l)

theorem openRun (s : State) (l : LineId) (n : Slot) (r : Recipe) : SameStation s (s.openRun l n r) := by
  have K := keepsRuns s
  have hknot : ∀ u, SameStation s u → SameStation s (u.knotRunStart l) := by
    intro u hu
    unfold State.knotRunStart
    split
    · exact hu
    · dsimp only
      split
      · exact K.modScanLink _ _ (K.modKnot l _ hu)
      · exact K.modKnot l _ hu
  have hprepared : SameStation s (runPrepared s l n) :=
    K.modChannels _ _ (hknot _ (K.modHeads _ _ (fun _ => rfl) (K.bindPending l _ _ (K.evictAndLoad _ _ (.refl s)))))
  have hrecords : ∀ w, SameStation s (runRecords (runPrepared s l n) l n r w) := by
    intro w
    unfold runRecords
    refine hprepared.trans (.trans ?_ (.modLine l _ fun _ => rfl))
    exact .of_same rfl rfl rfl rfl
  rw [openRun_eq]
  dsimp only
  split
  · exact (hrecords _).trans (dropPlacement _ _)
  · exact hrecords _

theorem resetHeads (s : State) (l : LineId) : SameStation s (s.resetHeads l) := by
  unfold State.resetHeads
  refine foldl_keeps (fun u x _ hu => ?_) (.refl s)
  exact (keepsRuns s).setCopy _ _ _ (hu.trans (.of_same rfl rfl rfl rfl))

theorem discardRun (s : State) (l : LineId) : SameStation s (discardRun s l) := by
  have K := keepsRuns s
  have hfollower : SameStation s (s.releaseFollower l) := by
    unfold State.releaseFollower
    split
    · split
      · exact (removeCutHeld s _).trans (.of_same rfl rfl rfl rfl)
      · exact .refl s
    · exact .refl s
  have hknot : SameStation s ((s.releaseFollower l).knotReset l) := by
    unfold State.knotReset State.abandonScan
    split
    · refine K.modKnot _ _ ?_
      split
      · exact K.modScanLink _ _ hfollower
      · exact hfollower
    · exact hfollower
  unfold Proofs.discardRun
  refine (hknot.trans (resetHeads _ l)).trans (.trans ?_ (.modLine l _ fun _ => rfl))
  exact .of_same rfl rfl rfl rfl

theorem correctTrim (s : State) (l : LineId) (h : HeadId) (r : Recipe) (d : Int) (b : Bool) :
    SameStation s (s.correctTrim l h r d b) := by
  have hset : SameStation s (trimSet s h r d b) := by
    unfold trimSet
    dsimp only
    split
    · refine (keepsRuns s).remark h ?_
      exact .of_same rfl rfl rfl rfl
    · exact .of_same rfl rfl rfl rfl
  rw [correctTrim_eq]
  split
  · exact hset.trans (offerCause _ _ _)
  · exact hset

theorem flushSlot (s : State) (n : Slot) : SameStation s (s.flushSlot n) :=
  (keepsRuns s).remarkSlot n (foldl_keeps (fun _ x _ => (keepsRuns s).writeBack x) (.refl s))

theorem invalidateSlot (s : State) (n : Slot) : SameStation s (s.invalidateSlot n) := by
  unfold State.invalidateSlot
  refine foldl_keeps (fun u x _ hu => ?_) (.refl s)
  exact (keepsRuns s).setCopy _ _ _ hu

theorem lineBind (s : State) (x y : Nat) : Gives (SameStation s) (s.lineBind x y) := by
  have hbind : ∀ l (b : LineRec → Option Slot) p,
      SameStation s (s.modLine l fun r => { r with bound := b r, pendingRecipe := p }) := fun l b p =>
    .modLine l _ fun _ => rfl
  refine .withLine fun l => .withSlot fun n => ?_
  dsimp only
  split; · exact .refuse _
  split; · exact .badField _
  split; · exact .accept (hbind l (fun _ => some n) _)
  split; · exact .accept (hbind l (·.bound) _)
  split; · exact .error _
  exact .accept (hbind l (·.bound) _)

theorem headSet (s : State) (f : HeadSetArgs) : Gives (SameStation s) (s.headSet f) := by
  refine .withHead fun x => .withLine fun l => .withChannel fun c => ?_
  split; · exact .badField _
  split
  · split; · exact .badField _
    split; · exact .refuse _
    refine .accept ?_
    split
    · exact .of_same rfl rfl rfl rfl
    · exact .of_same rfl rfl rfl rfl
  · exact .badField _

theorem headFree (s : State) (x : Nat) : Gives (SameStation s) (s.headFree x) := by
  refine .withHead fun y => ?_
  split; · exact .refuse _
  split
  · exact .accept (.refl s)
  · exact .accept (.of_same rfl rfl rfl rfl)

theorem recipeStore (s : State) (x : Nat) (f : RecipeArgs) : Gives (SameStation s) (s.recipeStore x f) := by
  refine .withSlot fun n => ?_
  split; · exact .badField _
  · exact .badField _
  split; · exact .refuse _
  have hstored : SameStation s (s.setRecipe n (some (recipeStored f))) := .of_same rfl rfl rfl rfl
  exact .accept (hstored.trans (invalidateSlot _ n))

/-- The guard event but for the packing head. -/
theorem guardLines (s : State) : SameStation s
    (LineId.all.foldl (fun (s : State) l => s.modCoil l fun k => { k with cutterPulse := none })
      (LineId.all.foldl (fun (s : State) l => s.modPos l fun p => { p with markerPulse := none })
        (LineId.all.foldl (fun (s : State) l => s.offerCause l .guard) { s with guard := { s.guard with latch := true } }))) := by
  refine foldl_keeps (fun u x _ hu => ?_) (foldl_keeps (fun u x _ hu => ?_) (foldl_keeps (fun u x _ hu => ?_) ?_))
  · exact hu.trans (.of_same rfl rfl rfl rfl)
  · exact hu.trans (.of_same rfl rfl rfl rfl)
  · exact hu.trans (offerCause u x .guard)
  · exact .of_same rfl rfl rfl rfl

end SameStation

section

variable {P : State → Prop} (hsame : ∀ s t, SameStation s t → P s → P t)

include hsame

/-- A law of the station, the lanes and the configurations is kept by what falls due on a count if cuts keep it. -/
theorem KeepsCounts.of_sameStation
    (cut : ∀ (s : State) (l : LineId) (why : CutReason), why ≠ .endOfRun → CutFree s l → P s → P (s.performCut l why)) :
    KeepsCounts P where
  free s _ _ _ _ _ _ _ h := hsame s _ (.of_same rfl rfl rfl rfl) h
  notify s l b h := hsame s _ ((SameStation.keepsRuns s).notify s l b (.refl s)) h
  offerCause s l x h := hsame s _ (.offerCause s l x) h
  removeCutHeld s l h := hsame s _ (.removeCutHeld s l) h
  submit s l k c x h := hsame s _ ((SameStation.keepsRuns s).submit s l k c x (.refl s)) h
  head s _ _ _ h := hsame s _ (.of_same rfl rfl rfl rfl) h
  pos s _ _ _ h := hsame s _ (.of_same rfl rfl rfl rfl) h
  mark s _ _ _ _ h := hsame s _ (.of_same rfl rfl rfl rfl) h
  coil s _ _ _ h := hsame s _ (.of_same rfl rfl rfl rfl) h
  cut := cut
  correct s l x r d b _ _ h := hsame s _ (.correctTrim s l x r d b) h

/-- Such a law is kept by every action of the blocks if cuts, the packing station, the guard's effect on the head and
LINE SET keep it. -/
theorem Keeps.of_sameStation (cut : ∀ (s : State) (l : LineId) (why : CutReason), CutFree s l → P s → P (s.performCut l why))
    (station : KeepsStation P) (guarded : ∀ s, P s → P (s.modPack PackRec.atGuard))
    (lineSet : ∀ s f, P s → Gives P (s.lineSet f)) : Keeps P where
  toKeepsCounts := .of_sameStation hsame fun s l why _ => cut s l why
  toKeepsStation := station
  link s _ _ h := hsame s _ (.of_same rfl rfl rfl rfl) h
  submitSplice s l p h := hsame s _ (.of_same (by simp) (by simp) (by simp) (by simp)) h
  moved s _ _ _ _ h := hsame s _ (.of_same rfl rfl rfl rfl) h
  line s l f hf h := hsame s _ (.modLine l f fun r => (hf r).2.2.1) h
  runEnd s l hfree h := cut s l _ hfree h
  openRun s l n r _ h := hsame s _ (.openRun s l n r) h
  discard s l h := hsame s _ (.discardRun s l) h
  resume s l _ h := hsame s _ ⟨rfl, rfl, rfl, (Calm.resumeLine (.refl s) l).cfg⟩ h
  guardInput s _ _ h := hsame s _ (.of_same rfl rfl rfl rfl) h
  guardEvent s _ h := hsame _ _ ((SameStation.keepsRuns _).notify _ _ _ (.refl _))
    (guarded _ (hsame s _ (.guardLines s) h))
  lineSet := lineSet
  lineBind s x y h t p e := hsame s t (SameStation.lineBind s x y t p e) h
  headSet s f h t p e := hsame s t (SameStation.headSet s f t p e) h
  headFree s x h t p e := hsame s t (SameStation.headFree s x t p e) h
  recipeStore s x f h t p e := hsame s t (SameStation.recipeStore s x f t p e) h
  flushSlot s n h := hsame s _ (.flushSlot s n) h
  invalidateSlot s n h := hsame s _ (.invalidateSlot s n) h

/-- Such a law is kept by the clearing of the latch if the service given back keeps it. -/
theorem guardReleased_keeps (serviceBack : ∀ s, s.pack.state = .guarded → P s → P (s.modPack serviceBack)) {s : State}
    (h : P s) : P (guardReleased s) := by
  have hdropped : P (LineId.all.foldl (fun (s : State) l => s.modLine l fun r => { r with causes := r.causes.drop .guard })
      { s with guard := { s.guard with latch := false } }) := by
    refine foldl_keeps (fun u x _ hu => ?_) ?_
    · exact hsame u _ (.modLine x _ fun _ => rfl) hu
    · exact hsame s _ (.of_same rfl rfl rfl rfl) h
  unfold Proofs.guardReleased
  rw [packGuardClear_eq]
  split
  · rename_i hstate
    exact hsame _ _ ((SameStation.keepsRuns _).notify _ _ _ (.refl _)) (serviceBack _ hstate hdropped)
  · exact hdropped

end

end Sys2Proof.Proofs

namespace Sys2Proof.Proofs

open Sys2Proof.Machine Sys2Proof.Safety

/-! ## The packing station -/

section

variable {P : State → Prop} (hpack : ∀ s t : State, t.pack = s.pack → t.completed = s.completed → P s → P t)
  (hgrant : ∀ s, P s → P s.evaluateGrant)

include hpack hgrant

/-- Of the packing head and the completed coil list a cut does no more than evaluate a grant. -/
theorem performCut_keeps_station {s : State} (l : LineId) (why : CutReason) (h : P s) : P (s.performCut l why) := by
  have K : KeepsCuts P := {
    free := fun s _ _ _ _ _ _ _ h => hpack s _ rfl rfl h
    notify := fun s l b h => hpack s _ (by simp) (by simp) h
    submit := fun s l k c x h => hpack s _ (by simp) (by simp) h
    setRecipe := fun s _ _ h => hpack s _ rfl rfl h
    setCopy := fun s _ _ h => hpack s _ rfl rfl h
    head := fun s _ _ _ h => hpack s _ rfl rfl h
    bound := fun s _ _ _ h => hpack s _ rfl rfl h
    removeCutHeld := fun s l h => hpack s _ (by simp) (by simp) h
    pos := fun s _ _ _ h => hpack s _ rfl rfl h
    coil := fun s _ _ _ h => hpack s _ rfl rfl h
    closeCoil := fun s l why own p m h => by
      unfold State.closeCoil
      split
      · exact hpack s _ rfl rfl h
      · exact h
    openNextCoil := fun s l h => hpack s _ rfl rfl h
    evaluateGrant := hgrant }
  exact K.performCut l why (fun _ s l h => hpack s _ (SameStation.endRun s l).pack (SameStation.endRun s l).completed h) h

/-- A law of the packing head and the completed coil list is kept by what falls due on a count if a grant keeps it. -/
theorem KeepsCounts.of_station : KeepsCounts P :=
  .of_sameStation (fun s t e => hpack s t e.pack e.completed) fun _ l why _ _ => performCut_keeps_station hpack hgrant l why

end

theorem evaluateGrant_of_ne_free {s : State} (h : s.pack.state ≠ .free) : s.evaluateGrant = s := by
  unfold State.evaluateGrant
  rw [if_pos h]

/-- The end of a service in progress, before the head is free: the record is in the completed coil list and the place
reserved for it is given up (R153). -/
structure Ending (s : State) : Prop where
  state : s.pack.state = .travel ∨ s.pack.state = .banding ∨ s.pack.state = .labelling
  abeyance : s.pack.abeyance = none
  reserved : s.pack.reserved = 0
  completed : s.completed.length ≤ 16

theorem Ending.ne_free {s : State} (h : Ending s) : s.pack.state ≠ .free := by
  obtain hs | hs | hs := h.state <;> simp [hs]

theorem Ending.congr {s t : State} (hp : t.pack = s.pack) (hc : t.completed = s.completed) (h : Ending s) : Ending t := by
  obtain ⟨hstate, habeyance, hreserved, hcompleted⟩ := h
  exact ⟨by rwa [hp], by rwa [hp], by rwa [hp], by rwa [hc]⟩

theorem stationLaws_congr {s t : State} (hp : t.pack = s.pack) (hc : t.completed = s.completed) (h : StationLaws s) :
    StationLaws t := by
  obtain ⟨hcompleted, hattached, hservice⟩ := h
  unfold CompletedLaw AttachedLaw ServiceLaw at *
  exact ⟨by rwa [CompletedLaw, hp, hc], by rwa [AttachedLaw, hp], by rwa [ServiceLaw, hp]⟩

/-- Outside GUARDED no service is in abeyance (R158). -/
theorem no_abeyance {s : State} (h : StationLaws s) (hstate : s.pack.state ≠ .guarded) :
    s.pack.abeyance = none := by
  exact Classical.byContradiction fun hne => hstate (h.service.2 hne)

/-- A head that changes its state without a service in abeyance, with the laws of the new state. -/
theorem stationLaws_modPack {s : State} {f : PackRec → PackRec} (hreserved : (f s.pack).reserved ≤ s.pack.reserved)
    (hattached : (f s.pack).state = .held ∨ (f s.pack).state = .guarded ∨ (f s.pack).state = .fault ∨
      (f s.pack).state = .free → (f s.pack).attached = none)
    (hservice : (f s.pack).attached ≠ none → (f s.pack).reserved = 1) (habeyance : (f s.pack).abeyance = none)
    (h : CompletedLaw s) : StationLaws (s.modPack f) := by
  obtain ⟨hone, hroom⟩ := h
  refine ⟨⟨?_, ?_⟩, hattached, fun hne => hservice ?_, fun hne => absurd habeyance hne⟩
  · exact Nat.le_trans hreserved hone
  · show s.completed.length + (f s.pack).reserved ≤ 16
    omega
  · rcases hne with hne | hne
    · exact hne
    · exact absurd habeyance hne

theorem stationLaws_evaluateGrant {s : State} (h : StationLaws s) : StationLaws s.evaluateGrant := by
  by_cases hfree : s.pack.state = .free
  · have hnone : s.pack.attached = none := h.attached (.inr (.inr (.inr hfree)))
    have habeyance := no_abeyance h (by simp [hfree])
    unfold State.evaluateGrant
    rw [if_neg (by simp [hfree])]
    split
    · exact stationLaws_modPack (Nat.le_refl _) (fun _ => hnone) (fun hne => absurd hnone hne) habeyance h.completed
    · split
      · rename_i l hl
        have hroom : s.completed.length + s.pack.reserved < 16 := by
          have hreq : s.requests l = true := by
            unfold State.chooseLane at hl
            split at hl
            · exact List.find?_some hl
            · exact List.find?_some hl
          simp only [State.requests, State.listHasSlot, Bool.and_eq_true, decide_eq_true_eq] at hreq
          exact hreq.2
        have hcompleted : s.completed.length + 1 ≤ 16 := by omega
        unfold State.grantTo
        dsimp only
        split
        · exact ⟨⟨Nat.le_refl _, hcompleted⟩, nofun, fun _ => rfl, fun hne => absurd habeyance hne⟩
        · exact ⟨⟨Nat.le_refl _, hcompleted⟩, nofun, fun _ => rfl, fun hne => absurd habeyance hne⟩
      · exact h
  · rw [evaluateGrant_of_ne_free hfree]
    exact h

theorem stationLaws_counts : KeepsCounts StationLaws :=
  .of_station (fun _ _ => stationLaws_congr) fun _ => stationLaws_evaluateGrant

theorem ending_counts : KeepsCounts Ending :=
  .of_station (fun _ _ => Ending.congr) fun _ h => by rwa [evaluateGrant_of_ne_free h.ne_free]

/-- The head becomes FREE, or SUSPENDED without a service, and then meets the laws. -/
theorem stationLaws_freeHead {s : State} (hcompleted : CompletedLaw s) (habeyance : s.pack.abeyance = none) :
    StationLaws s.freeHead :=
  stationLaws_evaluateGrant (stationLaws_modPack (Nat.le_refl _) (fun _ => rfl) (fun hne => absurd rfl hne) habeyance hcompleted)

theorem stationLaws_suspend {s : State} (l : Option LineId) (k : Option PackStep) (hcompleted : CompletedLaw s)
    (habeyance : s.pack.abeyance = none) (hservice : l ≠ none → s.pack.reserved = 1) : StationLaws (s.suspend l k) :=
  stationLaws_counts.notify _ _ _ (stationLaws_modPack (Nat.le_refl _) nofun hservice habeyance hcompleted)

theorem stationLaws_startBand {s : State} (k n : Nat) (hcompleted : CompletedLaw s) (habeyance : s.pack.abeyance = none)
    (hreserved : s.pack.reserved = 1) : StationLaws (s.startBand k n) :=
  stationLaws_modPack (Nat.le_refl _) nofun (fun _ => hreserved) habeyance hcompleted

theorem stationLaws_enterStep {s : State} (k : PackStep) (hcompleted : CompletedLaw s) (habeyance : s.pack.abeyance = none)
    (hreserved : s.pack.reserved = 1) : StationLaws (s.enterStep k) := by
  unfold State.enterStep
  split
  · exact stationLaws_startBand _ _ hcompleted habeyance hreserved
  · exact stationLaws_modPack (Nat.le_refl _) nofun (fun _ => hreserved) habeyance hcompleted
  · exact stationLaws_startBand _ _ hcompleted habeyance hreserved

theorem stationLaws_startTravel {s : State} (l : LineId) (k : PackStep) (hcompleted : CompletedLaw s)
    (habeyance : s.pack.abeyance = none) (hreserved : s.pack.reserved = 1) : StationLaws (s.startTravel l k) :=
  stationLaws_modPack (Nat.le_refl _) nofun (fun _ => hreserved) habeyance hcompleted

/-- A service in progress has its place reserved, and none is in abeyance. -/
theorem InService.laws {s : State} {l : LineId} (hs : InService s l) (h : StationLaws s) :
    s.pack.abeyance = none ∧ s.pack.reserved = 1 := by
  obtain ⟨hstate, hatt⟩ := hs
  refine ⟨no_abeyance h ?_, h.service.1 (.inl (by simp [hatt]))⟩
  obtain hs | hs | hs := hstate <;> simp [hs]

/-- The tasks of the end of a service in either order: the head's part turns `Ending` into the laws, the test of held cuts
keeps both. -/
theorem serviceTasks_keep {tasks : List ServiceTask} {f : State → ServiceTask → State}
    (finish : ∀ s, Ending s → StationLaws (f s .finish)) (retest : ∀ s, Ending s → Ending (f s .retest))
    (keep : ∀ s, StationLaws s → StationLaws (f s .retest)) {s : State} (hmem : .finish ∈ tasks) (hnodup : tasks.Nodup)
    (h : Ending s) : StationLaws (tasks.foldl f s) := by
  obtain ⟨before, after, rfl⟩ := List.append_of_mem hmem
  have hretest : ∀ t : ServiceTask, t ≠ .finish → t = .retest := fun t ht => by cases t <;> simp_all
  have hbefore : ∀ t ∈ before, t = .retest := fun t ht => hretest t fun he => by
    subst he
    exact (List.nodup_append.mp hnodup).2.2 _ ht _ List.mem_cons_self rfl
  have hafter : ∀ t ∈ after, t = .retest := fun t ht => hretest t fun he => by
    subst he
    exact (List.nodup_cons.mp (List.nodup_append.mp hnodup).2.1).1 ht
  rw [List.foldl_append, List.foldl_cons]
  refine foldl_keeps (fun u t ht hu => ?_) (finish _ (foldl_keeps (fun u t ht hu => ?_) h))
  · rw [hafter t ht]; exact keep u hu
  · rw [hbefore t ht]; exact retest u hu

theorem stationLaws_endService {s : State} (l : LineId) (hs : InService s l) (h : StationLaws s) :
    StationLaws (s.endService l) := by
  obtain ⟨habeyance, hreserved⟩ := hs.laws h
  unfold State.endService
  split
  · exact h
  rename_i r rest _
  dsimp only
  unfold State.inAnyOrder State.inOrder
  refine serviceTasks_keep (fun u hu => ?_) (fun u hu => ending_counts.retestAround l hu)
    (fun u hu => stationLaws_counts.retestAround l hu) ?_ ?_ ?_
  · have hcompleted : CompletedLaw u := ⟨by rw [hu.reserved]; exact Nat.zero_le _, by rw [hu.reserved]; exact hu.completed⟩
    have hlaned : ∀ b f, CompletedLaw ((u.notify (some l) b).modLane l f) ∧
        ((u.notify (some l) b).modLane l f).pack.abeyance = none := fun b f =>
      ⟨by simpa [CompletedLaw] using hcompleted, by simpa using hu.abeyance⟩
    unfold State.finishService
    dsimp only
    split
    · exact stationLaws_suspend _ _ (hlaned _ _).1 (hlaned _ _).2 nofun
    · exact stationLaws_freeHead (hlaned _ _).1 (hlaned _ _).2
  · refine (freelyOrdered_perm _ _).mem_iff.mpr ?_
    split <;> simp
  · refine (freelyOrdered_perm _ _).nodup_iff.mpr ?_
    split <;> decide
  · have hroom := h.completed.2
    rw [hreserved] at hroom
    exact ⟨hs.1, habeyance, rfl, by simpa using hroom⟩

theorem stationLaws_station : KeepsStation StationLaws where
  lane s _ _ _ h := stationLaws_congr (s := s) rfl rfl h
  pack s f hf h := by
    obtain ⟨hstate, hattached, habeyance, hreserved⟩ := hf s.pack
    obtain ⟨hc, ha, hv⟩ := h
    exact ⟨by unfold CompletedLaw at *; simpa [hreserved] using hc, by unfold AttachedLaw at *; simpa [hstate, hattached] using ha,
      by unfold ServiceLaw at *; simpa [hstate, hattached, habeyance, hreserved] using hv⟩
  evaluateGrant _ h := stationLaws_evaluateGrant h
  enterHeld s hfree h := by
    have hnone := h.attached (.inr (.inr (.inr hfree)))
    exact stationLaws_modPack (Nat.le_refl _) (fun _ => hnone) (fun hne => absurd hnone hne) (no_abeyance h (by simp [hfree]))
      h.completed
  suspendFree s hfree h := stationLaws_suspend _ _ h.completed (no_abeyance h (by simp [hfree])) nofun
  leaveStop s hstate h := by
    have habeyance := no_abeyance h (by obtain hs | hs := hstate <;> simp [hs])
    have hnone : s.pack.attached = none := h.attached (hstate.elim (.inr ∘ .inr ∘ .inl) .inl)
    unfold State.leaveStop
    split
    · exact stationLaws_modPack (Nat.le_refl _) (fun _ => hnone) (fun hne => absurd hnone hne) habeyance h.completed
    · split
      · exact stationLaws_suspend _ _ h.completed habeyance nofun
      · exact stationLaws_freeHead h.completed habeyance
  resumeHead s hstate h := by
    have habeyance := no_abeyance h hstate
    have hmild : StationLaws (s.modPack fun p => { p with suspendPending := false }) :=
      stationLaws_modPack (Nat.le_refl _) h.attached (fun hne => h.service.1 (.inl hne)) habeyance h.completed
    unfold State.resumeHead
    split
    · split
      · rename_i l hatt
        have hreserved := h.service.1 (.inl (by simp [hatt]))
        unfold State.resumeService
        split
        · exact stationLaws_startTravel _ _ h.completed habeyance hreserved
        · exact stationLaws_startTravel _ _ h.completed habeyance hreserved
        · exact stationLaws_enterStep _ h.completed habeyance hreserved
      · exact stationLaws_freeHead h.completed habeyance
    · exact hmild
    · exact hmild
    · exact hmild
    · exact hmild
    · exact hmild
    · exact h
    · exact h
  proceedTo s l k hs h := by
    obtain ⟨habeyance, hreserved⟩ := hs.laws h
    unfold State.proceedTo
    split
    · exact stationLaws_suspend _ _ h.completed habeyance fun _ => hreserved
    · exact stationLaws_enterStep _ h.completed habeyance hreserved
  restartBand s l k n hs h := by
    obtain ⟨habeyance, hreserved⟩ := hs.laws h
    exact stationLaws_modPack (Nat.le_refl _) nofun (fun _ => hreserved) habeyance h.completed
  packFault s l f hs h := by
    obtain ⟨habeyance, hreserved⟩ := hs.laws h
    exact stationLaws_counts.notify _ _ _ (stationLaws_congr (s := s.modPack fun p => { p with
      state := .fault, position := none, attached := none, step := none, arrivalStep := none, restarts := 0
      suspendPending := false, reserved := 0, stepTimer := none }) rfl rfl
      (stationLaws_modPack (Nat.zero_le _) (fun _ => rfl) (fun hne => absurd rfl hne) habeyance h.completed))
  endService s l hs h := stationLaws_endService l hs h
  taken s r rest hcompleted h := by
    obtain ⟨⟨hone, hroom⟩, ha, hv⟩ := h
    rw [hcompleted, List.length_cons] at hroom
    exact ⟨⟨hone, by show rest.length + s.pack.reserved ≤ 16; omega⟩, ha, hv⟩

theorem stationLaws_atGuard {s : State} (h : StationLaws s) : StationLaws (s.modPack PackRec.atGuard) := by
  -- the service in abeyance is the one that was attached
  have hbroken : ∀ {g : PackRec}, g.attached = none → g.state = .guarded → g.reserved = s.pack.reserved →
      (g.abeyance ≠ none → s.pack.attached ≠ none) → StationLaws { s with pack := g } := by
    intro g hatt hstate hres habey
    refine ⟨?_, fun _ => hatt, fun hne => ?_, fun _ => hstate⟩
    · unfold CompletedLaw
      rw [hres]
      exact h.completed
    · rw [hres]
      exact h.service.1 (.inl (hne.elim (fun h => absurd hatt h) habey))
  have hnone : (match s.pack.attached, s.pack.step with
      | some l, some k => some (l, k)
      | _, _ => none) ≠ none → s.pack.attached ≠ none := by
    intro hne hnone
    simp [hnone] at hne
  unfold State.modPack PackRec.atGuard
  dsimp only
  split
  · exact hbroken rfl rfl rfl hnone
  · exact hbroken rfl rfl rfl hnone
  · exact hbroken rfl rfl rfl hnone
  · exact hbroken rfl rfl rfl hnone
  · exact hbroken rfl rfl rfl hnone
  · exact h
  · exact h
  · exact h

theorem stationLaws_serviceBack {s : State} (h : StationLaws s) : StationLaws (s.modPack serviceBack) :=
  stationLaws_modPack (Nat.le_refl _) nofun (fun hne => h.service.1 (.inr fun hnone => hne (by simp [serviceBack, hnone]))) rfl
    h.completed

theorem stationLaws_keeps : Keeps StationLaws :=
  .of_sameStation (fun _ _ e => stationLaws_congr e.pack e.completed)
    (fun _ l why _ => performCut_keeps_station (fun _ _ => stationLaws_congr) (fun _ => stationLaws_evaluateGrant) l why)
    stationLaws_station (fun _ => stationLaws_atGuard) fun s f h => by
      refine .withLine fun l => ?_
      split; · exact .refuse _
      split; · exact .refuse _
      split; · exact .badField _
      split; · exact .refuse _
      refine .accept ?_
      unfold State.configure
      split
      · exact stationLaws_congr (s := s) rfl rfl h
      · exact stationLaws_congr (s := s) rfl rfl h

theorem step_keeps_stationLaws {s t : State} (h : StationLaws s) (ht : step s = .next t) : StationLaws t := by
  have hrel : ∀ s : State, s.guard.latch = true → StationLaws s → StationLaws (guardReleased s) := fun _ _ =>
    guardReleased_keeps (fun _ _ e => stationLaws_congr e.pack e.completed) fun _ _ => stationLaws_serviceBack
  refine BlocksKeep.step (stationLaws_keeps.blocks hrel) (.of_law (fun s _ => stationLaws_congr (s := s) rfl rfl) ?_
    fun s _ => stationLaws_congr (s := s) rfl rfl) h ht
  intro pins now epoch n duty pending
  exact ⟨⟨Nat.zero_le _, Nat.zero_le _⟩, fun _ => rfl, fun hne => hne.elim (absurd rfl) (absurd rfl), fun hne => absurd rfl hne⟩

end Sys2Proof.Proofs

namespace Sys2Proof.Proofs

open Sys2Proof.Machine Sys2Proof.Safety

/-! ## Lane queues and leaders -/

theorem firstFailure_eq_none {xs : List (Nat × Bool)} : firstFailure xs = none ↔ ∀ x ∈ xs, x.2 = true := by
  induction xs with
  | nil => simp [firstFailure]
  | cons x xs ih =>
    obtain ⟨n, good⟩ := x
    cases good <;> simp [firstFailure, ih]

/-- LINE SET finds field 19 good only where the leader it names is another line (R3). -/
theorem leader_ne_of_lineSetFailure {s : State} {l x : LineId} {f : LineSetArgs} (h : s.lineSetFailure l f = none)
    (hx : LineSetArgs.leaderLine f = some x) : x ≠ l := by
  have hfield := firstFailure_eq_none.mp h (19, s.leaderAllowed l (LineSetArgs.isNet f) x) (by simp [hx])
  simp only [State.leaderAllowed, Bool.and_eq_true, bne_iff_ne, ne_eq] at hfield
  exact hfield.1.1.1.1.2

theorem follower_ne {s : State} (h : NoOwnLeader s) {l f : LineId} (hf : s.runningFollower l = some f) : f ≠ l := by
  rintro rfl
  obtain ⟨hfollower, -⟩ := Option.filter_eq_some_iff.mp hf
  have hnames := List.find?_some hfollower
  exact h f (by simpa using hnames)

theorem closeCoil_lane_of_ne (s : State) {l x : LineId} (hx : x ≠ l) (why : CutReason) (own : Bool)
    (p : Option (LineId × Nat)) (m : Bool) : (s.closeCoil l why own p m).lane x = s.lane x := by
  unfold State.closeCoil
  split
  · simp [hx]
  · rfl

theorem length_closeCoil_lane (s : State) (l : LineId) (why : CutReason) (own : Bool) (p : Option (LineId × Nat)) (m : Bool) :
    ((s.closeCoil l why own p m).lane l).queue.length ≤ (s.lane l).queue.length + 1 := by
  unfold State.closeCoil
  split
  · simp
  · exact Nat.le_succ _

/-- At most 3 records in every lane queue, and no line its own leader. -/
def QueuesHold (s : State) : Prop := (∀ l, LaneLaw s l) ∧ NoOwnLeader s

theorem QueuesHold.congr {s t : State} (hl : t.lanes = s.lanes) (hc : ∀ l, (t.line l).cfg = (s.line l).cfg)
    (h : QueuesHold s) : QueuesHold t :=
  ⟨fun l => by have := h.1 l; unfold LaneLaw State.lane at *; rwa [hl], fun l => by rw [hc]; exact h.2 l⟩

theorem QueuesHold.modLane {s : State} (l : LineId) (f : LaneRec → LaneRec)
    (hf : (f (s.lane l)).queue.length ≤ (s.lane l).queue.length) (h : QueuesHold s) : QueuesHold (s.modLane l f) := by
  refine ⟨fun x => ?_, h.2⟩
  by_cases hx : x = l
  · subst hx
    unfold LaneLaw
    rw [modLane_lane_self]
    exact Nat.le_trans hf (h.1 x)
  · have := h.1 x
    unfold LaneLaw at *
    rwa [modLane_lane_of_ne _ _ _ hx]

theorem QueuesHold.settled : KeepsSettled QueuesHold where
  free _ _ _ _ _ _ _ _ h := h
  notify s l b h := h.congr (by simp) (by simp [State.line])
  submit s l k c x h := h.congr (by simp) (by simp [State.line])
  setRecipe _ _ _ h := h
  setCopy _ _ _ h := h
  head _ _ _ _ h := h
  bound s l f hf h := h.congr (s := s) rfl (SameStation.modLine l f fun r => (hf r).2.2).cfg
  removeCutHeld s l h := h.congr (SameStation.removeCutHeld s l).lanes (SameStation.removeCutHeld s l).cfg
  pos _ _ _ _ h := h
  coil _ _ _ _ h := h
  openNextCoil _ _ h := h
  evaluateGrant _ h := evaluateGrant_keeps (fun _ _ h => h) (fun _ l f hf => QueuesHold.modLane l f (Nat.le_of_eq (hf _))) h

/-- A cut without a hold reason appends to queues of fewer than 3 records (R132, R134). -/
theorem QueuesHold.cutClosed {s : State} (l : LineId) (why : CutReason) (hfree : CutFree s l) (h : QueuesHold s) :
    QueuesHold (cutClosed s l why) := by
  have hroom : (s.lane l).queue.length < 3 ∧ ∀ f, s.runningFollower l = some f → (s.lane f).queue.length < 3 := by
    simp only [CutFree, HoldSet.any, State.holds, Bool.or_eq_false_iff, decide_eq_false_iff_not, Nat.not_le] at hfree
    obtain ⟨⟨⟨⟨-, hown⟩, -⟩, hfollower⟩, -⟩ := hfree
    refine ⟨hown, fun f hf => ?_⟩
    rw [hf] at hfollower
    simpa using hfollower
  obtain ⟨hlane, hleader⟩ := h
  refine ⟨fun x => ?_, fun x => ?_⟩
  · -- the cutter outputs leave the lanes; each of the two records is one more in its own lane
    have hcutters : ∀ ls : List LineId, ((ls.foldl State.assertCutter s).lane x) = s.lane x := fun ls => by
      refine foldl_keeps (Q := fun t => t.lane x = s.lane x) (fun t y _ ht => ?_) rfl
      exact ht
    unfold LaneLaw at *
    unfold Proofs.cutClosed
    dsimp only
    split
    · rename_i f hf
      have hne := follower_ne hleader hf
      by_cases hx : x = f
      · subst hx
        refine Nat.le_trans (length_closeCoil_lane _ _ _ _ _ _) ?_
        rw [closeCoil_lane_of_ne _ hne, hcutters]
        exact hroom.2 x hf
      · rw [closeCoil_lane_of_ne _ hx]
        by_cases hl : x = l
        · subst hl
          refine Nat.le_trans (length_closeCoil_lane _ _ _ _ _ _) ?_
          rw [hcutters]
          exact hroom.1
        · rw [closeCoil_lane_of_ne _ hl, hcutters]
          exact hlane x
    · by_cases hl : x = l
      · subst hl
        refine Nat.le_trans (length_closeCoil_lane _ _ _ _ _ _) ?_
        rw [hcutters]
        exact hroom.1
      · rw [closeCoil_lane_of_ne _ hl, hcutters]
        exact hlane x
  · have hcalm : Calm s (Proofs.cutClosed s l why) := by
      unfold Proofs.cutClosed
      dsimp only
      split
      · exact (Calm.closeCoil (Calm.foldl (fun s t y h => h.assertCutter y) (.refl s)) _ _ _ _ _).closeCoil _ _ _ _ _
      · exact Calm.closeCoil (Calm.foldl (fun s t y h => h.assertCutter y) (.refl s)) _ _ _ _ _
    rw [hcalm.cfg]
    exact hleader x

theorem QueuesHold.performCut {s : State} (l : LineId) (why : CutReason) (hfree : CutFree s l) (h : QueuesHold s) :
    QueuesHold (s.performCut l why) := by
  rw [performCut_eq]
  exact QueuesHold.settled.parts.cutSettled _ _ _ (fun _ u x hu => hu.congr (SameStation.endRun u x).lanes (SameStation.endRun u x).cfg)
    (h.cutClosed l why hfree)

theorem QueuesHold.keeps : Keeps QueuesHold := by
  have hsame : ∀ s t, SameStation s t → QueuesHold s → QueuesHold t := fun s t e => QueuesHold.congr e.lanes e.cfg
  have cut : ∀ (s : State) (l : LineId) (why : CutReason), CutFree s l → QueuesHold s → QueuesHold (s.performCut l why) :=
    fun s l why => QueuesHold.performCut l why
  refine .of_sameStation hsame cut ?_ (fun _ h => h) fun s f h => ?_
  · refine .of_free (fun _ _ h => h) (fun _ l f hf => QueuesHold.modLane l f (Nat.le_of_eq (hf _)))
      (.of_sameStation hsame fun s l why _ => cut s l why) (fun _ _ h => h) fun s l r rest hqueue h => ?_
    exact h.modLane l _ (by simp [hqueue])
  · refine .withLine fun l => ?_
    split; · exact .refuse _
    split; · exact .refuse _
    split; · exact .badField _
    rename_i hfields
    split; · exact .refuse _
    refine .accept ?_
    have hline : QueuesHold (s.modLine l fun r => { r with
        kind := Machine.LineSetArgs.kindStored f, cfg := Machine.LineSetArgs.config f }) := by
      refine ⟨h.1, fun x hx => ?_⟩
      by_cases hxl : x = l
      · subst hxl
        rw [modLine_line_self] at hx
        exact leader_ne_of_lineSetFailure hfields hx rfl
      · rw [modLine_line_of_ne _ _ _ hxl] at hx
        exact h.2 x hx
    unfold State.configure
    split
    · exact hline
    · exact hline

theorem step_keeps_queuesHold {s t : State} (h : QueuesHold s) (ht : step s = .next t) : QueuesHold t := by
  have hrel : ∀ s : State, s.guard.latch = true → QueuesHold s → QueuesHold (guardReleased s) := fun _ _ =>
    guardReleased_keeps (fun _ _ e => QueuesHold.congr e.lanes e.cfg) fun _ _ h => h
  refine BlocksKeep.step (QueuesHold.keeps.blocks hrel) (.of_law (fun _ _ h => h) ?_ fun _ _ h => h) h ht
  intro pins now epoch n duty pending
  refine ⟨fun l => ?_, fun l => ?_⟩
  · cases l <;> exact Nat.zero_le _
  · cases l <;> nofun

/-- Settles O60: each law is one that every action of the blocks and of the link keeps. -/
theorem everyStepKeepsQueueBounds : Obligations.EveryStepKeepsQueueBounds := by
  unfold Obligations.EveryStepKeepsQueueBounds
  refine ⟨fun s t ht => ⟨fun h => causesOf_law.step h ht, fun h l => ?_, fun h l => ?_,
    fun h => spansOf_law.step h ht, fun h => spanOrderOf_law.step h ht, fun h => step_keeps_stationLaws h ht⟩, ?_⟩
  · exact (coilLaw_iff t l).mpr (coilOf_law.step (fun x => (coilLaw_iff s x).mp (h x)) ht l)
  · exact (positionLaw_iff t l).mpr (positionOf_law.step (fun x => (positionLaw_iff s x).mp (h x)) ht l)
  · intro s t hlane hleader hbuffer ht
    obtain ⟨hlane', hleader'⟩ := step_keeps_queuesHold ⟨hlane, hleader⟩ ht
    exact ⟨hlane', hleader', step_keeps_bufferLaw hbuffer ht⟩

end Sys2Proof.Proofs

/-! The laws of the guard latch (R13, R17, R95, R158). -/

namespace Sys2Proof.Proofs

open Sys2Proof.Machine Sys2Proof.Safety

/-- Under the latch no pulse runs, and the packing head is GUARDED, HELD or in FAULT (R17, R158). -/
def QuietUnderLatch (s : State) : Prop :=
  s.guard.latch = true → (∀ l, (s.coilRec l).cutterPulse = none) ∧ (∀ l, (s.pos l).markerPulse = none) ∧
    (s.pack.state = .guarded ∨ s.pack.state = .held ∨ s.pack.state = .fault)

theorem quietUnderLatch_iff (s : State) : QuietUnderLatch s ↔ GuardLaw s ∧ HeadGuarded s := by
  simp only [QuietUnderLatch, GuardLaw, HeadGuarded, State.cutterOut, State.markerOut, State.strapOut, State.labelOut,
    Option.isSome_eq_false_iff, Option.isNone_iff_eq_none, decide_eq_false_iff_not]
  constructor
  · intro h
    refine ⟨fun hl => ?_, fun hl => (h hl).2.2⟩
    obtain ⟨hcut, hmark, hpack⟩ := h hl
    refine ⟨hcut, hmark, fun hs => ?_, fun hs => ?_⟩
    · simp [hs] at hpack
    · simp [hs] at hpack
  · rintro ⟨houtputs, hpack⟩ hl
    obtain ⟨hcut, hmark, -⟩ := houtputs hl
    exact ⟨hcut, hmark, hpack hl⟩

/-- The latch is a hold reason (R132). -/
theorem latch_of_cutFree {s : State} {l : LineId} (h : CutFree s l) : s.guard.latch = false := by
  simp only [CutFree, HoldSet.any, State.holds, Bool.or_eq_false_iff] at h
  obtain ⟨⟨⟨⟨hlatch, -⟩, -⟩, -⟩, -⟩ := h
  exact hlatch

namespace QuietUnderLatch

variable {s t : State}

theorem of_unlatched (h : s.guard.latch = false) : QuietUnderLatch s := fun hl => by simp [h] at hl

theorem congr (hg : t.guard.latch = s.guard.latch)
    (hc : ∀ l, (s.coilRec l).cutterPulse = none → (t.coilRec l).cutterPulse = none)
    (hm : ∀ l, (s.pos l).markerPulse = none → (t.pos l).markerPulse = none) (hp : t.pack.state = s.pack.state)
    (h : QuietUnderLatch s) : QuietUnderLatch t := fun hl => by
  obtain ⟨hcut, hmark, hpack⟩ := h (hg ▸ hl)
  exact ⟨fun l => hc l (hcut l), fun l => hm l (hmark l), hp ▸ hpack⟩

/-- An action that leaves the guard, the coils, the positions and the head. -/
theorem of_same (hg : t.guard = s.guard) (hc : t.coils = s.coils) (hm : t.positions = s.positions) (hp : t.pack = s.pack)
    (h : QuietUnderLatch s) : QuietUnderLatch t :=
  h.congr (by rw [hg]) (fun l => by unfold State.coilRec; rw [hc]; exact id) (fun l => by unfold State.pos; rw [hm]; exact id)
    (by rw [hp])

theorem modCoil (l : LineId) (f : CoilRec → CoilRec) (hf : ∀ k, k.cutterPulse = none → (f k).cutterPulse = none)
    (h : QuietUnderLatch s) : QuietUnderLatch (s.modCoil l f) := by
  refine h.congr (s := s) rfl (fun y hy => ?_) (fun _ => id) rfl
  by_cases hyl : y = l
  · subst hyl; rw [modCoil_coilRec_self]; exact hf _ hy
  · rwa [modCoil_coilRec_of_ne _ _ _ hyl]

theorem modPos (l : LineId) (f : PositionRec → PositionRec) (hf : ∀ p, p.markerPulse = none → (f p).markerPulse = none)
    (h : QuietUnderLatch s) : QuietUnderLatch (s.modPos l f) := by
  refine h.congr (s := s) rfl (fun _ => id) (fun y hy => ?_) rfl
  by_cases hyl : y = l
  · subst hyl; rw [modPos_pos_self]; exact hf _ hy
  · rwa [modPos_pos_of_ne _ _ _ hyl]

theorem removeCutHeld (l : LineId) (h : QuietUnderLatch s) : QuietUnderLatch (s.removeCutHeld l) :=
  h.of_same (by simp) (by simp) (by simp) (by simp)

/-- A head that moves is none under the latch. -/
theorem unlatched (h : QuietUnderLatch s)
    (hstate : s.pack.state ≠ .guarded ∧ s.pack.state ≠ .held ∧ s.pack.state ≠ .fault) : s.guard.latch = false := by
  obtain ⟨hguarded, hheld, hfault⟩ := hstate
  cases hl : s.guard.latch with
  | false => rfl
  | true =>
    obtain ⟨-, -, hpack⟩ := h hl
    exact (hpack.elim hguarded fun hpack => hpack.elim hheld hfault).elim

theorem unlatched_of_inService {l : LineId} (h : QuietUnderLatch s) (hs : InService s l) : s.guard.latch = false := by
  refine h.unlatched ?_
  obtain hs | hs | hs := hs.1 <;> simp [hs]

/-- What the blocks do while the latch is clear leaves it clear. -/
theorem of_calm (hl : s.guard.latch = false) (h : Calm s t) : QuietUnderLatch t := .of_unlatched (by rw [h.guard, hl])

theorem evaluateGrant (h : QuietUnderLatch s) : QuietUnderLatch s.evaluateGrant := by
  by_cases hfree : s.pack.state = .free
  · exact .of_calm (h.unlatched (by simp [hfree])) (.evaluateGrant (.refl s))
  · rwa [evaluateGrant_of_ne_free hfree]

theorem discardRun (l : LineId) (h : QuietUnderLatch s) : QuietUnderLatch (discardRun s l) := by
  have hfollower : QuietUnderLatch (s.releaseFollower l) := by
    unfold State.releaseFollower
    split
    · split
      · exact modCoil _ _ (fun _ => id) (h.removeCutHeld _)
      · exact h
    · exact h
  have hknot : QuietUnderLatch ((s.releaseFollower l).knotReset l) := by
    unfold State.knotReset State.abandonScan
    split
    · refine of_same (s := s.releaseFollower l) ?_ ?_ ?_ ?_ hfollower <;> split <;> simp
    · exact hfollower
  have hheads : QuietUnderLatch (((s.releaseFollower l).knotReset l).resetHeads l) := by
    unfold State.resetHeads
    refine foldl_keeps (fun u x _ hu => ?_) hknot
    exact hu
  unfold Proofs.discardRun
  dsimp only
  generalize ((s.releaseFollower l).knotReset l).resetHeads l = u at hheads ⊢
  have hline : ∀ v f, QuietUnderLatch v → QuietUnderLatch (State.modLine v l f) := fun _ _ hv => hv
  refine hline _ _ (modCoil l _ (fun _ => id) (modPos l _ (fun _ => id) ?_))
  exact hheads

/-- The guard event releases every pulse and holds the head (R17, R158). -/
theorem guardEvent (s : State) : QuietUnderLatch s.guardEvent := by
  intro _
  unfold State.guardEvent
  dsimp only
  generalize LineId.all.foldl (fun s l => s.offerCause l .guard) { s with guard := { s.guard with latch := true } } = u
  refine ⟨fun l => ?_, fun l => ?_, ?_⟩
  · cases l <;> simp [LineId.all]
  · cases l <;> simp [LineId.all]
  · simp only [notify_same, modPack_pack, PackRec.atGuard]
    split <;> simp_all

theorem invalidateSlot (n : Slot) (h : QuietUnderLatch s) : QuietUnderLatch (s.invalidateSlot n) := by
  unfold State.invalidateSlot
  refine foldl_keeps (fun u x _ hu => ?_) h
  exact hu

theorem flushSlot (n : Slot) (h : QuietUnderLatch s) : QuietUnderLatch (s.flushSlot n) := by
  have hback : QuietUnderLatch ((s.dirtyHolders n).foldl State.writeBack s) :=
    foldl_keeps (fun u x _ hu => hu.of_same (by simp) (by simp) (by simp) (by simp)) h
  unfold State.flushSlot State.remarkSlot
  exact foldl_keeps (fun u x _ hu => hu.of_same (by simp) (by simp) (by simp) (by simp)) hback

theorem keepsCounts : KeepsCounts QuietUnderLatch where
  free _ _ _ _ _ _ _ _ h := h
  notify _ _ _ h := h.of_same (by simp) (by simp) (by simp) (by simp)
  offerCause _ _ _ h := h.of_same (by simp) (by simp) (by simp) (by simp)
  removeCutHeld _ l h := h.removeCutHeld l
  submit _ _ _ _ _ h := h.of_same (by simp) (by simp) (by simp) (by simp)
  head _ _ _ _ h := h
  pos _ l f hf h := modPos l f (fun p hp => (hf p).2.elim (fun e => e.trans hp) id) h
  mark _ _ _ hl _ _ := .of_unlatched hl
  coil _ l f hf h := modCoil l f (fun k hk => (hf k).2.elim (fun e => e.trans hk) id) h
  cut s l why _ hfree _ := by
    exact .of_calm (latch_of_cutFree hfree) (.performCut (.refl s) l why)
  correct s l x r d b hl _ _ := .of_calm hl (.correctTrim (.refl s) l x r d b)

theorem keepsStation : KeepsStation QuietUnderLatch where
  lane _ _ _ _ h := h
  pack s f hf h := h.congr (s := s) rfl (fun _ => id) (fun _ => id) (hf s.pack).1
  evaluateGrant _ h := h.evaluateGrant
  enterHeld s hfree h := .of_calm (h.unlatched (by simp [hfree])) (.enterHeld (.refl s))
  suspendFree s hfree h := .of_calm (h.unlatched (by simp [hfree])) (.suspend (.refl s) _ _)
  leaveStop s _ h := by
    by_cases hl : s.guard.latch = true
    · unfold State.leaveStop
      rw [if_pos hl]
      obtain ⟨hcut, hmark, -⟩ := h hl
      exact fun _ => ⟨hcut, hmark, .inl rfl⟩
    · exact .of_calm (by simpa using hl) (.leaveStop (.refl s))
  resumeHead s hguarded h := by
    by_cases hl : s.guard.latch = true
    · obtain ⟨-, -, hpack⟩ := h hl
      have hkept : s.resumeHead = s.modPack fun p => { p with suspendPending := false } := by
        unfold State.resumeHead
        obtain hs | hs | hs := hpack
        · exact absurd hs hguarded
        · simp only [hs]
        · simp only [hs]
      rw [hkept]
      exact h.congr (s := s) rfl (fun _ => id) (fun _ => id) rfl
    · exact .of_calm (by simpa using hl) (.resumeHead (.refl s))
  proceedTo s l k hs h := .of_calm (h.unlatched_of_inService hs) (.proceedTo (.refl s) l k)
  restartBand s l k n hs h := .of_calm (h.unlatched_of_inService hs) (.startBand (.refl s) k n)
  packFault s l f hs h := .of_calm (h.unlatched_of_inService hs) (.packFault (.refl s) l f)
  endService s l hs h := .of_calm (h.unlatched_of_inService hs) (.endService (.refl s) l)
  taken _ _ _ _ h := h

theorem keeps : Keeps QuietUnderLatch where
  toKeepsCounts := keepsCounts
  toKeepsStation := keepsStation
  link _ _ _ h := h
  submitSplice _ _ _ h := h.of_same (by simp) (by simp) (by simp) (by simp)
  moved _ l _ _ _ h := modPos l _ (fun _ => id) h
  line _ _ _ _ h := h
  runEnd s l hfree _ := by
    exact .of_calm (latch_of_cutFree hfree) (.performCut (.refl s) l _)
  openRun s l n r hready _ := .of_calm hready.latch (.openRun (.refl s) l n r)
  discard _ l h := h.discardRun l
  resume _ _ _ h := h
  guardInput s x y h := h.congr (s := s) rfl (fun _ => id) (fun _ => id) rfl
  guardEvent s _ _ := guardEvent s
  lineSet s f h := by
    refine .withLine fun l => ?_
    split; · exact .refuse _
    split; · exact .refuse _
    split; · exact .badField _
    split; · exact .refuse _
    refine .accept ?_
    unfold State.configure
    split
    · exact h
    · exact h
  lineBind s x y h := by
    refine .withLine fun l => .withSlot fun n => ?_
    dsimp only
    split; · exact .refuse _
    split; · exact .badField _
    split; · exact .accept h
    split; · exact .accept h
    split; · exact .error _
    exact .accept h
  headSet s f h := by
    refine .withHead fun x => .withLine fun l => .withChannel fun c => ?_
    split; · exact .badField _
    split
    · split; · exact .badField _
      split; · exact .refuse _
      refine .accept ?_
      split
      · exact h
      · exact h
    · exact .badField _
  headFree s x h := by
    refine .withHead fun y => ?_
    split; · exact .refuse _
    split
    · exact .accept h
    · exact .accept h
  recipeStore s x f h := by
    refine .withSlot fun n => ?_
    split; · exact .badField _
    · exact .badField _
    split; · exact .refuse _
    exact .accept (invalidateSlot n h)
  flushSlot _ n h := (flushSlot n h)
  invalidateSlot _ n h := invalidateSlot n h

end QuietUnderLatch

end Sys2Proof.Proofs

namespace Sys2Proof.Proofs

open Sys2Proof.Machine Sys2Proof.Safety

/-! ## Trims under the latch -/

/-- The latch is set, and every head has the trim that `f` gives. -/
def TrimsHeld (f : HeadId → Int) (s : State) : Prop := s.guard.latch = true ∧ ∀ h, (s.head h).trim = f h

namespace TrimsHeld

variable {f : HeadId → Int} {s : State}

theorem of_same {t : State} (hg : t.guard = s.guard) (hh : t.heads = s.heads) (h : TrimsHeld f s) : TrimsHeld f t :=
  ⟨by rw [hg]; exact h.1, fun x => by unfold State.head; rw [hh]; exact h.2 x⟩

theorem modHead (x : HeadId) (g : HeadRec → HeadRec) (hg : (g (s.head x)).trim = (s.head x).trim) (h : TrimsHeld f s) :
    TrimsHeld f (s.modHead x g) := by
  refine ⟨h.1, fun y => ?_⟩
  rw [modHead_head]
  split
  · rename_i hy; rw [hg, ← hy]; exact h.2 y
  · exact h.2 y

theorem discardRun (l : LineId) (h : TrimsHeld f s) : TrimsHeld f (discardRun s l) := by
  have hfollower : TrimsHeld f (s.releaseFollower l) := by
    unfold State.releaseFollower
    split
    · split
      · exact h.of_same (by simp) (by simp)
      · exact h
    · exact h
  have hknot : TrimsHeld f ((s.releaseFollower l).knotReset l) := by
    unfold State.knotReset State.abandonScan
    split
    · refine of_same (s := s.releaseFollower l) ?_ ?_ hfollower <;> split <;> simp
    · exact hfollower
  have hheads : TrimsHeld f (((s.releaseFollower l).knotReset l).resetHeads l) := by
    unfold State.resetHeads
    refine foldl_keeps (fun u x _ hu => ?_) hknot
    refine of_same (s := u.modHead x (·.atLineReset u.guard.latch)) rfl rfl (hu.modHead x _ ?_)
    simp [HeadRec.atLineReset, hu.1]
  exact hheads

theorem keepsCounts : KeepsCounts (TrimsHeld f) where
  free _ _ _ _ _ _ _ _ h := h
  notify _ _ _ h := h.of_same (by simp) (by simp)
  offerCause _ _ _ h := h.of_same (by simp) (by simp)
  removeCutHeld _ _ h := h.of_same (by simp) (by simp)
  submit _ _ _ _ _ h := h.of_same (by simp) (by simp)
  head _ x g hg h := h.modHead x g (hg _).2
  pos _ _ _ _ h := h
  mark _ _ _ _ _ h := h
  coil _ _ _ _ h := h
  cut _ _ _ _ hfree h := absurd h.1 (by simp [latch_of_cutFree hfree])
  correct _ _ _ _ _ _ hl _ h := absurd h.1 (by simp [hl])

theorem invalidateSlot (n : Slot) (h : TrimsHeld f s) : TrimsHeld f (s.invalidateSlot n) := by
  unfold State.invalidateSlot
  refine foldl_keeps (fun u x _ hu => ?_) h
  exact hu

theorem flushSlot (n : Slot) (h : TrimsHeld f s) : TrimsHeld f (s.flushSlot n) := by
  have hback : TrimsHeld f ((s.dirtyHolders n).foldl State.writeBack s) :=
    foldl_keeps (fun u x _ hu => hu.of_same (by simp) (by simp)) h
  unfold State.flushSlot State.remarkSlot
  exact foldl_keeps (fun u x _ hu => hu.of_same (by simp) (by simp)) hback

theorem keeps : Keeps (TrimsHeld f) where
  toKeepsCounts := keepsCounts
  toKeepsStation := .of_free (fun _ _ h => h) (fun _ _ _ _ h => h) keepsCounts (fun _ _ h => h) fun _ _ _ _ _ h => h
  link _ _ _ h := h
  submitSplice _ _ _ h := h.of_same (by simp) (by simp)
  moved _ _ _ _ _ h := h
  line _ _ _ _ h := h
  runEnd _ _ hfree h := absurd h.1 (by simp [latch_of_cutFree hfree])
  openRun _ _ _ _ hready h := absurd h.1 (by simp [hready.latch])
  discard _ l h := h.discardRun l
  resume _ _ _ h := h
  guardInput _ _ _ h := h
  guardEvent _ hl h := absurd h.1 (by simp [hl])
  lineSet s f h := by
    refine .withLine fun l => ?_
    split; · exact .refuse _
    split; · exact .refuse _
    split; · exact .badField _
    split; · exact .refuse _
    refine .accept ?_
    unfold State.configure
    split
    · exact h
    · exact h
  lineBind s x y h := by
    refine .withLine fun l => .withSlot fun n => ?_
    dsimp only
    split; · exact .refuse _
    split; · exact .badField _
    split; · exact .accept h
    split; · exact .accept h
    split; · exact .error _
    exact .accept h
  headSet s g h := by
    refine .withHead fun x => .withLine fun l => .withChannel fun c => ?_
    split; · exact .badField _
    split
    · split; · exact .badField _
      split; · exact .refuse _
      have hmoved : ∀ t, TrimsHeld f ((s.modHead x fun r => { r.cleared with settings := t }).invalidate x) := fun t =>
        of_same (s := s.modHead x fun r => { r.cleared with settings := t }) rfl rfl (h.modHead x _ rfl)
      refine .accept ?_
      split
      · exact h.modHead x _ rfl
      · exact hmoved _
    · exact .badField _
  headFree s x h := by
    refine .withHead fun y => ?_
    split; · exact .refuse _
    split
    · exact .accept h
    · exact .accept (of_same (s := s.modHead y fun r => { r.cleared with settings := none, window := none }) rfl rfl
        (h.modHead y _ rfl))
  recipeStore s x f h := by
    refine .withSlot fun n => ?_
    split; · exact .badField _
    · exact .badField _
    split; · exact .refuse _
    exact .accept (invalidateSlot n h)
  flushSlot _ n h := flushSlot n h
  invalidateSlot _ n h := invalidateSlot n h

end TrimsHeld

/-- While the latch stays set the trims stay. -/
def TrimsKept (f : HeadId → Int) (s : State) : Prop := s.guard.latch = true → ∀ h, (s.head h).trim = f h

theorem guardReleased_latch (s : State) : (guardReleased s).guard.latch = false := by
  have hdropped : (LineId.all.foldl (fun (s : State) l => s.modLine l fun r => { r with causes := r.causes.drop .guard })
      { s with guard := { s.guard with latch := false } }).guard.latch = false := by
    refine foldl_keeps (Q := fun t => t.guard.latch = false) (fun u x _ hu => ?_) rfl
    exact hu
  unfold guardReleased
  rw [packGuardClear_eq]
  split
  · simpa using hdropped
  · exact hdropped

/-- GUARD CLEAR leaves the latch clear where it clears it. -/
theorem guardClear_trimsKept {f : HeadId → Int} {s : State} (h : TrimsHeld f s) : Gives (TrimsKept f) s.guardClear := by
  unfold State.guardClear
  rw [if_neg (by simp [h.1])]
  split
  · exact .refuse _
  · refine .accept fun hl => ?_
    have hguard : s.clearGuard.guard = (guardReleased s).guard := by
      rw [clearGuard_eq]
      exact (Calm.notify (Calm.inAnyOrder (fun _ _ l hc => hc.retest l) (.refl _)) _ _).guard
    rw [hguard, guardReleased_latch] at hl
    cases hl

theorem trimsHeld_blocks (f : HeadId → Int) : BlocksKeep (TrimsHeld f) (TrimsKept f) where
  handle s c r hform h := by
    by_cases hc : ∃ tag, c = .guardClear tag
    · obtain ⟨tag, rfl⟩ := hc
      cases hform
      exact guardClear_trimsKept h
    · exact fun t p e _ => (TrimsHeld.keeps.handle hform (fun hx => absurd hx hc) h t p e).2
  event _ _ _ hevent h := fun _ => (TrimsHeld.keeps.blockEvent hevent h).2
  advanceTo _ t h := TrimsHeld.keepsCounts.advanceTo t h

/-- A step that leaves the latch set leaves every trim (R95). -/
theorem step_keeps_trims {s t : State} (hs : s.guard.latch = true) (ht : step s = .next t) (hl : t.guard.latch = true) (h : HeadId) :
    (t.head h).trim = (s.head h).trim :=
  BlocksKeep.step (P := TrimsHeld fun h => (s.head h).trim) (trimsHeld_blocks _)
    (.of_link (fun _ h _ => h.2) (fun _ _ h => h) (fun _ _ h => h) (fun _ _ _ _ _ _ hl => by cases hl) fun _ _ h => h)
    ⟨hs, fun _ => rfl⟩ ht hl h

/-- Every step keeps the guard's laws. -/
theorem step_keeps_quietUnderLatch {s t : State} (h : QuietUnderLatch s) (ht : step s = .next t) : QuietUnderLatch t :=
  BlocksKeep.step (QuietUnderLatch.keeps.blocks fun s _ _ => .of_unlatched (guardReleased_latch s))
    (.of_law (fun _ _ h => h) (fun _ _ _ _ _ _ => .of_unlatched rfl) fun _ _ h => h) h ht

end Sys2Proof.Proofs

/-! The working copies and the recipe store: what re-marking, write-back and loads leave (R66 to R70). -/

namespace Sys2Proof.Proofs

open Sys2Proof.Machine Sys2Proof.Safety

variable {s : State}

/-! ## Re-marking -/

/-- A head's copy as re-marked (R67). -/
def markedCopy (s : State) (h : HeadId) : WorkingCopy := (s.remark h).copy h

theorem markedCopy_of_valid {h : HeadId} {n : Slot} (hv : (s.copy h).state ≠ .invalid) (hn : (s.copy h).slot = some n) :
    markedCopy s h = { s.copy h with state := if s.startTrim n h = some (s.copy h).learned then .clean else .dirty } := by
  simp [markedCopy, remark_copy, hv, hn]

theorem markedCopy_of_invalid {h : HeadId} (hv : (s.copy h).state = .invalid) : markedCopy s h = s.copy h := by
  simp [markedCopy, remark_copy, hv]

theorem markedCopy_slot (s : State) (h : HeadId) : (markedCopy s h).slot = (s.copy h).slot := by
  simp only [markedCopy, remark_copy]
  split
  · split
    · rfl
    · rfl
  · rfl

theorem markedCopy_learned (s : State) (h : HeadId) : (markedCopy s h).learned = (s.copy h).learned := by
  simp only [markedCopy, remark_copy]
  split
  · split
    · rfl
    · rfl
  · rfl

theorem markedCopy_invalid_iff (s : State) (h : HeadId) : (markedCopy s h).state = .invalid ↔ (s.copy h).state = .invalid := by
  simp only [markedCopy, remark_copy]
  split
  · rename_i hv
    split
    · dsimp only
      split <;> simp [hv.2]
    · rfl
  · rfl

theorem remark_copy_eq (s : State) (h x : HeadId) : (s.remark h).copy x = if x = h then markedCopy s x else s.copy x := by
  split
  · rename_i hx; rw [hx]; rfl
  · rename_i hx; simp [remark_copy, hx]

theorem startTrim_congr {t : State} (hs : t.slots = s.slots) (hh : t.heads = s.heads) (n : Slot) (x : HeadId) :
    t.startTrim n x = s.startTrim n x := by
  simp only [State.startTrim, State.recipe, State.head, hs, hh]

/-- The marking depends on the slots, the heads and the copy alone. -/
theorem markedCopy_congr {t : State} (hs : t.slots = s.slots) (hh : t.heads = s.heads) {x : HeadId} (hc : t.copy x = s.copy x) :
    markedCopy t x = markedCopy s x := by
  simp only [markedCopy, remark_copy, startTrim_congr hs hh, hc]

/-- A re-marked copy is marked. -/
theorem markedCopy_remark (s : State) (x : HeadId) : markedCopy (s.remark x) x = markedCopy s x := by
  have hcopy : (s.remark x).copy x = markedCopy s x := rfl
  by_cases hv : (s.copy x).state = .invalid
  · rw [markedCopy_of_invalid (by rw [hcopy, markedCopy_of_invalid hv]; exact hv)]
    rfl
  · cases hn : (s.copy x).slot with
    | none => simp [markedCopy, remark_copy, hn]
    | some n =>
      rw [markedCopy_of_valid (n := n) (by rw [hcopy, ne_eq, markedCopy_invalid_iff]; exact hv)
        (by rw [hcopy, markedCopy_slot, hn]), markedCopy_of_valid hv hn, hcopy, markedCopy_of_valid hv hn,
        startTrim_congr (t := s.remark x) (s := s) (by simp) (by simp)]

theorem foldl_remark_same (hs : List HeadId) (s : State) : (hs.foldl State.remark s).slots = s.slots ∧
    (hs.foldl State.remark s).heads = s.heads ∧ (hs.foldl State.remark s).lines = s.lines :=
  foldl_keeps (Q := fun t => t.slots = s.slots ∧ t.heads = s.heads ∧ t.lines = s.lines)
    (fun t x _ ht => by simpa using ht) ⟨rfl, rfl, rfl⟩

theorem foldl_remark_copy (hs : List HeadId) (s : State) (x : HeadId) :
    (hs.foldl State.remark s).copy x = if x ∈ hs then markedCopy s x else s.copy x := by
  induction hs generalizing s with
  | nil => rfl
  | cons h hs ih =>
    rw [List.foldl_cons, ih, remark_copy_eq]
    by_cases hx : x = h
    · subst hx; simp [markedCopy_remark]
    · simp [hx, markedCopy_congr (t := s.remark h) (by simp) (by simp) (remark_copy_eq s h x ▸ if_neg hx)]

theorem mem_holdersOf {n : Slot} {h : HeadId} :
    h ∈ s.holdersOf n ↔ (s.copy h).state ≠ .invalid ∧ (s.copy h).slot = some n := by
  simp [State.holdersOf, allHeads, WorkingCopy.copies, WorkingCopy.valid]

theorem remarkSlot_copy (s : State) (n : Slot) (x : HeadId) : (s.remarkSlot n).copy x =
    if (s.copy x).state ≠ .invalid ∧ (s.copy x).slot = some n then markedCopy s x else s.copy x := by
  have hmem : x ∈ allHeads.filter (fun h => (s.copy h).copies n) ↔
      (s.copy x).state ≠ .invalid ∧ (s.copy x).slot = some n := mem_holdersOf
  unfold State.remarkSlot
  rw [foldl_remark_copy]
  simp only [hmem]

theorem remarkSlot_same (s : State) (n : Slot) : (s.remarkSlot n).slots = s.slots ∧ (s.remarkSlot n).heads = s.heads ∧
    (s.remarkSlot n).lines = s.lines := foldl_remark_same _ s

/-! ## Write-back -/

theorem withStartTrim_trimLimit (r : Recipe) (p : StrandPos) (x : Int) : (r.withStartTrim p x).trimLimit = r.trimLimit := by
  unfold Recipe.withStartTrim
  split
  · rfl
  · rfl

theorem withStartTrim_positions {r : Recipe} {p : StrandPos} {x : Int} {y : StrandPos} {q : PositionSpec}
    (h : (r.withStartTrim p x).positions.get y = some q) : r.positions.get y = some q ∨ q.startTrim = x := by
  unfold Recipe.withStartTrim at h
  split at h
  · dsimp only at h
    rw [get_set_vector] at h
    split at h
    · cases h; exact .inr rfl
    · exact .inl h
  · exact .inl h

/-- A write-back changes the slot of the head's copy alone, and there one start trim. -/
theorem writeBack_recipe (s : State) (x : HeadId) (n : Slot) : (s.writeBack x).recipe n =
    match (s.copy x).slot, (s.head x).settings with
    | some m, some t => if n = m then (s.recipe m).map (·.withStartTrim t.position (s.copy x).learned) else s.recipe n
    | _, _ => s.recipe n := by
  unfold State.writeBack
  rcases hm : (s.copy x).slot with _ | m
  · rfl
  rcases ht : (s.head x).settings with _ | t
  · rfl
  dsimp only
  rcases hr : s.recipe m with _ | r
  · by_cases hn : n = m
    · simp [hn, hr]
    · simp [hn]
  · by_cases hn : n = m
    · simp [hn]
    · simp [hn]

/-! ## The laws of the store through these -/

/-- The laws of the recipe store but for that of the bound recipes, the start trims of the slots of `N` being such that
their CLEAN copies may have to be marked again. -/
structure StoreBut (N : List Slot) (s : State) : Prop where
  recipes : RecipesLaw s
  boundFull : BoundFull s
  trims : ∀ h, TrimLaw s h
  clean : ∀ h, (s.copy h).state = .clean →
    ∃ n, (s.copy h).slot = some n ∧ (n ∈ N ∨ s.startTrim n h = some (s.copy h).learned)
  learned : ∀ h, LearnedLaw s h

theorem storeLaws_iff (s : State) : StoreLaws s ↔ StoreBut [] s ∧ HeadsLaw s := by
  constructor
  · rintro ⟨hrecipes, hbound, hheads, htrims, hclean, hlearned⟩
    exact ⟨⟨hrecipes, hbound, htrims, fun h hc => (hclean h hc).imp fun n hn => ⟨hn.1, .inr hn.2⟩, hlearned⟩, hheads⟩
  · rintro ⟨⟨hrecipes, hbound, htrims, hclean, hlearned⟩, hheads⟩
    exact ⟨hrecipes, hbound, hheads, htrims, fun h hc => (hclean h hc).imp fun n hn => ⟨hn.1, hn.2.resolve_left (by simp)⟩,
      hlearned⟩

namespace StoreBut

variable {N : List Slot}

theorem mono {M : List Slot} (hM : ∀ n ∈ N, n ∈ M) (h : StoreBut N s) : StoreBut M s :=
  { h with clean := fun x hx => (h.clean x hx).imp fun n hn => ⟨hn.1, hn.2.imp_left (hM n)⟩ }

theorem writeBack (x : HeadId) (hv : (s.copy x).state ≠ .invalid) (hN : ∀ n, (s.copy x).slot = some n → n ∈ N)
    (h : StoreBut N s) : StoreBut N (s.writeBack x) := by
  have hcopy : ∀ y, (s.writeBack x).copy y = s.copy y := fun y => by simp
  have hrecipe := writeBack_recipe s x
  -- every slot stays as full as it was, with the same trim limit
  have hlike : ∀ n r, s.recipe n = some r → ∃ r', (s.writeBack x).recipe n = some r' ∧ r'.trimLimit = r.trimLimit := by
    intro n r hr
    rw [hrecipe]
    split
    · split
      · rename_i hn; subst hn; simp [hr, withStartTrim_trimLimit]
      · exact ⟨r, hr, rfl⟩
    · exact ⟨r, hr, rfl⟩
  refine ⟨fun n r hr => ?_, fun l n hn => ?_, fun y => ?_, fun y hy => ?_, fun y hy => ?_⟩
  · rw [hrecipe] at hr
    split at hr
    · rename_i m t hm _
      split at hr
      · obtain ⟨r', hr', rfl⟩ := Option.map_eq_some_iff.mp hr
        obtain ⟨hlimit, hstart⟩ := h.recipes m r' hr'
        rw [withStartTrim_trimLimit]
        refine ⟨hlimit, fun p q hq => ?_⟩
        rcases withStartTrim_positions hq with hold | hnew
        · exact hstart p q hold
        · obtain ⟨k, r2, hk, hr2, hle⟩ := h.learned x hv
          rw [hm] at hk
          cases hk
          rw [hr'] at hr2
          cases hr2
          rwa [hnew]
      · exact h.recipes n r hr
    · exact h.recipes n r hr
  · obtain ⟨r, hr⟩ := h.boundFull l n (by simpa using hn)
    obtain ⟨r', hr', -⟩ := hlike n r hr
    exact ⟨r', hr'⟩
  · have := h.trims y
    unfold TrimLaw at *
    simpa using this
  · rw [hcopy] at hy ⊢
    obtain ⟨n, hn, hstart⟩ := h.clean y hy
    refine ⟨n, hn, ?_⟩
    by_cases hmem : n ∈ N
    · exact .inl hmem
    · refine .inr ?_
      have hsame : (s.writeBack x).recipe n = s.recipe n := by
        rw [hrecipe]
        split
        · rename_i m _ hm _
          have hne : n ≠ m := fun e => hmem (hN n (e ▸ hm))
          rw [if_neg hne]
        · rfl
      have := hstart.resolve_left hmem
      simpa [State.startTrim, hsame] using this
  · rw [hcopy] at hy
    obtain ⟨n, r, hn, hr, hle⟩ := h.learned y hy
    obtain ⟨r', hr', hlimit⟩ := hlike n r hr
    exact ⟨n, r', by rw [hcopy]; exact hn, hr', by rw [hcopy, hlimit]; exact hle⟩

theorem of_copies {t : State} (hs : t.slots = s.slots) (hh : t.heads = s.heads) (hl : t.lines = s.lines)
    (clean : ∀ h, (t.copy h).state = .clean →
      ∃ n, (t.copy h).slot = some n ∧ (n ∈ N ∨ t.startTrim n h = some (t.copy h).learned))
    (learned : ∀ h, LearnedLaw t h) {M : List Slot} (h : StoreBut M s) : StoreBut N t where
  recipes n r hr := h.recipes n r (by simpa only [State.recipe, hs] using hr)
  boundFull l n hn := by
    obtain ⟨r, hr⟩ := h.boundFull l n (by simpa only [State.line, hl] using hn)
    exact ⟨r, by simpa only [State.recipe, hs] using hr⟩
  trims x := by simpa only [TrimLaw, State.head, hh] using h.trims x
  clean := clean
  learned := learned

/-- Re-marking the copies of a slot settles that slot. -/
theorem remarkSlot (n : Slot) (h : StoreBut (n :: N) s) : StoreBut N (s.remarkSlot n) := by
  obtain ⟨hs, hh, hl⟩ := remarkSlot_same s n
  refine h.of_copies hs hh hl (fun x hx => ?_) fun x hx => ?_
  · by_cases hheld : (s.copy x).state ≠ .invalid ∧ (s.copy x).slot = some n
    · rw [remarkSlot_copy, if_pos hheld] at hx ⊢
      rw [markedCopy_of_valid hheld.1 hheld.2] at hx ⊢
      refine ⟨n, hheld.2, .inr ?_⟩
      rw [startTrim_congr hs hh]
      refine Classical.byContradiction fun hne => ?_
      simp [hne] at hx
    · rw [remarkSlot_copy, if_neg hheld] at hx ⊢
      obtain ⟨m, hm, hstart⟩ := h.clean x hx
      refine ⟨m, hm, ?_⟩
      rw [startTrim_congr hs hh]
      refine hstart.imp_left fun hmem => (List.mem_cons.mp hmem).resolve_left fun e =>
        hheld ⟨by simp [hx], hm.trans (congrArg some e)⟩
  · have hkept : ((s.remarkSlot n).copy x).slot = (s.copy x).slot ∧ ((s.remarkSlot n).copy x).learned = (s.copy x).learned ∧
        (((s.remarkSlot n).copy x).state = .invalid ↔ (s.copy x).state = .invalid) := by
      rw [remarkSlot_copy]
      split
      · exact ⟨markedCopy_slot s x, markedCopy_learned s x, markedCopy_invalid_iff s x⟩
      · exact ⟨rfl, rfl, Iff.rfl⟩
    obtain ⟨hslot, hlearned, hinvalid⟩ := hkept
    obtain ⟨m, r, hm, hr, hle⟩ := h.learned x (fun e => hx (hinvalid.mpr e))
    exact ⟨m, r, hslot.trans hm, by simpa only [State.recipe, hs] using hr, by rw [hlearned]; exact hle⟩

theorem foldl_remarkSlot (h : StoreBut N s) : StoreBut [] (N.foldl State.remarkSlot s) := by
  induction N generalizing s with
  | nil => exact h
  | cons n N ih => exact ih (h.remarkSlot n)

theorem foldl_writeBack {hs : List HeadId} (hv : ∀ x ∈ hs, (s.copy x).state ≠ .invalid)
    (hN : ∀ x ∈ hs, ∀ n, (s.copy x).slot = some n → n ∈ N) (h : StoreBut N s) :
    StoreBut N (hs.foldl State.writeBack s) := by
  refine (foldl_keeps (Q := fun t => StoreBut N t ∧ t.copies = s.copies) (fun t x hx ht => ?_) ⟨h, rfl⟩).1
  have hcopy : t.copy x = s.copy x := by simp only [State.copy, ht.2]
  exact ⟨ht.1.writeBack x (hcopy ▸ hv x hx) (hcopy ▸ hN x hx), by simpa using ht.2⟩

theorem writeBackAll {hs : List HeadId} (hv : ∀ x ∈ hs, (s.copy x).state ≠ .invalid) (h : StoreBut [] s) :
    StoreBut [] (s.writeBackAll hs) :=
  foldl_remarkSlot (foldl_writeBack hv (fun x hx _ hn => List.mem_filterMap.mpr ⟨x, hx, hn⟩) (h.mono (by simp)))

end StoreBut

/-! ## Loads -/

/-- What re-marking and write-backs leave of the copies, the heads and the lines; no slot becomes empty. -/
structure CopiesLike (s t : State) : Prop where
  slot : ∀ x, (t.copy x).slot = (s.copy x).slot
  learned : ∀ x, (t.copy x).learned = (s.copy x).learned
  invalid : ∀ x, (t.copy x).state = .invalid ↔ (s.copy x).state = .invalid
  heads : t.heads = s.heads
  lines : t.lines = s.lines
  full : ∀ n r, s.recipe n = some r → ∃ r', t.recipe n = some r'

namespace CopiesLike

variable {t u : State}

theorem refl (s : State) : CopiesLike s s := ⟨fun _ => rfl, fun _ => rfl, fun _ => Iff.rfl, rfl, rfl, fun _ r hr => ⟨r, hr⟩⟩

theorem trans (a : CopiesLike s t) (b : CopiesLike t u) : CopiesLike s u where
  slot x := (b.slot x).trans (a.slot x)
  learned x := (b.learned x).trans (a.learned x)
  invalid x := (b.invalid x).trans (a.invalid x)
  heads := b.heads.trans a.heads
  lines := b.lines.trans a.lines
  full n r hr := by
    obtain ⟨r', hr'⟩ := a.full n r hr
    exact b.full n r' hr'

theorem remarkSlot (s : State) (n : Slot) : CopiesLike s (s.remarkSlot n) := by
  obtain ⟨hs, hh, hl⟩ := remarkSlot_same s n
  have hcopy := remarkSlot_copy s n
  refine ⟨fun x => ?_, fun x => ?_, fun x => ?_, hh, hl, fun m r hr => ⟨r, by simpa only [State.recipe, hs] using hr⟩⟩
  · rw [hcopy]; split
    · exact markedCopy_slot s x
    · rfl
  · rw [hcopy]; split
    · exact markedCopy_learned s x
    · rfl
  · rw [hcopy]; split
    · exact markedCopy_invalid_iff s x
    · rfl

theorem writeBack (s : State) (x : HeadId) : CopiesLike s (s.writeBack x) := by
  refine ⟨fun y => by simp, fun y => by simp, fun y => by simp, by simp, by simp, fun n r hr => ?_⟩
  rw [writeBack_recipe]
  split
  · split
    · rename_i hn; exact ⟨_, by rw [← hn, hr]; rfl⟩
    · exact ⟨r, hr⟩
  · exact ⟨r, hr⟩

theorem writeBackAll (s : State) (hs : List HeadId) : CopiesLike s (s.writeBackAll hs) :=
  foldl_keeps (fun t n _ ht => ht.trans (remarkSlot t n)) (foldl_keeps (fun t x _ ht => ht.trans (writeBack t x)) (refl s))

end CopiesLike

/-- The trim a load of a slot gives a head (R68). -/
def loadTrim (s : State) (n : Slot) (h : HeadId) : Int :=
  clampAbs (match s.recipe n with
    | some r => r.trimLimit
    | none => 0) (if s.isHit n h then (s.copy h).learned else (s.startTrim n h).getD 0)

theorem natAbs_clampAbs (b : Nat) (x : Int) : (clampAbs b x).natAbs ≤ b := by
  unfold clampAbs
  split
  · omega
  · split
    · omega
    · omega

theorem load_copy (s : State) (n : Slot) (h x : HeadId) : (s.load n h).copy x =
    if x = h then ⟨some n, if s.startTrim n h = some (loadTrim s n h) then .clean else .dirty, loadTrim s n h⟩ else s.copy x := by
  have hload : (s.load n h).copy x = ((s.setCopy h ⟨some n, .clean, loadTrim s n h⟩).remark h).copy x := rfl
  have hstart : ∀ c, (s.setCopy h c).startTrim n h = s.startTrim n h := fun c => startTrim_congr rfl rfl n h
  rw [hload, remark_copy]
  by_cases hx : x = h
  · subst hx
    simp [hstart]
  · simp [hx]

theorem load_head (s : State) (n : Slot) (h x : HeadId) : (s.load n h).head x =
    if x = h then { s.head h with trim := loadTrim s n h } else s.head x := by
  have hmarked : ∀ y, ((s.setCopy h ⟨some n, .clean, loadTrim s n h⟩).remark h).head y = s.head y := fun y => by simp
  have hload : (s.load n h).head x = (((s.setCopy h ⟨some n, .clean, loadTrim s n h⟩).remark h).modHead h
    fun r => { r with trim := loadTrim s n h }).head x := rfl
  rw [hload, modHead_head, hmarked, hmarked]

theorem load_startTrim (s : State) (n m : Slot) (h x : HeadId) : (s.load n h).startTrim m x = s.startTrim m x := by
  have hrecipe : (s.load n h).recipe m = s.recipe m := by simp [State.recipe]
  have hsettings : ((s.load n h).head x).settings = (s.head x).settings := by
    rw [load_head]
    split
    · rename_i hx; rw [hx]
    · rfl
  simp only [State.startTrim, hrecipe, hsettings]

theorem StoreBut.load {N : List Slot} {n : Slot} {r : Recipe} (hr : s.recipe n = some r) (x : HeadId) (h : StoreBut N s) :
    StoreBut N (s.load n x) := by
  have hslots : ∀ m, (s.load n x).recipe m = s.recipe m := fun m => by simp [State.recipe]
  have hlimit := (h.recipes n r hr).1
  have htrim : (loadTrim s n x).natAbs ≤ r.trimLimit := by
    unfold loadTrim
    rw [hr]
    exact natAbs_clampAbs _ _
  refine ⟨fun m q hq => h.recipes m q (by rwa [hslots] at hq), fun l m hm => ?_, fun y => ?_, fun y hy => ?_, fun y hy => ?_⟩
  · obtain ⟨q, hq⟩ := h.boundFull l m (by simpa using hm)
    exact ⟨q, by rwa [hslots]⟩
  · unfold TrimLaw
    rw [load_head]
    split
    · exact Nat.le_trans htrim hlimit
    · exact h.trims y
  · by_cases hyx : y = x
    · subst hyx
      rw [load_copy, if_pos rfl] at hy ⊢
      refine ⟨n, rfl, .inr ?_⟩
      rw [load_startTrim]
      refine Classical.byContradiction fun hne => ?_
      simp [hne] at hy
    · rw [load_copy, if_neg hyx] at hy ⊢
      simpa only [load_startTrim] using h.clean y hy
  · by_cases hyx : y = x
    · subst hyx
      rw [load_copy, if_pos rfl]
      exact ⟨n, r, rfl, by rwa [hslots], htrim⟩
    · rw [load_copy, if_neg hyx] at hy ⊢
      obtain ⟨m, q, hm, hq, hle⟩ := h.learned y hy
      exact ⟨m, q, hm, by rwa [hslots], hle⟩

/-! ## Evictions and loads -/

/-- The slots a target gives hold recipes. -/
def TargetsFull (s : State) (target : HeadId → Option Slot) : Prop := ∀ h n, target h = some n → ∃ r, s.recipe n = some r

theorem StoreBut.evictAndLoad {target : HeadId → Option Slot} {hs : List HeadId} (htarget : TargetsFull s target)
    (h : StoreBut [] s) : StoreBut [] (s.evictAndLoad target hs) := by
  have hvalid : ∀ x ∈ s.evicted target hs, (s.copy x).state ≠ .invalid := by
    intro x hx
    have hdirty := (List.mem_filter.mp hx).2
    split at hdirty
    · simp only [Bool.and_eq_true, beq_iff_eq] at hdirty
      simp [hdirty.1]
    · cases hdirty
  unfold State.evictAndLoad
  refine (foldl_keeps (Q := fun t => StoreBut [] t ∧ TargetsFull t target) (fun t x _ ht => ?_)
    ⟨h.writeBackAll hvalid, fun x n hn => ?_⟩).1
  · obtain ⟨hstore, hfull⟩ := ht
    split
    · rename_i n hn
      obtain ⟨r, hr⟩ := hfull x n hn
      exact ⟨hstore.load hr x, fun y m hm => by simpa [State.recipe] using hfull y m hm⟩
    · exact ⟨hstore, hfull⟩
  · obtain ⟨r, hr⟩ := htarget x n hn
    exact (CopiesLike.writeBackAll s _).full n r hr

/-- A head loaded has a copy of the slot it was loaded from. -/
theorem evictAndLoad_slot {target : HeadId → Option Slot} {hs : List HeadId} {x : HeadId} {n : Slot} (hx : x ∈ hs)
    (hn : target x = some n) : ((s.evictAndLoad target hs).copy x).slot = some n := by
  obtain ⟨before, after, rfl⟩ := List.append_of_mem hx
  unfold State.evictAndLoad
  rw [List.foldl_append, List.foldl_cons]
  refine foldl_keeps (Q := fun t => (t.copy x).slot = some n) (fun t y _ ht => ?_) ?_
  · split
    · rename_i m hm
      rw [load_copy]
      split
      · rename_i hyx
        rw [← hyx, hn] at hm
        exact hm.symm
      · exact ht
    · exact ht
  · rw [hn]
    simp [load_copy]

/-- A head that is not loaded keeps its copy but for the marking. -/
theorem evictAndLoad_copy_of_not {target : HeadId → Option Slot} {hs : List HeadId} {x : HeadId}
    (hx : x ∈ hs → target x = none) : ((s.evictAndLoad target hs).copy x).slot = (s.copy x).slot ∧
      (((s.evictAndLoad target hs).copy x).state = .invalid ↔ (s.copy x).state = .invalid) := by
  have hback := CopiesLike.writeBackAll s (s.evicted target hs)
  have hsame : (s.evictAndLoad target hs).copy x = (s.writeBackAll (s.evicted target hs)).copy x := by
    unfold State.evictAndLoad
    refine foldl_keeps (Q := fun t => t.copy x = (s.writeBackAll (s.evicted target hs)).copy x) (fun t y hy ht => ?_) rfl
    split
    · rename_i m hm
      rw [load_copy, if_neg ?_]
      · exact ht
      · rintro rfl
        rw [hx hy] at hm
        cases hm
    · exact ht
  rw [hsame]
  exact ⟨hback.slot x, hback.invalid x⟩

theorem evictAndLoad_settings (target : HeadId → Option Slot) (hs : List HeadId) (x : HeadId) :
    ((s.evictAndLoad target hs).head x).settings = (s.head x).settings := by
  unfold State.evictAndLoad
  refine foldl_keeps (Q := fun t => (t.head x).settings = (s.head x).settings) (fun t y _ ht => ?_) ?_
  · split
    · rw [load_head]
      split
      · rename_i hxy; rw [← hxy]; exact ht
      · exact ht
    · exact ht
  · simp only [State.head, (CopiesLike.writeBackAll s _).heads]

theorem evictAndLoad_lines (target : HeadId → Option Slot) (hs : List HeadId) :
    (s.evictAndLoad target hs).lines = s.lines := by
  unfold State.evictAndLoad
  refine foldl_keeps (Q := fun t => t.lines = s.lines) (fun t y _ ht => ?_) (CopiesLike.writeBackAll s _).lines
  split
  · simpa using ht
  · exact ht

end Sys2Proof.Proofs

/-! The laws of the recipe store, the working copies and the trims (R58, R66, R74). -/

namespace Sys2Proof.Proofs

open Sys2Proof.Machine Sys2Proof.Safety

/-- The slots, the copies, the heads' settings and trims, the bound and pending recipes and the runs are as they were. -/
structure StoreSame (s t : State) : Prop where
  slots : t.slots = s.slots
  copies : t.copies = s.copies
  settings : ∀ h, (t.head h).settings = (s.head h).settings
  trim : ∀ h, (t.head h).trim = (s.head h).trim
  bound : ∀ l, (t.line l).bound = (s.line l).bound
  pending : ∀ l, (t.line l).pendingRecipe = (s.line l).pendingRecipe
  runOpen : ∀ l, t.runOpen l = true → s.runOpen l = true

namespace StoreSame

variable {s t u : State}

theorem refl (s : State) : StoreSame s s :=
  ⟨rfl, rfl, fun _ => rfl, fun _ => rfl, fun _ => rfl, fun _ => rfl, fun _ => id⟩

theorem trans (a : StoreSame s t) (b : StoreSame t u) : StoreSame s u where
  slots := b.slots.trans a.slots
  copies := b.copies.trans a.copies
  settings h := (b.settings h).trans (a.settings h)
  trim h := (b.trim h).trans (a.trim h)
  bound l := (b.bound l).trans (a.bound l)
  pending l := (b.pending l).trans (a.pending l)
  runOpen l h := a.runOpen l (b.runOpen l h)

/-- An action that leaves the slots, the copies, the heads and the lines. -/
theorem of_same (hs : t.slots = s.slots) (hc : t.copies = s.copies) (hh : t.heads = s.heads) (hl : t.lines = s.lines) :
    StoreSame s t := by
  refine ⟨hs, hc, fun h => ?_, fun h => ?_, fun l => ?_, fun l => ?_, fun l => ?_⟩
  · simp only [State.head, hh]
  · simp only [State.head, hh]
  · simp only [State.line, hl]
  · simp only [State.line, hl]
  · unfold State.runOpen State.line; rw [hl]; exact id

theorem notify (s : State) (l : Option LineId) (b : NoticeBody) : StoreSame s (s.notify l b) :=
  .of_same (by simp) (by simp) (by simp) (by simp)

theorem modHead (x : HeadId) (f : HeadRec → HeadRec) (hf : ∀ r, (f r).settings = r.settings ∧ (f r).trim = r.trim) :
    StoreSame s (s.modHead x f) := by
  refine ⟨rfl, rfl, fun y => ?_, fun y => ?_, fun _ => rfl, fun _ => rfl, fun _ => id⟩
  · rw [modHead_head]; split
    · rename_i hy; rw [(hf _).1, hy]
    · rfl
  · rw [modHead_head]; split
    · rename_i hy; rw [(hf _).2, hy]
    · rfl

theorem modLine (l : LineId) (f : LineRec → LineRec)
    (hf : (f (s.line l)).bound = (s.line l).bound ∧ (f (s.line l)).pendingRecipe = (s.line l).pendingRecipe ∧
      ((s.line l).state = .idle → (f (s.line l)).state = .idle)) : StoreSame s (s.modLine l f) := by
  refine ⟨rfl, rfl, fun _ => rfl, fun _ => rfl, fun y => ?_, fun y => ?_, fun y => ?_⟩
  · rw [modLine_line]; split
    · rename_i hy; rw [hf.1, hy]
    · rfl
  · rw [modLine_line]; split
    · rename_i hy; rw [hf.2.1, hy]
    · rfl
  · unfold State.runOpen
    rw [modLine_line]; split
    · rename_i hy
      subst hy
      simp only [ne_eq, decide_eq_true_eq]
      exact fun hrun hidle => hrun (hf.2.2 hidle)
    · exact id

theorem offerCause (s : State) (l : LineId) (x : StopCause) : StoreSame s (s.offerCause l x) := by
  have hrun := (RunsOn.offerCause s l x).runOpen
  refine ⟨by simp, by simp, fun h => by simp, fun h => by simp, fun y => ?_, fun y => ?_, fun y => by rw [hrun]; exact id⟩
  · by_cases hy : y = l
    · subst hy
      rw [offerCause_line_self]
      unfold afterOffer
      split
      · rfl
      · rfl
      · split <;> rfl
    · rw [offerCause_line_of_ne _ hy]
  · by_cases hy : y = l
    · subst hy
      rw [offerCause_line_self]
      unfold afterOffer
      split
      · rfl
      · rfl
      · split <;> rfl
    · rw [offerCause_line_of_ne _ hy]

theorem removeCutHeld (s : State) (l : LineId) : StoreSame s (s.removeCutHeld l) := by
  unfold State.removeCutHeld
  split
  · refine .modLine l _ ⟨rfl, rfl, fun hidle => ?_⟩
    dsimp only
    split
    · rename_i h; rw [hidle] at h; exact nomatch h.1
    · exact hidle
  · exact .refl s

theorem evaluateGrant (s : State) : StoreSame s s.evaluateGrant := by
  have hgrant : ∀ l, StoreSame s (s.grantTo l) := by
    intro l
    unfold State.grantTo
    dsimp only
    split
    · exact .of_same rfl rfl rfl rfl
    · exact .of_same rfl rfl rfl rfl
  unfold State.evaluateGrant
  split
  · exact .refl s
  · split
    · exact .of_same rfl rfl rfl rfl
    · split
      · exact hgrant _
      · exact .refl s

/-- The heads' tables that run events keep settings and trim in. -/
theorem modHeads (hs : List HeadId) (f : HeadRec → HeadRec) (hf : ∀ r, (f r).settings = r.settings ∧ (f r).trim = r.trim)
    (h : StoreSame s t) : StoreSame s (hs.foldl (fun s h => s.modHead h f) t) :=
  foldl_keeps (fun _ x _ hu => hu.trans (.modHead x f hf)) h

theorem modChannels (cs : List ChannelId) (f : Channel → Channel) (h : StoreSame s t) :
    StoreSame s (cs.foldl (fun s c => s.modChannel c f) t) :=
  foldl_keeps (fun _ _ _ hu => hu.trans (.of_same rfl rfl rfl rfl)) h

theorem modScanLink (k : ScanLink) (f : LinkRec → LinkRec) : StoreSame s (s.modScanLink k f) := by
  cases k <;> exact .of_same rfl rfl rfl rfl

theorem abandonScan (s : State) (l : LineId) : StoreSame s (s.abandonScan l) := by
  unfold State.abandonScan
  split
  · exact .modScanLink _ _
  · exact .refl s

theorem endRun (s : State) (l : LineId) : StoreSame s (s.endRun l) := by
  have hmeasures : StoreSame s (endMeasures s l) := by
    refine .modHeads _ _ (fun _ => ⟨rfl, rfl⟩) ?_
    split
    · exact (StoreSame.abandonScan s l).trans (.of_same rfl rfl rfl rfl)
    · exact .abandonScan s l
  rw [endRun_eq]
  unfold endRecords
  refine hmeasures.trans (.trans ?_ (.modLine l _ ⟨rfl, rfl, fun _ => rfl⟩))
  exact .of_same rfl rfl rfl rfl

theorem closeCoil (s : State) (l : LineId) (why : CutReason) (own : Bool) (p : Option (LineId × Nat)) (m : Bool) :
    StoreSame s (s.closeCoil l why own p m) := by
  unfold State.closeCoil
  split
  · exact .of_same rfl rfl rfl rfl
  · exact .refl s

theorem cutClosed (s : State) (l : LineId) (why : CutReason) : StoreSame s (cutClosed s l why) := by
  have hcutters : ∀ ls : List LineId, StoreSame s (ls.foldl State.assertCutter s) := fun ls =>
    foldl_keeps (fun _ _ _ hu => hu.trans (.of_same rfl rfl rfl rfl)) (.refl s)
  unfold Proofs.cutClosed
  dsimp only
  split
  · exact ((hcutters _).trans (.closeCoil _ _ _ _ _ _)).trans (.closeCoil _ _ _ _ _ _)
  · exact (hcutters _).trans (.closeCoil _ _ _ _ _ _)

theorem settleColumns (s : State) (l : LineId) (used : Nat) : StoreSame s (s.settleColumns l used) := by
  unfold State.settleColumns
  refine .trans (foldl_keeps (Q := StoreSame s) (fun t x _ h => ?_) (.refl s)) (.of_same rfl rfl rfl rfl)
  split
  · split
    · exact h.trans (.of_same (by simp) (by simp) (by simp) (by simp))
    · exact h
  · exact h

theorem dropPlacement (s : State) (l : LineId) : StoreSame s (s.dropPlacement l) := by
  have hcoil : StoreSame s (s.modCoil l fun k => { k with stage := .none }) := .of_same rfl rfl rfl rfl
  unfold State.dropPlacement
  split
  · exact .refl s
  · exact hcoil
  · exact hcoil.trans (.removeCutHeld _ l)

theorem knotRunStart (s : State) (l : LineId) : StoreSame s (s.knotRunStart l) := by
  have hknot : StoreSame s (s.modKnot l fun _ => .powerOn) := .of_same rfl rfl rfl rfl
  unfold State.knotRunStart
  split
  · exact .refl s
  · dsimp only
    split
    · exact hknot.trans (.modScanLink _ _)
    · exact hknot

theorem recipe (h : StoreSame s t) (n : Slot) : t.recipe n = s.recipe n := by simp only [State.recipe, h.slots]

theorem copy (h : StoreSame s t) (x : HeadId) : t.copy x = s.copy x := by simp only [State.copy, h.copies]

theorem startTrim (h : StoreSame s t) (n : Slot) (x : HeadId) : t.startTrim n x = s.startTrim n x := by
  simp only [State.startTrim, h.recipe, h.settings]

theorem storeBut {N : List Slot} (h : StoreSame s t) (hs : StoreBut N s) : StoreBut N t where
  recipes n r hr := hs.recipes n r (by rwa [← h.recipe])
  boundFull l n hn := by
    obtain ⟨r, hr⟩ := hs.boundFull l n (by rwa [← h.bound, ← h.pending])
    exact ⟨r, by rwa [h.recipe]⟩
  trims x := by unfold TrimLaw; rw [h.trim]; exact hs.trims x
  clean x hx := by
    rw [h.copy] at hx ⊢
    simpa only [h.startTrim] using hs.clean x hx
  learned x := by
    unfold LearnedLaw
    simp only [h.copy, h.recipe]
    exact hs.learned x

theorem laws (h : StoreSame s t) (hs : StoreLaws s) : StoreLaws t := by
  obtain ⟨hstore, hheads⟩ := (storeLaws_iff s).mp hs
  refine (storeLaws_iff t).mpr ⟨h.storeBut hstore, fun x u hu hrun hv => ?_⟩
  rw [h.copy] at hv ⊢
  rw [h.bound]
  exact hheads x u (by rwa [← h.settings]) (h.runOpen _ hrun) hv

end StoreSame

/-! ## Pending recipes applied -/

variable {s : State}

/-- A valid copy of a head whose line has a run open is of the line's bound recipe, or of its pending one where the line
is one of `ls`. -/
def HeadsToBe (ls : List LineId) (s : State) : Prop :=
  ∀ h u, (s.head h).settings = some u → s.runOpen u.line = true → (s.copy h).state ≠ .invalid →
    (s.copy h).slot = if u.line ∈ ls then (s.line u.line).runSlot else (s.line u.line).bound

theorem headsLaw_iff (s : State) : HeadsLaw s ↔ HeadsToBe [] s := by
  simp [HeadsLaw, HeadsToBe]

theorem HeadsToBe.of_same {ls : List LineId} {t : State} (e : StoreSame s t) (h : HeadsToBe ls s) : HeadsToBe ls t := by
  intro x u hu hrun hv
  rw [e.copy] at hv ⊢
  rw [h x u (by rwa [← e.settings]) (e.runOpen _ hrun) hv]
  simp only [LineRec.runSlot, e.bound, e.pending]

theorem boundTo_line (s : State) (l : LineId) (n : Slot) (x : LineId) : (boundTo s l n).line x =
    if x = l then { s.line l with bound := some n, pendingRecipe := none } else s.line x := by
  unfold boundTo
  have hheads : ∀ (t : State) (hs : List HeadId) f, (hs.foldl (fun s h => s.modHead h f) t).line x = t.line x := fun t hs f => by
    refine foldl_keeps (Q := fun u => u.line x = t.line x) (fun u y _ hu => ?_) rfl
    exact hu
  rw [hheads, modLine_line]

/-- What a change of bound recipe leaves of the store, the copies and the heads. -/
theorem boundTo_rest (s : State) (l : LineId) (n : Slot) : (boundTo s l n).slots = s.slots ∧
    (boundTo s l n).copies = s.copies ∧ ∀ h, ((boundTo s l n).head h).settings = (s.head h).settings ∧
      ((boundTo s l n).head h).trim = (s.head h).trim := by
  unfold boundTo
  dsimp only
  refine foldl_keeps (Q := fun t => t.slots = s.slots ∧ t.copies = s.copies ∧
    ∀ h, (t.head h).settings = (s.head h).settings ∧ (t.head h).trim = (s.head h).trim)
    (fun t x _ ht => ?_) ⟨rfl, rfl, fun _ => ⟨rfl, rfl⟩⟩
  obtain ⟨hs, hc, hh⟩ := ht
  refine ⟨hs, hc, fun y => ?_⟩
  rw [modHead_head]
  split
  · rename_i hy; rw [hy]; exact hh x
  · exact hh y

theorem boundTo_runOpen (s : State) (l : LineId) (n : Slot) (x : LineId) : (boundTo s l n).runOpen x = s.runOpen x := by
  unfold State.runOpen
  rw [boundTo_line]
  split
  · rename_i hx; rw [hx]
  · rfl

theorem boundTo_keeps {l : LineId} {n : Slot} {ls : List LineId} (hn : (s.line l).pendingRecipe = some n)
    (h : StoreBut [] s) (hheads : HeadsToBe (l :: ls) s) : StoreBut [] (boundTo s l n) ∧ HeadsToBe ls (boundTo s l n) := by
  obtain ⟨hs, hc, hh⟩ := boundTo_rest s l n
  have hrecipe : ∀ m, (boundTo s l n).recipe m = s.recipe m := fun m => by simp only [State.recipe, hs]
  have hcopy : ∀ x, (boundTo s l n).copy x = s.copy x := fun x => by simp only [State.copy, hc]
  constructor
  · refine ⟨fun m r hr => h.recipes m r (by rwa [hrecipe] at hr), fun x m hm => ?_, fun x => ?_, fun x hx => ?_, fun x => ?_⟩
    · rw [boundTo_line] at hm
      rw [hrecipe]
      split at hm
      · obtain hm | hm := hm
        · cases hm; exact h.boundFull l n (.inr hn)
        · cases hm
      · exact h.boundFull x m hm
    · unfold TrimLaw; rw [(hh x).2]; exact h.trims x
    · rw [hcopy] at hx ⊢
      simpa only [State.startTrim, hrecipe, (hh x).1] using h.clean x hx
    · unfold LearnedLaw
      simp only [hcopy, hrecipe]
      exact h.learned x
  · intro x u hu hrun hv
    rw [hcopy] at hv ⊢
    rw [hheads x u (by rwa [← (hh x).1]) (by rwa [← boundTo_runOpen s l n]) hv, boundTo_line]
    by_cases hl : u.line = l
    · simp [hl, LineRec.runSlot, hn]
    · simp [hl]

theorem bindPending_of_none {l : LineId} (h : (s.line l).pendingRecipe = none) (w : Nat) (b : Bool) :
    s.bindPending l w b = s := by
  rw [bindPending_eq, h]

/-- After the change of bound recipe the columns are settled and the notice is sent, which the store does not see. -/
theorem bindPending_of_some {l : LineId} {n : Slot} (h : (s.line l).pendingRecipe = some n) (w : Nat) (b : Bool) :
    StoreSame (boundTo s l n) (s.bindPending l w b) := by
  rw [bindPending_eq, h]
  dsimp only
  refine .trans ?_ (.notify _ _ _)
  split
  · exact .settleColumns _ _ _
  · exact .refl _

theorem bindPending_keeps {l : LineId} {ls : List LineId} (w : Nat) (b : Bool) (h : StoreBut [] s)
    (hheads : HeadsToBe (l :: ls) s) : StoreBut [] (s.bindPending l w b) ∧ HeadsToBe ls (s.bindPending l w b) := by
  cases hn : (s.line l).pendingRecipe with
  | none =>
    rw [bindPending_of_none hn]
    refine ⟨h, fun x u hu hrun hv => ?_⟩
    rw [hheads x u hu hrun hv]
    by_cases hl : u.line = l
    · simp [hl, LineRec.runSlot, hn]
    · simp [hl]
  | some n =>
    obtain ⟨hstore, hbe⟩ := boundTo_keeps hn h hheads
    have hsame := bindPending_of_some hn w b
    exact ⟨hsame.storeBut hstore, hbe.of_same hsame⟩

theorem bindPending_bound (s : State) (l : LineId) (w : Nat) (b : Bool) :
    ((s.bindPending l w b).line l).bound = (s.line l).runSlot := by
  cases hn : (s.line l).pendingRecipe with
  | none => simp [bindPending_of_none hn, LineRec.runSlot, hn]
  | some n => rw [(bindPending_of_some hn w b).bound, boundTo_line, if_pos rfl, LineRec.runSlot, hn]; rfl

theorem bindPending_copy (s : State) (l : LineId) (w : Nat) (b : Bool) (x : HeadId) :
    (s.bindPending l w b).copy x = s.copy x := by
  cases hn : (s.line l).pendingRecipe with
  | none => rw [bindPending_of_none hn]
  | some n => rw [(bindPending_of_some hn w b).copy]; simp only [State.copy, (boundTo_rest s l n).2.1]

theorem applyPending_keeps (ls : List LineId) (h : StoreLaws s) : StoreLaws (s.applyPending ls) := by
  obtain ⟨hstore, hheads⟩ := (storeLaws_iff s).mp h
  have htarget : TargetsFull s (s.pendingTarget ls) := by
    intro x n hn
    unfold State.pendingTarget at hn
    split at hn
    · split at hn
      · exact hstore.boundFull _ n (.inr hn)
      · cases hn
    · cases hn
  have hloaded : HeadsToBe ls (s.evictAndLoad (s.pendingTarget ls) (allHeads.filter fun h => (s.pendingTarget ls h).isSome)) := by
    intro x u hu hrun hv
    rw [evictAndLoad_settings] at hu
    have hlines := evictAndLoad_lines (s := s) (s.pendingTarget ls) (allHeads.filter fun h => (s.pendingTarget ls h).isSome)
    have htargetx : s.pendingTarget ls x = if u.line ∈ ls then (s.line u.line).pendingRecipe else none := by
      simp only [State.pendingTarget, hu]
    simp only [State.runOpen, State.line, hlines] at hrun ⊢
    cases hn : s.pendingTarget ls x with
    | some n =>
      have hmem : x ∈ allHeads.filter fun h => (s.pendingTarget ls h).isSome := by simp [allHeads, hn]
      rw [evictAndLoad_slot hmem hn]
      rw [htargetx] at hn
      split at hn
      · rename_i hl
        rw [if_pos hl, LineRec.runSlot, show (s.lines.get u.line).pendingRecipe = some n from hn]
        rfl
      · cases hn
    | none =>
      obtain ⟨hslot, hinvalid⟩ := evictAndLoad_copy_of_not (s := s) (target := s.pendingTarget ls)
        (hs := allHeads.filter fun h => (s.pendingTarget ls h).isSome) (x := x) fun _ => hn
      rw [hslot, hheads x u hu hrun (fun e => hv (hinvalid.mpr e))]
      rw [htargetx] at hn
      split
      · rename_i hl
        rw [if_pos hl] at hn
        rw [LineRec.runSlot, show (s.lines.get u.line).pendingRecipe = none from hn]
        rfl
      · rfl
  unfold State.applyPending
  dsimp only
  have hbind : ∀ (w : LineId → Nat) (ls : List LineId) (t : State), StoreBut [] t → HeadsToBe ls t →
      StoreLaws (ls.foldl (fun s l => s.bindPending l (w l) false) t) := by
    intro w ls
    induction ls with
    | nil => exact fun t ht hbe => (storeLaws_iff t).mpr ⟨ht, (headsLaw_iff t).mpr hbe⟩
    | cons l ls ih =>
      intro t ht hbe
      obtain ⟨ht', hbe'⟩ := bindPending_keeps (w l) false ht hbe
      exact ih _ ht' hbe'
  exact hbind _ ls _ (hstore.evictAndLoad htarget) hloaded

theorem storeLaws_cutParts : KeepsCutParts StoreLaws where
  notify s l b h := (StoreSame.notify s l b).laws h
  removeCutHeld s l h := (StoreSame.removeCutHeld s l).laws h
  pos s _ _ _ h := StoreSame.laws (s := s) (.of_same rfl rfl rfl rfl) h
  coil s _ _ _ h := StoreSame.laws (s := s) (.of_same rfl rfl rfl rfl) h
  openNextCoil s _ h := StoreSame.laws (s := s) (.of_same rfl rfl rfl rfl) h
  evaluateGrant s h := (StoreSame.evaluateGrant s).laws h
  applyPending _ ls h := applyPending_keeps ls h

theorem storeLaws_performCut (l : LineId) (why : CutReason) (h : StoreLaws s) : StoreLaws (s.performCut l why) := by
  rw [performCut_eq]
  exact storeLaws_cutParts.cutSettled _ _ _ (fun _ s l h => (StoreSame.endRun s l).laws h)
    ((StoreSame.cutClosed s l why).laws h)

end Sys2Proof.Proofs

namespace Sys2Proof.Proofs

open Sys2Proof.Machine Sys2Proof.Safety

variable {s : State}

/-! ## A run's opening -/

/-- What RUN START loads: the heads of the line have copies of its slot, which is the bound recipe (R8). -/
structure Loaded (l : LineId) (n : Slot) (s : State) : Prop where
  store : StoreBut [] s
  heads : HeadsLaw s
  closed : s.runOpen l = false
  bound : (s.line l).bound = some n
  copies : ∀ h u, (s.head h).settings = some u → u.line = l → (s.copy h).slot = some n

/-- The heads' settings and the runs stay, and the bound recipe is the slot the run opens under. -/
theorem loaded_runStart {l : LineId} {n : Slot} {r : Recipe} (hready : RunReady s l n r) (h : StoreLaws s) (w : Nat) :
    Loaded l n ((s.evictAndLoad (fun _ => some n) (s.headsOf l)).bindPending l w true) := by
  obtain ⟨hstore, hheads⟩ := (storeLaws_iff s).mp h
  have K := (RunsOn.keepsCuts s).toKeepsRuns
  have hon := K.bindPending l w true (K.evictAndLoad (fun _ => some n) (s.headsOf l) (.refl s))
  have hlines := evictAndLoad_lines (s := s) (fun _ => some n) (s.headsOf l)
  have hline : ∀ x, (s.evictAndLoad (fun _ => some n) (s.headsOf l)).line x = s.line x := fun x => by
    simp only [State.line, hlines]
  have hloaded : StoreBut [] (s.evictAndLoad (fun _ => some n) (s.headsOf l)) :=
    hstore.evictAndLoad fun _ m hm => by cases hm; exact ⟨r, hready.recipe⟩
  -- the line's own heads have no run open yet, and the others keep their copies
  have hbe : HeadsToBe [l] (s.evictAndLoad (fun _ => some n) (s.headsOf l)) := by
    intro x u hu hrun hv
    rw [evictAndLoad_settings] at hu
    have hrun' : s.runOpen u.line = true := by simpa only [State.runOpen, hline] using hrun
    have hne : u.line ≠ l := fun e => by rw [e, hready.closed] at hrun'; cases hrun'
    obtain ⟨hslot, hinvalid⟩ := evictAndLoad_copy_of_not (s := s) (target := fun _ => some n) (hs := s.headsOf l) (x := x)
      fun hx => by
        obtain ⟨v, hv, hvl⟩ := mem_headsOf.mp hx
        rw [hu] at hv
        cases hv
        exact absurd hvl hne
    rw [hslot, hheads x u hu hrun' (fun e => hv (hinvalid.mpr e)), hline, if_neg (by simpa using hne)]
  obtain ⟨hstore', hbe'⟩ := bindPending_keeps w true hloaded hbe
  refine ⟨hstore', (headsLaw_iff _).mpr hbe', ?_, ?_, fun x u hu hul => ?_⟩
  · rw [hon.runOpen, hready.closed]
  · rw [bindPending_bound, hline]
    exact hready.slot
  · rw [bindPending_copy]
    refine evictAndLoad_slot (mem_headsOf.mpr ⟨u, ?_, hul⟩) rfl
    rw [← hon.settings]
    exact hu

theorem Loaded.of_same {l : LineId} {n : Slot} {t : State} (e : StoreSame s t) (h : Loaded l n s) : Loaded l n t := by
  obtain ⟨hstore, hheads, hclosed, hbound, hcopies⟩ := h
  have hlaws := e.laws ((storeLaws_iff s).mpr ⟨hstore, hheads⟩)
  obtain ⟨hstore', hheads'⟩ := (storeLaws_iff t).mp hlaws
  refine ⟨hstore', hheads', ?_, by rw [e.bound, hbound], fun x u hu hul => ?_⟩
  · cases hrun : t.runOpen l
    · rfl
    · rw [e.runOpen l hrun] at hclosed; cases hclosed
  · rw [e.copy]
    exact hcopies x u (by rwa [← e.settings]) hul

/-- With the line's record opened on what was loaded the laws hold. -/
theorem Loaded.opened {l : LineId} {n : Slot} {f : LineRec → LineRec} (h : Loaded l n s)
    (hf : ∀ r, (f r).bound = r.bound ∧ (f r).pendingRecipe = r.pendingRecipe) : StoreLaws (s.modLine l f) := by
  have hline : ∀ x, ((s.modLine l f).line x).bound = (s.line x).bound ∧
      ((s.modLine l f).line x).pendingRecipe = (s.line x).pendingRecipe := by
    intro x
    rw [modLine_line]
    split
    · rename_i hx; rw [hx]; exact hf _
    · exact ⟨rfl, rfl⟩
  obtain ⟨hrecipes, hbound, htrims, hclean, hlearned⟩ := h.store
  refine (storeLaws_iff _).mpr ⟨⟨hrecipes, fun x m hm => ?_, htrims, hclean, hlearned⟩, fun x u hu hrun hv => ?_⟩
  · rw [(hline x).1, (hline x).2] at hm
    exact hbound x m hm
  · rw [(hline _).1]
    by_cases hl : u.line = l
    · rw [hl, h.bound]
      exact h.copies x u hu hl
    · refine h.heads x u hu ?_ hv
      unfold State.runOpen at hrun ⊢
      rwa [modLine_line_of_ne _ _ _ hl] at hrun

theorem storeLaws_openRun {l : LineId} {n : Slot} {r : Recipe} (hready : RunReady s l n r) (h : StoreLaws s) :
    StoreLaws (s.openRun l n r) := by
  have hprepared : Loaded l n (runPrepared s l n) := by
    refine (loaded_runStart hready h (s.evicted (fun _ => some n) (s.headsOf l)).length).of_same (
      .modChannels _ _ (.trans ?_ (.knotRunStart _ l)))
    exact .modHeads _ _ (fun _ => ⟨rfl, rfl⟩) (.refl _)
  have hrecords : ∀ w, StoreLaws (runRecords (runPrepared s l n) l n r w) := by
    intro w
    unfold runRecords
    refine Loaded.opened (n := n) ?_ fun _ => ⟨rfl, rfl⟩
    exact hprepared.of_same (s := runPrepared s l n) (.of_same rfl rfl rfl rfl)
  rw [openRun_eq]
  dsimp only
  split
  · exact (StoreSame.dropPlacement _ _).laws (hrecords _)
  · exact hrecords _

/-! ## Trims corrected -/

theorem trimSet_head (s : State) (h : HeadId) (r : Recipe) (d : Int) (b : Bool) (x : HeadId) :
    ((trimSet s h r d b).head x).settings = (s.head x).settings ∧
      ((trimSet s h r d b).head x).trim = if x = h then newTrim s h r d else (s.head x).trim := by
  unfold trimSet
  dsimp only
  split
  · by_cases hx : x = h
    · subst hx; simp
    · simp [hx]
  · by_cases hx : x = h
    · subst hx; simp
    · simp [hx]

theorem trimSet_same (s : State) (h : HeadId) (r : Recipe) (d : Int) (b : Bool) :
    (trimSet s h r d b).slots = s.slots ∧ (trimSet s h r d b).lines = s.lines := by
  unfold trimSet
  dsimp only
  split <;> simp

/-- The copy of the corrected head has the new trim as its learned trim, and is marked again (R88). -/
theorem trimSet_copy (s : State) (h : HeadId) (r : Recipe) (d : Int) (b : Bool) {n : Slot}
    (hv : (s.copy h).state ≠ .invalid) (hn : (s.copy h).slot = some n) : (trimSet s h r d b).copy h =
      ⟨some n, if s.startTrim n h = some (newTrim s h r d) then .clean else .dirty, newTrim s h r d⟩ := by
  have hstart : ∀ (f : HeadRec → HeadRec) (c : WorkingCopy), (∀ x, (f x).settings = x.settings) →
      ((s.modHead h f).setCopy h c).startTrim n h = s.startTrim n h := fun f c hf => by
    simp [State.startTrim, hf]
  unfold trimSet
  dsimp only
  rw [if_pos (by simp [WorkingCopy.valid, hv]), remark_copy]
  simp [hv, hn, hstart]

theorem trimSet_copy_of_not (s : State) (h : HeadId) (r : Recipe) (d : Int) (b : Bool) {x : HeadId}
    (hx : x = h → (s.copy h).state = .invalid) : (trimSet s h r d b).copy x = s.copy x := by
  unfold trimSet
  dsimp only
  split
  · rename_i hv
    have hne : x ≠ h := fun e => by simp [WorkingCopy.valid, hx e] at hv
    simp [remark_copy, hne]
  · rfl

theorem storeLaws_correctTrim {l : LineId} {h : HeadId} {r : Recipe} (d : Int) (b : Bool) (ht : Tracked s l h r)
    (hs : StoreLaws s) : StoreLaws (s.correctTrim l h r d b) := by
  obtain ⟨hrun, hbound, u, hu, hul⟩ := ht
  obtain ⟨n, hn, hr⟩ := Option.bind_eq_some_iff.mp hbound
  obtain ⟨hslots, hlines⟩ := trimSet_same s h r d b
  have hhead := trimSet_head s h r d b
  have htrim : (newTrim s h r d).natAbs ≤ r.trimLimit := natAbs_clampAbs _ _
  -- a valid copy of the head is of the bound recipe, whose limit the new trim keeps
  have hslot : (s.copy h).state ≠ .invalid → (s.copy h).slot = some n := fun hv => by
    rw [hs.heads h u hu (hul ▸ hrun) hv, hul, hn]
  have hcopy : ∀ x, (x = h ∧ (s.copy h).state ≠ .invalid ∧ (trimSet s h r d b).copy x =
      ⟨some n, if s.startTrim n h = some (newTrim s h r d) then .clean else .dirty, newTrim s h r d⟩) ∨
      (trimSet s h r d b).copy x = s.copy x := by
    intro x
    by_cases hx : x = h ∧ (s.copy h).state ≠ .invalid
    · exact .inl ⟨hx.1, hx.2, hx.1 ▸ trimSet_copy s h r d b hx.2 (hslot hx.2)⟩
    · exact .inr (trimSet_copy_of_not s h r d b fun e => Classical.byContradiction fun hv => hx ⟨e, hv⟩)
  have hrecipe : ∀ m, (trimSet s h r d b).recipe m = s.recipe m := fun m => by simp only [State.recipe, hslots]
  have hline : ∀ x, (trimSet s h r d b).line x = s.line x := fun x => by simp only [State.line, hlines]
  have hstart : ∀ m x, (trimSet s h r d b).startTrim m x = s.startTrim m x := fun m x => by
    simp only [State.startTrim, hrecipe, (hhead x).1]
  have hlaws : StoreLaws (trimSet s h r d b) := by
    refine ⟨fun m q hq => hs.recipes m q (by rwa [hrecipe] at hq), fun x m hm => ?_, fun x v hv hvrun hvalid => ?_, fun x => ?_,
      fun x hx => ?_, fun x hx => ?_⟩
    · rw [hline] at hm
      rw [hrecipe]
      exact hs.boundFull x m hm
    · rw [(hhead x).1] at hv
      simp only [State.runOpen, hline] at hvrun
      rw [hline]
      obtain ⟨rfl, hvalid', hc⟩ | hc := hcopy x
      · rw [hc, ← hslot hvalid']
        exact hs.heads x v hv hvrun hvalid'
      · rw [hc] at hvalid ⊢
        exact hs.heads x v hv hvrun hvalid
    · unfold TrimLaw
      rw [(hhead x).2]
      split
      · exact Nat.le_trans htrim (hs.recipes n r hr).1
      · exact hs.trims x
    · obtain ⟨rfl, -, hc⟩ | hc := hcopy x
      · rw [hc] at hx ⊢
        refine ⟨n, rfl, ?_⟩
        rw [hstart]
        refine Classical.byContradiction fun hne => ?_
        simp [hne] at hx
      · rw [hc] at hx ⊢
        simpa only [hstart] using hs.clean x hx
    · obtain ⟨-, -, hc⟩ | hc := hcopy x
      · exact ⟨n, r, by rw [hc], by rw [hrecipe, hr], by rw [hc]; exact htrim⟩
      · rw [hc] at hx
        obtain ⟨m, q, hm, hq, hle⟩ := hs.learned x hx
        exact ⟨m, q, by rw [hc, hm], by rw [hrecipe, hq], by rw [hc]; exact hle⟩
  rw [correctTrim_eq]
  split
  · exact (StoreSame.offerCause _ _ _).laws hlaws
  · exact hlaws

/-! ## Copies invalidated -/

theorem foldl_invalidate_copy (hs : List HeadId) (s : State) (x : HeadId) :
    (hs.foldl State.invalidate s).copy x = if x ∈ hs then .invalidated else s.copy x := by
  induction hs generalizing s with
  | nil => rfl
  | cons h hs ih =>
    rw [List.foldl_cons, ih]
    by_cases hx : x = h
    · subst hx; simp [State.invalidate]
    · simp [hx, State.invalidate]

theorem foldl_invalidate_same (hs : List HeadId) (s : State) : (hs.foldl State.invalidate s).slots = s.slots ∧
    (hs.foldl State.invalidate s).heads = s.heads ∧ (hs.foldl State.invalidate s).lines = s.lines :=
  foldl_keeps (Q := fun t => t.slots = s.slots ∧ t.heads = s.heads ∧ t.lines = s.lines)
    (fun t x _ ht => by simpa using ht) ⟨rfl, rfl, rfl⟩

/-- The laws hold where each copy is as it was or is invalid, the trims are in range, and each copy that is valid has the
settings and the run it had. -/
theorem storeLaws_of_copies {t : State} (hslots : ∀ n, t.recipe n = s.recipe n) (hbound : BoundFull t)
    (htrims : ∀ h, TrimLaw t h) (hcopies : ∀ h, (t.copy h).state ≠ .invalid → t.copy h = s.copy h ∧
      (∀ n, t.startTrim n h = s.startTrim n h) ∧ ∀ u, (t.head h).settings = some u → t.runOpen u.line = true →
        (t.copy h).slot = (t.line u.line).bound) (h : StoreLaws s) : StoreLaws t where
  recipes n r hr := h.recipes n r (by rwa [hslots] at hr)
  boundFull := hbound
  heads x u hu hrun hv := (hcopies x hv).2.2 u hu hrun
  trims := htrims
  clean x hx := by
    obtain ⟨hcopy, hstart, -⟩ := hcopies x (by simp [hx])
    rw [hcopy] at hx ⊢
    simpa only [hstart] using h.clean x hx
  learned x hv := by
    obtain ⟨hcopy, -, -⟩ := hcopies x hv
    rw [hcopy] at hv ⊢
    simpa only [hslots] using h.learned x hv

theorem storeLaws_foldl_invalidate (hs : List HeadId) (h : StoreLaws s) : StoreLaws (hs.foldl State.invalidate s) := by
  obtain ⟨hslots, hheads, hlines⟩ := foldl_invalidate_same hs s
  have hline : ∀ x, (hs.foldl State.invalidate s).line x = s.line x := fun x => by simp only [State.line, hlines]
  have hhead : ∀ x, (hs.foldl State.invalidate s).head x = s.head x := fun x => by simp only [State.head, hheads]
  have hrecipe : ∀ n, (hs.foldl State.invalidate s).recipe n = s.recipe n := fun n => by simp only [State.recipe, hslots]
  refine storeLaws_of_copies hrecipe (fun l n hn => ?_) (fun x => ?_) (fun x hv => ?_) h
  · rw [hline] at hn; rw [hrecipe]; exact h.boundFull l n hn
  · unfold TrimLaw; rw [hhead]; exact h.trims x
  · have hcopy : (hs.foldl State.invalidate s).copy x = s.copy x := by
      rw [foldl_invalidate_copy] at hv ⊢
      split
      · rename_i hx; rw [if_pos hx] at hv; exact absurd rfl hv
      · rfl
    rw [hcopy] at hv ⊢
    refine ⟨rfl, fun n => startTrim_congr hslots hheads n x, fun u hu hrun => ?_⟩
    rw [hhead] at hu
    simp only [State.runOpen, hline] at hrun
    rw [hline]
    exact h.heads x u hu hrun hv

theorem storeLaws_flushSlot (n : Slot) (h : StoreLaws s) : StoreLaws (s.flushSlot n) := by
  obtain ⟨hstore, hheads⟩ := (storeLaws_iff s).mp h
  have hholder : ∀ x ∈ s.dirtyHolders n, (s.copy x).state ≠ .invalid ∧ (s.copy x).slot = some n := fun x hx =>
    mem_holdersOf.mp (List.mem_filter.mp hx).1
  have hback : StoreBut [n] ((s.dirtyHolders n).foldl State.writeBack s) :=
    StoreBut.foldl_writeBack (fun x hx => (hholder x hx).1) (fun x hx m hm => by
      rw [(hholder x hx).2] at hm; cases hm; exact List.mem_singleton_self _) (hstore.mono (by simp))
  have hlike : CopiesLike s (s.flushSlot n) :=
    (foldl_keeps (Q := CopiesLike s) (fun t x _ ht => ht.trans (.writeBack t x)) (.refl s)).trans (.remarkSlot _ n)
  refine (storeLaws_iff _).mpr ⟨hback.remarkSlot n, fun x u hu hrun hv => ?_⟩
  rw [hlike.slot]
  have hlines := hlike.lines
  simp only [State.runOpen, State.line, hlines] at hrun ⊢
  exact hheads x u (by simpa only [State.head, hlike.heads] using hu) hrun fun e => hv ((hlike.invalid x).mpr e)

/-! ## Recipes stored -/

/-- RECIPE STORE accepts trims and limits in range alone (R58, R59). -/
theorem recipeStored_inRange {f : RecipeArgs} (hfield : recipeFieldFailure f = none) (hcross : recipeCrossFailure f = none) :
    (recipeStored f).trimLimit ≤ 2000 ∧
      ∀ p q, (recipeStored f).positions.get p = some q → q.startTrim.natAbs ≤ (recipeStored f).trimLimit := by
  constructor
  · have hlimit := firstFailure_eq_none.mp hfield (42, inRange 0 2000 f.trimLimit) (by simp)
    simp only [inRange, decide_eq_true_eq] at hlimit
    exact hlimit.2
  · intro p q hq
    have hget : (f.positions.map positionStored).get p = some q := hq
    have hstored : positionStored (f.positions.get p) = some q := by simpa [Vector.get] using hget
    have hfits := firstFailure_eq_none.mp hcross (5 + 3 * p.val, startTrimFits f.trimLimit (f.positions.get p)) (by
      simp only [List.mem_append, List.mem_map]
      exact .inl ⟨(f.positions.get p, p.val), List.mk_mem_zipIdx_iff_getElem?.mpr (by simp [Vector.get]), rfl⟩)
    unfold positionStored at hstored
    obtain ⟨m, hm, rfl⟩ := Option.map_eq_some_iff.mp hstored
    rw [startTrimFits, hm] at hfits
    cases htrim : (f.positions.get p).startTrim with
    | none => simp
    | some x =>
      show x.natAbs ≤ f.trimLimit
      simpa [htrim] using hfits

end Sys2Proof.Proofs

namespace Sys2Proof.Proofs

open Sys2Proof.Machine Sys2Proof.Safety

variable {s : State}

theorem invalidateSlot_eq (s : State) (n : Slot) : s.invalidateSlot n = (s.holdersOf n).foldl State.invalidate s := rfl

theorem invalidateSlot_copy (s : State) (n : Slot) (x : HeadId) : (s.invalidateSlot n).copy x =
    if (s.copy x).state ≠ .invalid ∧ (s.copy x).slot = some n then .invalidated else s.copy x := by
  rw [invalidateSlot_eq, foldl_invalidate_copy]
  simp only [mem_holdersOf]

theorem invalidateSlot_same (s : State) (n : Slot) : (s.invalidateSlot n).slots = s.slots ∧
    (s.invalidateSlot n).heads = s.heads ∧ (s.invalidateSlot n).lines = s.lines := foldl_invalidate_same _ s

theorem storeLaws_stored {n : Slot} {r : Recipe} (hr : r.trimLimit ≤ 2000 ∧
    ∀ p q, r.positions.get p = some q → q.startTrim.natAbs ≤ r.trimLimit) (h : StoreLaws s) :
    StoreLaws ((s.setRecipe n (some r)).invalidateSlot n) := by
  obtain ⟨hslots, hheads, hlines⟩ := invalidateSlot_same (s.setRecipe n (some r)) n
  have hcopy : ∀ x, ((s.setRecipe n (some r)).invalidateSlot n).copy x =
      if (s.copy x).state ≠ .invalid ∧ (s.copy x).slot = some n then .invalidated else s.copy x :=
    invalidateSlot_copy (s.setRecipe n (some r)) n
  generalize (s.setRecipe n (some r)).invalidateSlot n = t at hslots hheads hlines hcopy
  have hrecipe : ∀ m, t.recipe m = if m = n then some r else s.recipe m := fun m => by
    rw [← setRecipe_recipe]; simp only [State.recipe, hslots]
  have hline : ∀ x, t.line x = s.line x := fun x => by simp only [State.line, hlines]; rfl
  have hhead : ∀ x, t.head x = s.head x := fun x => by simp only [State.head, hheads]; rfl
  -- a copy that is still valid is of another slot, and is as it was
  have hkept : ∀ x, (t.copy x).state ≠ .invalid → t.copy x = s.copy x ∧ (s.copy x).slot ≠ some n := by
    intro x hv
    rw [hcopy] at hv ⊢
    by_cases hheld : (s.copy x).state ≠ .invalid ∧ (s.copy x).slot = some n
    · rw [if_pos hheld] at hv; exact absurd rfl hv
    · rw [if_neg hheld] at hv ⊢; exact ⟨rfl, fun e => hheld ⟨hv, e⟩⟩
  refine ⟨fun m q hq => ?_, fun l m hm => ?_, fun x u hu hrun hv => ?_, fun x => ?_, fun x hx => ?_, fun x hv => ?_⟩
  · rw [hrecipe] at hq
    split at hq
    · cases hq; exact hr
    · exact h.recipes m q hq
  · rw [hline] at hm
    rw [hrecipe]
    split
    · exact ⟨r, rfl⟩
    · exact h.boundFull l m hm
  · obtain ⟨hsame, -⟩ := hkept x hv
    rw [hsame] at hv ⊢
    rw [hhead] at hu
    simp only [State.runOpen, hline] at hrun
    rw [hline]
    exact h.heads x u hu hrun hv
  · unfold TrimLaw; rw [hhead]; exact h.trims x
  · obtain ⟨hsame, hne⟩ := hkept x (by simp [hx])
    rw [hsame] at hx ⊢
    obtain ⟨m, hm, hstart⟩ := h.clean x hx
    have hmn : m ≠ n := fun e => hne (e ▸ hm)
    exact ⟨m, hm, by simpa only [State.startTrim, hrecipe, if_neg hmn, hhead] using hstart⟩
  · obtain ⟨hsame, hne⟩ := hkept x hv
    rw [hsame] at hv ⊢
    obtain ⟨m, q, hm, hq, hle⟩ := h.learned x hv
    have hmn : m ≠ n := fun e => hne (e ▸ hm)
    exact ⟨m, q, hm, by rw [hrecipe, if_neg hmn, hq], hle⟩

/-- What LINE RESET does to the heads of a line: the copies are invalidated, and the trims are 0 or as they were. -/
theorem resetHeads_keeps (l : LineId) (s : State) : (s.resetHeads l).slots = s.slots ∧ (s.resetHeads l).lines = s.lines ∧
    ∀ x, ((s.resetHeads l).head x).settings = (s.head x).settings ∧
      (((s.resetHeads l).head x).trim = (s.head x).trim ∨ ((s.resetHeads l).head x).trim = 0) ∧
      ((s.resetHeads l).copy x = s.copy x ∨ (s.resetHeads l).copy x = .invalidated) := by
  unfold State.resetHeads
  refine foldl_keeps (Q := fun t => t.slots = s.slots ∧ t.lines = s.lines ∧ ∀ x, (t.head x).settings = (s.head x).settings ∧
    ((t.head x).trim = (s.head x).trim ∨ (t.head x).trim = 0) ∧ (t.copy x = s.copy x ∨ t.copy x = .invalidated))
    (fun t y _ ht => ?_) ⟨rfl, rfl, fun _ => ⟨rfl, .inl rfl, .inl rfl⟩⟩
  obtain ⟨hslots, hlines, hrest⟩ := ht
  refine ⟨hslots, hlines, fun x => ?_⟩
  by_cases hx : x = y
  · subst hx
    obtain ⟨hset, htrim, -⟩ := hrest x
    refine ⟨by simpa [HeadRec.atLineReset, HeadRec.cleared] using hset, ?_, by simp [State.invalidate]⟩
    cases t.guard.latch <;> simp [HeadRec.atLineReset, HeadRec.cleared, htrim]
  · simpa [hx, State.invalidate] using hrest x

theorem storeLaws_resetHeads (l : LineId) (h : StoreLaws s) : StoreLaws (s.resetHeads l) := by
  obtain ⟨hslots, hlines, hrest⟩ := resetHeads_keeps l s
  have hrecipe : ∀ n, (s.resetHeads l).recipe n = s.recipe n := fun n => by simp only [State.recipe, hslots]
  have hline : ∀ x, (s.resetHeads l).line x = s.line x := fun x => by simp only [State.line, hlines]
  refine storeLaws_of_copies hrecipe (fun x n hn => ?_) (fun x => ?_) (fun x hv => ?_) h
  · rw [hline] at hn; rw [hrecipe]; exact h.boundFull x n hn
  · obtain ⟨-, htrim, -⟩ := hrest x
    unfold TrimLaw
    obtain htrim | htrim := htrim
    · rw [htrim]; exact h.trims x
    · rw [htrim]; decide
  · obtain ⟨hset, -, hcopy⟩ := hrest x
    obtain hcopy | hcopy := hcopy
    · rw [hcopy] at hv ⊢
      refine ⟨rfl, fun n => by simp only [State.startTrim, hrecipe, hset], fun u hu hrun => ?_⟩
      simp only [State.runOpen, hline] at hrun
      rw [hline]
      exact h.heads x u (by rwa [← hset]) hrun hv
    · rw [hcopy] at hv; exact absurd rfl hv

theorem storeLaws_discardRun (l : LineId) (h : StoreLaws s) : StoreLaws (discardRun s l) := by
  have hfollower : StoreLaws (s.releaseFollower l) := by
    unfold State.releaseFollower
    split
    · split
      · exact StoreSame.laws (.trans (.removeCutHeld s _) (.of_same rfl rfl rfl rfl)) h
      · exact h
    · exact h
  have hknot : StoreLaws ((s.releaseFollower l).knotReset l) := by
    unfold State.knotReset
    split
    · exact StoreSame.laws (.trans (.abandonScan _ l) (.of_same rfl rfl rfl rfl)) hfollower
    · exact hfollower
  have hheads := storeLaws_resetHeads l hknot
  unfold discardRun
  dsimp only
  generalize ((s.releaseFollower l).knotReset l).resetHeads l = t at hheads ⊢
  refine StoreSame.laws (.trans ?_ (.modLine l _ ⟨rfl, rfl, fun _ => rfl⟩)) hheads
  exact .of_same rfl rfl rfl rfl

/-- A head whose line had no run open, and whose new line has none, with its copy kept only where its strand position is. -/
theorem storeLaws_headMoved {x : HeadId} {f : HeadRec → HeadRec} (htrim : ∀ r, (f r).trim = r.trim)
    (hclosed : ∀ u, (f (s.head x)).settings = some u → s.runOpen u.line = false) {t : State} (ht : t.slots = s.slots ∧
      t.heads = (s.modHead x f).heads ∧ t.lines = s.lines)
    (hcopy : ∀ y, (t.copy y).state ≠ .invalid → t.copy y = s.copy y ∧ (y = x → (f (s.head x)).settings.map (·.position) =
      (s.head x).settings.map (·.position))) (h : StoreLaws s) : StoreLaws t := by
  obtain ⟨hslots, hheads, hlines⟩ := ht
  have hrecipe : ∀ n, t.recipe n = s.recipe n := fun n => by simp only [State.recipe, hslots]
  have hline : ∀ y, t.line y = s.line y := fun y => by simp only [State.line, hlines]
  have hhead : ∀ y, t.head y = if y = x then f (s.head x) else s.head y := fun y => by
    rw [← modHead_head]; simp only [State.head, hheads]
  refine storeLaws_of_copies hrecipe (fun l n hn => ?_) (fun y => ?_) (fun y hv => ?_) h
  · rw [hline] at hn; rw [hrecipe]; exact h.boundFull l n hn
  · unfold TrimLaw
    rw [hhead]
    split
    · rename_i hy; rw [htrim, ← hy]; exact h.trims y
    · exact h.trims y
  · obtain ⟨hsame, hplace⟩ := hcopy y hv
    refine ⟨hsame, fun n => ?_, fun u hu hrun => ?_⟩
    · by_cases hy : y = x
      · have hposition := hplace hy
        subst hy
        simp only [State.startTrim, hrecipe, hhead, if_true]
        cases hold : (s.head y).settings <;> cases hnew : (f (s.head y)).settings <;>
          cases s.recipe n <;> simp_all [Recipe.specFor]
      · simp only [State.startTrim, hrecipe, hhead, if_neg hy]
    · rw [hhead] at hu
      simp only [State.runOpen, hline] at hrun
      split at hu
      · have := hclosed u hu
        simp only [State.runOpen] at this
        rw [this] at hrun
        cases hrun
      · rw [hsame] at hv ⊢
        rw [hline]
        exact h.heads y u hu hrun hv

theorem invalidate_copy_of_valid {x y : HeadId} (hv : ((s.invalidate x).copy y).state ≠ .invalid) :
    y ≠ x ∧ (s.invalidate x).copy y = s.copy y := by
  have hne : y ≠ x := by
    rintro rfl
    simp [State.invalidate, WorkingCopy.invalidated] at hv
  exact ⟨hne, by simp [State.invalidate, hne]⟩

theorem storeLaws_headSet (f : HeadSetArgs) (h : StoreLaws s) : Gives StoreLaws (s.headSet f) := by
  refine .withHead fun x => .withLine fun l => .withChannel fun c => ?_
  split; · exact .badField _
  split
  · split; · exact .badField _
    split; · exact .refuse _
    rename_i hbusy
    have hclosed : s.runOpen l = false := by simpa using (not_or.mp hbusy).2
    refine .accept ?_
    split
    · rename_i hkeeps
      refine storeLaws_headMoved (s := s) (x := x) (f := fun r => { r with settings := some _ }) (fun _ => rfl) (fun u hu => ?_) ⟨rfl, rfl, rfl⟩
        (fun y hv => ⟨rfl, fun _ => ?_⟩) h
      · cases hu; exact hclosed
      · unfold HeadRec.keepsPlace at hkeeps
        split at hkeeps
        · rename_i u hu
          simp only [Bool.and_eq_true, beq_iff_eq] at hkeeps
          simp [hu, hkeeps.2]
        · cases hkeeps
    · refine storeLaws_headMoved (s := s) (x := x) (f := fun r => { r.cleared with settings := some _ }) (fun _ => rfl) (fun u hu => ?_)
        ⟨rfl, rfl, rfl⟩ (fun y hv => ?_) h
      · cases hu; exact hclosed
      · obtain ⟨hne, hsame⟩ := invalidate_copy_of_valid hv
        exact ⟨hsame, fun e => absurd e hne⟩
  · exact .badField _

theorem storeLaws_headFree (x : Nat) (h : StoreLaws s) : Gives StoreLaws (s.headFree x) := by
  refine .withHead fun y => ?_
  split; · exact .refuse _
  split
  · exact .accept h
  · refine .accept (storeLaws_headMoved (s := s) (x := y) (f := fun r => { r.cleared with settings := none, window := none })
      (fun _ => rfl) (fun u hu => nomatch hu) ⟨rfl, rfl, rfl⟩ (fun z hv => ?_) h)
    obtain ⟨hne, hsame⟩ := invalidate_copy_of_valid hv
    exact ⟨hsame, fun e => absurd e hne⟩

theorem storeLaws_lineBind (x y : Nat) (h : StoreLaws s) : Gives StoreLaws (s.lineBind x y) := by
  refine .withLine fun l => .withSlot fun n => ?_
  dsimp only
  split; · exact .refuse _
  rename_i r hr
  have hbind : ∀ b p, (∀ m, b = some m ∨ p = some m → ∃ q, s.recipe m = some q) →
      (s.runOpen l = true → b = (s.line l).bound) →
      StoreLaws (s.modLine l fun x => { x with bound := b, pendingRecipe := p }) := by
    intro b p hfull hbound
    have hline : ∀ z, (s.modLine l fun x => { x with bound := b, pendingRecipe := p }).line z =
        if z = l then { s.line l with bound := b, pendingRecipe := p } else s.line z := fun z => modLine_line _ _ _ _
    refine storeLaws_of_copies (s := s) (fun _ => rfl) (fun z m hm => ?_) h.trims (fun z hv => ⟨rfl, fun _ => rfl, fun u hu hrun => ?_⟩) h
    · rw [hline] at hm
      split at hm
      · exact hfull m hm
      · exact h.boundFull z m hm
    · rw [hline]
      unfold State.runOpen at hrun
      rw [hline] at hrun
      split
      · rename_i hul
        rw [if_pos hul] at hrun
        have hopen : s.runOpen u.line = true := by rw [hul]; exact hrun
        have hslot := h.heads z u hu hopen hv
        rw [hul] at hslot
        exact hslot.trans (hbound hrun).symm
      · rename_i hul
        rw [if_neg hul] at hrun
        exact h.heads z u hu hrun hv
  split; · exact .badField _
  split
  · rename_i hclosed
    exact .accept (hbind _ _ (fun m hm => by obtain hm | hm := hm <;> cases hm; exact ⟨r, hr⟩) fun hrun => by
      rw [hclosed] at hrun; cases hrun)
  split
  · exact .accept (hbind (s.line l).bound none (fun m hm => h.boundFull l m (.inl (by simpa using hm))) fun _ => rfl)
  split; · exact .error _
  exact .accept (hbind (s.line l).bound (some n) (fun m hm => by
    obtain hm | hm := hm
    · exact h.boundFull l m (.inl hm)
    · cases hm; exact ⟨r, hr⟩) fun _ => rfl)

theorem storeLaws_recipeStore (x : Nat) (f : RecipeArgs) (h : StoreLaws s) : Gives StoreLaws (s.recipeStore x f) := by
  refine .withSlot fun n => ?_
  split; · exact .badField _
  · exact .badField _
  rename_i hfield hcross
  split; · exact .refuse _
  exact .accept (storeLaws_stored (recipeStored_inRange hfield hcross) h)

/-! ## Every step -/

theorem storeLaws_modPack (f : PackRec → PackRec) (h : StoreLaws s) : StoreLaws (s.modPack f) :=
  StoreSame.laws (s := s) (.of_same rfl rfl rfl rfl) h

theorem storeLaws_guardEvent (h : StoreLaws s) : StoreLaws s.guardEvent := by
  unfold State.guardEvent
  refine storeLaws_cutParts.notify _ _ _ (storeLaws_modPack _ (foldl_keeps (fun t x _ ht => ?_) (foldl_keeps (fun t x _ ht => ?_)
    (foldl_keeps (fun t x _ ht => (StoreSame.offerCause t x .guard).laws ht) ?_))))
  · exact StoreSame.laws (s := t) (.of_same rfl rfl rfl rfl) ht
  · exact StoreSame.laws (s := t) (.of_same rfl rfl rfl rfl) ht
  · exact StoreSame.laws (s := s) (.of_same rfl rfl rfl rfl) h

theorem storeLaws_guardReleased (h : StoreLaws s) : StoreLaws (guardReleased s) := by
  have hdropped : StoreLaws (LineId.all.foldl (fun (s : State) l => s.modLine l fun r => { r with causes := r.causes.drop .guard })
      { s with guard := { s.guard with latch := false } }) := by
    refine foldl_keeps (fun t x _ ht => ?_) (StoreSame.laws (s := s) (.of_same rfl rfl rfl rfl) h)
    exact (StoreSame.modLine x _ ⟨rfl, rfl, id⟩).laws ht
  unfold guardReleased
  rw [packGuardClear_eq]
  split
  · exact (StoreSame.notify _ _ _).laws (storeLaws_modPack _ hdropped)
  · exact hdropped

theorem storeLaws_counts : KeepsCounts StoreLaws where
  free s _ _ _ _ _ _ _ h := StoreSame.laws (s := s) (.of_same rfl rfl rfl rfl) h
  notify := storeLaws_cutParts.notify
  offerCause s l x h := (StoreSame.offerCause s l x).laws h
  removeCutHeld := storeLaws_cutParts.removeCutHeld
  submit _ _ _ _ _ h := StoreSame.laws (.of_same (by simp) (by simp) (by simp) (by simp)) h
  head _ x f hf h := (StoreSame.modHead x f hf).laws h
  pos s _ _ _ h := StoreSame.laws (s := s) (.of_same rfl rfl rfl rfl) h
  mark s _ _ _ _ h := StoreSame.laws (s := s) (.of_same rfl rfl rfl rfl) h
  coil s _ _ _ h := StoreSame.laws (s := s) (.of_same rfl rfl rfl rfl) h
  cut _ l why _ _ h := storeLaws_performCut l why h
  correct _ _ _ _ d b _ ht h := storeLaws_correctTrim d b ht h

theorem storeLaws_keeps : Keeps StoreLaws where
  toKeepsCounts := storeLaws_counts
  toKeepsStation := .of_free (fun s _ h => StoreSame.laws (s := s) (.of_same rfl rfl rfl rfl) h)
    (fun s _ _ _ h => StoreSame.laws (s := s) (.of_same rfl rfl rfl rfl) h) storeLaws_counts
    (fun s _ h => StoreSame.laws (s := s) (.of_same rfl rfl rfl rfl) h)
    fun s _ _ _ _ h => StoreSame.laws (s := s) (.of_same rfl rfl rfl rfl) h
  link s _ _ h := StoreSame.laws (s := s) (.of_same rfl rfl rfl rfl) h
  submitSplice _ _ _ h := StoreSame.laws (.of_same (by simp) (by simp) (by simp) (by simp)) h
  moved s _ _ _ _ h := StoreSame.laws (s := s) (.of_same rfl rfl rfl rfl) h
  line s l f hf h := by
    obtain ⟨hstate, -, -, hbound, hpending⟩ := hf (s.line l)
    exact (StoreSame.modLine l f ⟨hbound, hpending, fun e => hstate.trans e⟩).laws h
  runEnd _ l _ h := storeLaws_performCut l _ h
  openRun _ _ _ _ hready h := storeLaws_openRun hready h
  discard _ l h := storeLaws_discardRun l h
  resume s l hstate h := by
    unfold State.resumeLine
    exact (StoreSame.modLine l _ ⟨rfl, rfl, fun e => by rw [hstate] at e; cases e⟩).laws h
  guardInput s _ _ h := StoreSame.laws (s := s) (.of_same rfl rfl rfl rfl) h
  guardEvent _ _ h := storeLaws_guardEvent h
  lineSet s f h := by
    refine .withLine fun l => ?_
    split; · exact .refuse _
    split; · exact .refuse _
    split; · exact .badField _
    split; · exact .refuse _
    have hline := (StoreSame.modLine l (fun r => { r with
      kind := Machine.LineSetArgs.kindStored f, cfg := Machine.LineSetArgs.config f }) ⟨rfl, rfl, id⟩).laws h
    have hknot : ∀ u g, StoreLaws u → StoreLaws (State.modKnot u l g) := fun u g hu =>
      StoreSame.laws (s := u) (.of_same rfl rfl rfl rfl) hu
    refine .accept ?_
    unfold State.configure
    split
    · exact hline
    · exact hknot _ _ hline
  lineBind _ x y h := storeLaws_lineBind x y h
  headSet _ f h := storeLaws_headSet f h
  headFree _ x h := storeLaws_headFree x h
  recipeStore _ x f h := storeLaws_recipeStore x f h
  flushSlot _ n h := storeLaws_flushSlot n h
  invalidateSlot _ n h := storeLaws_foldl_invalidate _ h

theorem storeLaws_powerUp {t : State} (hslots : t.slots = Vector.replicate 24 none)
    (hcopies : t.copies = Vector.replicate 16 ⟨none, .invalid, 0⟩) (hheads : t.heads = Vector.replicate 16 .powerOn)
    (hlines : t.lines = .all .powerOn) : StoreLaws t := by
  have hrecipe : ∀ n, t.recipe n = none := fun n => by simp [State.recipe, hslots, Vector.get]
  have hcopy : ∀ x, t.copy x = ⟨none, .invalid, 0⟩ := fun x => by simp [State.copy, hcopies, Vector.get]
  have hline : ∀ l, t.line l = .powerOn := fun l => by cases l <;> simp only [State.line, hlines] <;> rfl
  refine ⟨fun n r hr => ?_, fun l n hn => ?_, fun x u _ _ hv => ?_, fun x => ?_, fun x hx => ?_, fun x hv => ?_⟩
  · rw [hrecipe] at hr; cases hr
  · rw [hline] at hn; obtain hn | hn := hn <;> cases hn
  · rw [hcopy] at hv; exact absurd rfl hv
  · simp [TrimLaw, State.head, hheads, Vector.get, HeadRec.powerOn]
  · rw [hcopy] at hx; cases hx
  · rw [hcopy] at hv; exact absurd rfl hv

theorem step_keeps_storeLaws {t : State} (h : StoreLaws s) (ht : step s = .next t) : StoreLaws t :=
  BlocksKeep.step (storeLaws_keeps.blocks fun _ _ => storeLaws_guardReleased)
    (.of_law (fun s _ h => StoreSame.laws (s := s) (.of_same rfl rfl rfl rfl) h)
      (fun _ _ _ _ _ _ => storeLaws_powerUp rfl rfl rfl rfl)
      fun s _ h => StoreSame.laws (s := s) (.of_same rfl rfl rfl rfl) h) h ht

/-- Settles O59: what moves the outputs, the head and the trims acts with the latch clear, and each action on slots, copies
and trims keeps the laws of the store. -/
theorem everyStepKeepsGuardLaws : Obligations.EveryStepKeepsGuardLaws := by
  unfold Obligations.EveryStepKeepsGuardLaws
  refine ⟨fun s t h ht => step_keeps_storeLaws h ht, fun s t hguard hhead ht => ?_⟩
  obtain ⟨hguard', hhead'⟩ := (quietUnderLatch_iff t).mp
    (step_keeps_quietUnderLatch ((quietUnderLatch_iff s).mpr ⟨hguard, hhead⟩) ht)
  exact ⟨hguard', hhead', fun hs hl h => step_keeps_trims hs ht hl h⟩

end Sys2Proof.Proofs

/-! Steps and resets of the whole part: O1 to O5 and O17 (R169, R174 to R176). -/

namespace Sys2Proof.Proofs

open Sys2Proof.Machine Sys2Proof.Safety

/-! ## Steps -/

/-- Settles O1: it is the definition of a step. -/
theorem stepRunsFrontCommand : Obligations.StepRunsFrontCommand := by
  intro c rest s h
  simp only [step, h]

/-- Settles O2: a tick advances the time base by 1, and is never before it. -/
theorem idleStepPassesOneMicrosecond : Obligations.IdleStepPassesOneMicrosecond := by
  intro s h
  have hlater : ¬ s.now + 1 ≤ s.now := by omega
  simp only [step, h, State.tick, State.advanceTo, if_neg hlater]

/-! ## Power-on values -/

/-- Every block but for the time base is as after power-on with the inputs `pins`. -/
structure AtPowerOn (pins : Pins) (t : State) : Prop where
  line : ∀ l, t.line l = .powerOn
  pos : ∀ l, t.pos l = ⟨0, none, none, none⟩
  knot : ∀ l, t.knot l = .powerOn
  spanRec : ∀ l, t.spanRec l = ⟨[], [], 0, 0, [], 0, 0⟩
  coilRec : ∀ l, t.coilRec l = ⟨1, none, .none, false, none⟩
  lane : ∀ l, t.lane l = .powerOn (pins.coilReady.get l)
  head : ∀ h, t.head h = .powerOn
  copy : ∀ h, t.copy h = ⟨none, .invalid, 0⟩
  recipe : ∀ n, t.recipe n = none
  channel : ∀ ch : ChannelId, t.channel ch = .powerOn (pins.phaseA.getLsbD ch.val) (pins.phaseB.getLsbD ch.val)
  scanLink : ∀ k, t.scanLink k = .powerOn
  pack : t.pack = .powerOn pins.holdReq
  guard : t.guard = ⟨pins.guardActive, false, false⟩
  link : t.link = .powerOn
  completed : t.completed = []

theorem atPowerOn_powerUp (pins : Pins) (now epoch n : Nat) (duty : Vector Nat 16) (cs : List Instr) :
    AtPowerOn pins { State.powerUp pins with
      now := now, epoch := epoch, drivenDuty := duty, choices := n, pending := cs } where
  line l := by cases l <;> rfl
  pos l := by cases l <;> rfl
  knot l := by cases l <;> rfl
  spanRec l := by cases l <;> rfl
  coilRec l := by cases l <;> rfl
  lane l := by cases l <;> rfl
  head h := by simp [State.head, State.powerUp, Vector.get]
  copy h := by simp [State.copy, State.powerUp, Vector.get]
  recipe n := by simp [State.recipe, State.powerUp, Vector.get]
  channel ch := Vector.getElem_ofFn ch.isLt
  scanLink k := by cases k <;> rfl
  pack := rfl
  guard := rfl
  link := rfl
  completed := rfl

namespace AtPowerOn

variable {pins : Pins} {t : State} (h : AtPowerOn pins t)

include h

theorem packState : t.pack.state = if pins.holdReq then .held else .free := by rw [h.pack]; rfl

/-- The outputs of the lines and lanes at their levels of R174. -/
theorem lineOutputs (l : LineId) : t.lineStopOut l = false ∧ t.markerOut l = false ∧ t.cutterOut l = false ∧
    t.laneSelectOut l = false := by
  refine ⟨?_, ?_, ?_, ?_⟩
  · simp [State.lineStopOut, h.line, LineRec.powerOn]
  · simp [State.markerOut, h.pos]
  · simp [State.cutterOut, h.coilRec]
  · simp only [State.laneSelectOut, h.packState]
    split <;> simp

theorem linkOutputs (k : ScanLink) : t.gateOut k = false ∧ (t.scanLink k).scan = none ∧ t.clockOut k = false := by
  simp [State.gateOut, State.clockOut, h.scanLink, LinkRec.powerOn]

/-- The outputs of the packing station at their levels of R174. -/
theorem packOutputs : t.travelOut = false ∧ t.strapOut = false ∧ t.labelOut = false ∧ t.holdGrantOut = pins.holdReq := by
  simp only [State.travelOut, State.strapOut, State.labelOut, State.holdGrantOut, h.packState]
  cases pins.holdReq <;> simp

theorem txIdle : t.txIdle = true := by simp [State.txIdle, h.link, Link.powerOn]

theorem duty (x : HeadId) : (t.head x).duty = 5000 := by rw [h.head]; rfl

end AtPowerOn

/-- Settles O3: POWER_ON is the power-on state with the waiting commands. -/
theorem powerOnEstablishesPowerOnValues : Obligations.PowerOnEstablishesPowerOnValues := by
  intro pins s
  have h : AtPowerOn pins { State.powerUp pins with choices := s.choices, pending := s.pending } :=
    atPowerOn_powerUp pins 0 0 s.choices (Vector.replicate 16 5000) s.pending
  obtain ⟨htravel, hstrap, hlabel, hgrant⟩ := h.packOutputs
  refine ⟨_, rfl, fun l => ⟨h.line l, h.pos l, h.knot l, h.spanRec l, h.coilRec l, h.lane l⟩, h.lineOutputs, fun k => ?_,
    fun x => ⟨by simp [State.powerUp, Vector.get], h.duty x, h.head x, h.copy x⟩, h.recipe, h.channel, h.scanLink, h.pack, htravel,
    hstrap, hlabel, hgrant, h.txIdle, h.guard, h.link, h.completed,
    by simp [State.stamp, State.powerUp], rfl⟩
  obtain ⟨hgate, -, hclock⟩ := h.linkOutputs k
  exact ⟨hgate, hclock⟩

/-! ## RESET ALL -/

theorem exec_resetTakesEffect {s : State} (h : s.sendingReset = true) : exec .resetTakesEffect s = .next s.resetPart := by
  simp only [exec, execResetTakesEffect, h, if_true]

theorem exec_frameSent_reset {s : State} (h : s.sendingReset = true) : exec .frameSent s = .next s.resetPart := by
  simp only [exec, execFrameSent]
  split
  · rename_i hnone; simp [State.sendingReset, hnone] at h
  · simp only [h, if_true]

theorem resetPart_atPowerOn (s : State) : AtPowerOn s.pins s.resetPart :=
  atPowerOn_powerUp s.pins s.now s.now s.choices s.drivenDuty s.pending

/-- After RESET ALL the trim outputs take duty 5,000 from their next period (R176). -/
theorem resetPart_nextPeriod (s : State) {at' : Nat} (h : s.now / 1000 < at' / 1000) (x : HeadId) :
    (s.resetPart.advanceTo at').drivenDuty.get x = 5000 := by
  have hlater : ¬ at' ≤ s.resetPart.now := by
    show ¬ at' ≤ s.now
    intro hle
    have := Nat.div_le_div_right (c := 1000) hle
    omega
  have hduty := (resetPart_atPowerOn s).duty x
  unfold State.advanceTo
  rw [if_neg hlater]
  show (if s.now / 1000 < at' / 1000 then s.resetPart.heads.map HeadRec.duty else s.drivenDuty).get x = 5000
  rw [if_pos h]
  simpa [Vector.get, State.head] using hduty

/-- Settles O4: the part is at power-on values with the inputs as they stand. -/
theorem resetAllReleasesOutputs : Obligations.ResetAllReleasesOutputs := by
  intro s hsending
  have h := resetPart_atPowerOn s
  obtain ⟨htravel, hstrap, hlabel, hgrant⟩ := h.packOutputs
  exact ⟨s.resetPart, exec_resetTakesEffect hsending, h.lineOutputs, h.linkOutputs, htravel, hstrap, hlabel, hgrant, h.txIdle,
    rfl, fun _ x hlater => resetPart_nextPeriod s hlater x⟩

/-! ## The inputs as they stand -/

theorem testBit_bitField (bs : List Bool) (i : Nat) : (bitField bs).testBit i = bs[i]?.getD false := by
  induction bs generalizing i with
  | nil => simp [bitField]
  | cons b bs ih =>
    cases i with
    | zero => cases b <;> simp [bitField, Nat.testBit_zero, Nat.add_mul_mod_self_left]
    | succ i =>
      have hrest : (b.toNat + 2 * bitField bs) / 2 = bitField bs := by cases b <;> (simp <;> omega)
      rw [bitField, Nat.testBit_succ, hrest, ih, List.getElem?_cons_succ]

/-- A bit field of 32 levels read back. -/
theorem getLsbD_bitField (v : Vector Channel 32) (f : Channel → Bool) (ch : ChannelId) :
    (BitVec.ofNat 32 (bitField (v.toList.map f))).getLsbD ch.val = f (v.get ch) := by
  rw [BitVec.getLsbD_ofNat, testBit_bitField]
  simp [Vector.get]

theorem pins_coilReady (s : State) (l : LineId) : s.pins.coilReady.get l = (s.lane l).coilReady := by cases l <;> rfl

/-- Settles O5: the inputs of the reset are those that stand. -/
theorem resetAllKeepsInputsAndTime : Obligations.ResetAllKeepsInputsAndTime := by
  intro s hsending
  have h := resetPart_atPowerOn s
  refine ⟨s.resetPart, exec_resetTakesEffect hsending, exec_frameSent_reset hsending, ?_, rfl, rfl, h.guard, rfl, h.link,
    h.completed, rfl, h.pack, h.scanLink, fun l => ⟨h.line l, ?_, h.pos l, h.knot l, h.spanRec l, h.coilRec l⟩,
    fun x => ⟨h.head x, h.copy x⟩, fun ch => ?_, h.recipe⟩
  · show (s.now - s.now) / 1000 % 4294967296 = 0
    rw [Nat.sub_self]
  · rw [h.lane, pins_coilReady]
  · rw [h.channel]
    simp only [State.pins, getLsbD_bitField, State.channel]

/-- Settles O17: the laws hold in the power-on state with every input inactive. -/
theorem resetHoldsStatedValuesAndLaws : Obligations.ResetHoldsStatedValuesAndLaws := by
  have h : AtPowerOn quietPins State.reset := atPowerOn_powerUp quietPins 0 0 0 (Vector.replicate 16 5000) []
  have hstore : StoreLaws State.reset := storeLaws_powerUp rfl rfl rfl rfl
  have hstation : StationLaws State.reset :=
    ⟨⟨Nat.zero_le _, Nat.zero_le _⟩, fun _ => rfl, fun hne => hne.elim (absurd rfl) (absurd rfl), fun hne => absurd rfl hne⟩
  refine ⟨fun _ => rfl, fun l => ?_, fun l => ?_, rfl, rfl, rfl, rfl, rfl, rfl, rfl, rfl, rfl, rfl, nofun,
    nofun, hstation, hstore, hstation.completed, hstation.attached, ⟨Nat.zero_le _, trivial⟩,
    ⟨Nat.zero_le _, Nat.zero_le _⟩, fun l => ?_, fun l => ?_, fun x => ⟨hstore.trims x, hstore.clean x, hstore.learned x⟩⟩
  · rw [h.line]
    exact ⟨rfl, rfl, rfl, rfl, rfl, rfl, rfl, rfl, rfl, rfl, rfl, rfl, rfl, rfl, rfl⟩
  · rw [h.lane]
    exact ⟨rfl, rfl, rfl, rfl⟩
  · rw [h.line]
    nofun
  · refine ⟨?_, ?_, ?_, ?_, ?_, ?_⟩
    · unfold CausesLaw; rw [h.line]; exact ⟨fun _ => rfl, fun _ => rfl⟩
    · unfold CoilLaw State.runOpen; rw [h.line, h.coilRec]; rfl
    · unfold PositionLaw; rw [h.coilRec]; nofun
    · unfold SpanLaw; rw [h.spanRec]; exact ⟨Nat.zero_le _, Nat.zero_le _⟩
    · unfold SpanOrderLaw; rw [h.spanRec]; exact ⟨trivial, nofun⟩
    · unfold LaneLaw; rw [h.lane]; exact Nat.zero_le _

end Sys2Proof.Proofs

/-! The Message Link (chapter 10): frames received and sent, requests taken or not, notices offered, and the statements O6, O7,
O8, O12 to O15. -/

namespace Sys2Proof.Proofs

open Sys2Proof.Machine Sys2Proof.Safety

/-! ## Notices offered (R171) -/

/-- The lowest level of an ordered queue stands at its end. -/
theorem level_getLast_le {q : List Notice} (horder : noticesInOrder q) {m : Notice} (hlast : q.getLast? = some m) :
    ∀ x ∈ q, m.level ≤ x.level := by
  induction q with
  | nil => simp
  | cons a rest ih =>
    obtain ⟨hhead, hrest⟩ := noticesInOrder_cons.mp horder
    cases rest with
    | nil => simp_all
    | cons b rest =>
      have hbelow := ih hrest (by simpa using hlast)
      intro x hx
      rcases List.mem_cons.mp hx with rfl | hx
      · exact Nat.le_trans (hbelow b List.mem_cons_self) (hhead b rfl)
      · exact hbelow x hx

/-- A queue with room takes the notice. -/
theorem offerToQueue_of_lt {n : Notice} {q : List Notice} (h : q.length < 32) :
    offerToQueue n q = (insertNotice n q, 0) := by
  simp only [offerToQueue, if_pos h]

/-- A full queue whose lowest level is below the notice's gives up its last. -/
theorem offerToQueue_of_rank {n m : Notice} {q : List Notice} (hfull : ¬q.length < 32) (hlast : q.getLast? = some m)
    (hrank : m.level < n.level) : offerToQueue n q = (insertNotice n q.dropLast, 1) := by
  simp only [offerToQueue, if_neg hfull, hlast, if_pos hrank]

/-- A full queue whose lowest level is at the notice's or above stays. -/
theorem offerToQueue_of_no_rank {n m : Notice} {q : List Notice} (hfull : ¬q.length < 32) (hlast : q.getLast? = some m)
    (hrank : ¬m.level < n.level) : offerToQueue n q = (q, 1) := by
  simp only [offerToQueue, if_neg hfull, hlast, if_neg hrank]

/-- Settles O15: an ordered queue has its lowest level at the end, which is what a full queue compares with. -/
theorem noticeOfferKeepsRankAndBound : Obligations.NoticeOfferKeepsRankAndBound := by
  intro n q horder hlen
  obtain ⟨hkept, hbound⟩ := offerToQueue_keeps n q horder hlen
  refine ⟨hkept, hbound, fun hroom => ?_, ?_⟩
  · rw [offerToQueue_of_lt hroom]
    exact ⟨rfl, length_insertNotice n q, insertNotice_eq n q⟩
  by_cases hfull : q.length = 32
  · obtain ⟨m, hlast⟩ : ∃ m, q.getLast? = some m :=
      ⟨_, List.getLast?_eq_some_getLast (List.ne_nil_of_length_pos (by omega))⟩
    have hfull' : ¬q.length < 32 := by omega
    have hmem := List.mem_of_getLast? hlast
    by_cases hrank : m.level < n.level
    · have hoffer := offerToQueue_of_rank hfull' hlast hrank
      rw [hoffer]
      refine ⟨fun _ => ⟨rfl, ?_⟩, fun _ hall => absurd (hall m hmem) (by omega), fun _ _ => insertNotice_eq n _⟩
      rw [length_insertNotice, List.length_dropLast]; omega
    · have hoffer := offerToQueue_of_no_rank hfull' hlast hrank
      rw [hoffer]
      refine ⟨fun _ => ⟨rfl, hfull⟩, fun _ _ => rfl, fun _ hlow => ?_⟩
      obtain ⟨x, hx, hlow⟩ := hlow
      have := level_getLast_le horder hlast x hx
      omega
  · exact ⟨(absurd · hfull), (absurd · hfull), (absurd · hfull)⟩

/-! ## Requests taken or not (R163, R169) -/

/-- While a RESET ALL acceptance waits no request is taken. -/
theorem takesRequest_of_resetPending {k : Link} (h : k.resetPending = true) : k.takesRequest = false := by
  simp [Link.takesRequest, h]

/-- With 2 requests in the buffer no request is taken. -/
theorem takesRequest_of_full {k : Link} (h : 2 ≤ k.buffer.length) : k.takesRequest = false := by
  simp [Link.takesRequest, Nat.not_lt.mpr h]

/-- While a RESET ALL acceptance waits a request is discarded. -/
theorem serve_of_resetPending {s : State} (h : s.link.resetPending = true) (kind tag : Byte) (handle : State → Result) :
    s.serve kind tag handle = s := by
  simp only [State.serve, takesRequest_of_resetPending h, h, Bool.false_eq_true, if_false, if_true]

/-- With 2 requests in the buffer a request is dropped with OVERRUN. -/
theorem serve_of_full {s : State} (hreset : s.link.resetPending = false) (h : 2 ≤ s.link.buffer.length) (kind tag : Byte)
    (handle : State → Result) :
    s.serve kind tag handle = { s with link := { s.link with flags := { s.link.flags with overrun := true } } } := by
  simp only [State.serve, takesRequest_of_full h, hreset, Bool.false_eq_true, if_false]
  rfl

/-- Settles O12. -/
theorem requestNotTakenHasNoEffect : Obligations.RequestNotTakenHasNoEffect := by
  intro c r s hform
  rw [exec_eq_request hform]
  refine ⟨fun hreset => ?_, fun hreset hfull => ?_⟩
  · rw [request, serve_of_resetPending hreset, done]
  · rw [request, serve_of_full hreset hfull, done]

/-! ## NOTICE LEVEL, STATUS, PORT FLAGS, RESET ALL (R167 to R170) -/

/-- A class's number on the link reads back as the class. -/
theorem noticeClass_ofCode_index (c : NoticeClass) : NoticeClass.ofCode (c.index.val + 1) = some c := by
  cases c <;> rfl

/-- Classes are told apart by their index. -/
theorem noticeClass_index_ne {c d : NoticeClass} (h : d ≠ c) : c.index.val ≠ d.index.val := by
  revert h
  cases c <;> cases d <;> decide

/-- A clamped level is the level asked for within the class's range, else the nearer end of that range. -/
theorem clampLevel_eq (c : NoticeClass) (level : Nat) :
    c.clampLevel level = if level < c.lowest then c.lowest else if 3 < level then 3 else level := by
  have hlow : c.lowest ≤ 3 := by cases c <;> decide
  unfold NoticeClass.clampLevel
  split
  · omega
  · split <;> omega

/-- Settles O13. -/
theorem noticeLevelClampsLevel : Obligations.NoticeLevelClampsLevel := by
  intro s tag c level htakes
  have hlevel : ∀ d, ((s.entered 0x0A tag).modLink fun k =>
      { k with levels := k.levels.set c.index.val (c.clampLevel level) c.index.isLt }).levelOf d =
        if d = c then c.clampLevel level else s.levelOf d := by
    intro d
    show (s.link.levels.set c.index.val (c.clampLevel level) c.index.isLt)[d.index.val] = _
    rw [Vector.getElem_set]
    by_cases h : d = c
    · rw [if_pos (h ▸ rfl), if_pos h]
    · rw [if_neg (noticeClass_index_ne h), if_neg h]
      rfl
  refine ⟨(s.entered 0x0A tag).modLink fun k =>
      { k with levels := k.levels.set c.index.val (c.clampLevel level) c.index.isLt }, ?_, ?_, fun d hd => ?_, rfl⟩
  · refine request_accepted htakes ?_
    rw [hlevel c, if_pos rfl]
    simp only [State.noticeLevel, noticeClass_ofCode_index, accept]
  · rw [hlevel c, if_pos rfl, clampLevel_eq]
  · rw [hlevel d, if_neg hd]

/-- What the Message Link reports as a cut held is the statement's. -/
theorem cutIsHeld_eq_true_iff (s : State) (l : LineId) : s.cutIsHeld l = true ↔ CutIsHeld s l := by
  unfold State.cutIsHeld CutIsHeld State.holdsCut
  cases (s.coilRec l).stage <;> simp

/-- The ML reports STATUS and clears the lost tally. -/
theorem status_eq (s : State) : s.status = .ok ({ s with link := { s.link with lost := 0 } },
    enc32 s.stamp ++ encBool s.guard.inputActive ++ encBool s.guard.armed ++ encBool s.guard.latch ++
      (LineId.all.flatMap fun l => enc8 (s.line l).state.code ++ encBool (s.cutIsHeld l)) ++ enc8 s.pack.state.code ++
      enc8 s.completed.length ++ enc8 s.pack.reserved ++ enc8 s.link.notices.length ++ enc32 s.link.lost ++
      encPortFlags s.link.flags) := by
  simp only [State.status, accept, encGuard, List.append_assoc]
  rfl

/-- Settles O14. -/
theorem statusPortFlagsResetAllReply : Obligations.StatusPortFlagsResetAllReply := by
  intro s tag htakes
  refine ⟨⟨s.cutIsHeld, cutIsHeld_eq_true_iff s, ?_⟩, ?_, ?_⟩
  · exact request_accepted htakes (status_eq _)
  · exact request_accepted htakes rfl
  · exact request_accepted htakes rfl

/-! ## The transmitter (R163, R166) -/

/-- An idle transmitter takes the oldest reply. -/
theorem chooseFrame_of_reply {s : State} {f : Frame} {fs : List Frame} (hidle : s.link.sending = none)
    (h : s.link.replies = f :: fs) : s.chooseFrame = s.modLink fun k => { k with sending := some f, replies := fs } := by
  simp only [State.chooseFrame, hidle, h]

/-- With no reply queued it takes the first notice. -/
theorem chooseFrame_of_notice {s : State} {n : Notice} {ns : List Notice} (hidle : s.link.sending = none)
    (hnone : s.link.replies = []) (h : s.link.notices = n :: ns) :
    s.chooseFrame = s.modLink fun k => { k with sending := some n.toFrame, notices := ns } := by
  simp only [State.chooseFrame, hidle, hnone, h]

/-- With nothing queued it stays idle. -/
theorem chooseFrame_of_empty {s : State} (hidle : s.link.sending = none) (hnone : s.link.replies = [])
    (h : s.link.notices = []) : s.chooseFrame = s := by
  simp only [State.chooseFrame, hidle, hnone, h]

/-- Choosing a frame changes only what is sent and the two queues. -/
theorem chooseFrame_eq (s : State) : s.chooseFrame = { s with link := { s.link with
    sending := s.chooseFrame.link.sending, replies := s.chooseFrame.link.replies
    notices := s.chooseFrame.link.notices } } := by
  unfold State.chooseFrame
  split
  · rfl
  · split
    · rfl
    · split <;> rfl

/-- Settles O6. -/
theorem frameSentChoosesNextFrame : Obligations.FrameSentChoosesNextFrame := by
  intro s f hsending hreset
  let u := s.modLink fun k => { k with
    sending := none, buffer := if f.kind = noticeKind then k.buffer else k.buffer.tail }
  have hidle : u.link.sending = none := rfl
  have hframe := chooseFrame_eq u
  refine ⟨u.chooseFrame, ?_, ?_, fun r rs h => ?_, fun n ns hnone h => ?_, fun hnone h => ?_, ?_⟩
  · show execFrameSent s = _
    simp only [execFrameSent, hsending, hreset, Bool.false_eq_true, if_false, done]
    rfl
  · rw [hframe]; rfl
  · rw [chooseFrame_of_reply hidle h]; exact ⟨rfl, rfl, rfl⟩
  · rw [chooseFrame_of_notice hidle hnone h]; exact ⟨rfl, hnone, rfl⟩
  · rw [chooseFrame_of_empty hidle hnone h]; rfl
  · rw [hframe]
    exact ⟨rfl, rfl, rfl, rfl, rfl⟩

/-! ## The receiver (R161, R162) -/

/-- The bytes of a frame so far, the time of the last of them noted. -/
theorem frameByte_of_short {s : State} {n : Byte} {got : List Byte} (hne : got ≠ [])
    (h : (n :: got).length < n.toNat + 5) :
    s.frameByte (n :: got) = s.modLink fun k => { k with receiver := .frame (n :: got), rxLast := s.now } := by
  obtain ⟨b, got, rfl⟩ := List.exists_cons_of_ne_nil hne
  exact if_neg (Nat.not_le.mpr h)

/-- A frame's last byte completes it. -/
theorem frameByte_of_full {s : State} {n : Byte} {got : List Byte} (hne : got ≠ [])
    (h : n.toNat + 5 ≤ (n :: got).length) : s.frameByte (n :: got) = s.completeFrame (n :: got) := by
  obtain ⟨b, got, rfl⟩ := List.exists_cons_of_ne_nil hne
  exact if_pos h

/-- Settles O7. -/
theorem byteReceivedCollectsFrame : Obligations.ByteReceivedCollectsFrame := by
  intro s b
  have hexec : exec (.byteReceived b) s = .next (s.byteArrives b).chooseFrame := rfl
  refine ⟨fun hhunt hb => ?_, fun hhunt hb => ?_, fun hframe hb => ?_, fun n got hframe hlen => ?_⟩
  · simp only [hexec, State.byteArrives, hhunt, if_neg hb]
  · simp only [hexec, State.byteArrives, hhunt, if_pos hb]; rfl
  · simp only [hexec, State.byteArrives, hframe, List.nil_append, State.frameByte, if_neg (Nat.not_lt.mpr hb)]; rfl
  · have hshort : (n :: (got ++ [b])).length < n.toNat + 5 := by
      simp only [List.length_cons, List.length_append, List.length_nil]; omega
    simp only [hexec, State.byteArrives, hframe, List.cons_append, frameByte_of_short (s := s) (by simp) hshort]
    rfl

/-- A last byte is awaited when all but one of the bytes that the length gives have come. -/
theorem awaitsLast_iff (n : Byte) (got : List Byte) :
    (Receiver.frame (n :: got)).awaitsLast = true ↔ got.length + 1 = n.toNat + 4 := by
  simp only [Receiver.awaitsLast, List.isEmpty_cons, Bool.not_false, Bool.true_and, frameSize, beq_iff_eq,
    List.length_cons]
  omega

/-- FRAME_COMPLETE where a last byte is awaited: the frame is complete with it. -/
theorem exec_frameComplete {s : State} {n : Byte} {got : List Byte} (last : Byte)
    (hframe : s.link.receiver = .frame (n :: got)) (hlen : got.length + 1 = n.toNat + 4) :
    exec (.frameComplete last) s = .next (s.completeFrame (n :: got ++ [last])).chooseFrame := by
  have hfull : n.toNat + 5 ≤ (n :: (got ++ [last])).length := by
    simp only [List.length_cons, List.length_append, List.length_nil]; omega
  show execFrameComplete last s = _
  simp only [execFrameComplete, hframe, (awaitsLast_iff n got).mpr hlen, if_true, done, State.byteArrives,
    List.cons_append, frameByte_of_full (s := s) (by simp) hfull]

/-- The last two bytes of a complete frame are its CRC bytes. -/
theorem crcSplit (body : List Byte) (hi lo : Byte) :
    (body ++ [hi, lo]).take ((body ++ [hi, lo]).length - 2) = body ∧
      (body ++ [hi, lo]).drop ((body ++ [hi, lo]).length - 2) = [hi, lo] := by
  have hlen : (body ++ [hi, lo]).length - 2 = body.length := by simp
  rw [hlen]
  exact ⟨List.take_left, List.drop_left⟩

/-- A complete frame whose CRC does not match sets the CRC flag. -/
theorem completeFrame_of_ne {s : State} {body : List Byte} {hi lo : Byte} (h : enc16 (crc16 body).toNat ≠ [hi, lo]) :
    s.completeFrame (body ++ [hi, lo]) = { s with link := { s.link with
      receiver := .hunt, flags := { s.link.flags with crc := true } } } := by
  obtain ⟨hbody, hcrc⟩ := crcSplit body hi lo
  unfold State.completeFrame
  rw [hbody, hcrc]
  exact if_neg h

/-- A complete frame whose CRC matches is served, from HUNT. -/
theorem completeFrame_of_eq {s : State} {n kind tag : Byte} {payload : List Byte} {hi lo : Byte}
    (h : enc16 (crc16 (n :: kind :: tag :: payload)).toNat = [hi, lo]) :
    s.completeFrame (n :: kind :: tag :: payload ++ [hi, lo]) =
      ({ s with link := { s.link with receiver := .hunt } } : State).serveFrame kind tag payload := by
  obtain ⟨hbody, hcrc⟩ := crcSplit (n :: kind :: tag :: payload) hi lo
  unfold State.completeFrame
  rw [hbody, hcrc]
  exact if_pos h

/-- Settles O8. -/
theorem discardedFrameSetsItsFlag : Obligations.DiscardedFrameSetsItsFlag := by
  intro s
  refine ⟨rfl, fun n hframe hn => ?_, fun got hframe hnow => ?_, fun got hframe hnow => ?_, ?_⟩
  · show execFrameLengthBroken n s = _
    simp only [execFrameLengthBroken, hframe, hn, and_self, if_true, done, State.byteArrives, List.nil_append,
      State.frameByte]
    rfl
  · show execInterByteGap s = _
    have hstay : s.advanceTo (s.link.rxLast + 5000) = s := by
      rw [← hnow]; simp [State.advanceTo]
    simp only [execInterByteGap, hframe, done, hstay]
    rfl
  · refine ⟨(s.advanceTo (s.link.rxLast + 5000)).framingError, ?_, ?_⟩
    · show execInterByteGap s = _
      simp only [execInterByteGap, hframe, done]
    · simp only [State.advanceTo, if_neg (Nat.not_le.mpr hnow)]
      rfl
  · intro n body hi lo hlen hframe hcrc
    rw [exec_frameComplete lo (got := body ++ [hi]) hframe (by simp [hlen])]
    have happend : n :: (body ++ [hi]) ++ [lo] = (n :: body) ++ [hi, lo] := by simp
    rw [happend, completeFrame_of_ne hcrc]

end Sys2Proof.Proofs

/-! Requests on the link: each field written out reads back (R173), and with it each payload (R172), the frame that
carries it (R161 to R164), and the statements O9 and O10. -/

namespace Sys2Proof.Proofs

open Sys2Proof.Machine Sys2Proof.Safety

/-! ## Fields written out and read back (R173) -/

variable {rest : List Byte}

theorem get8_enc8 {n : Nat} (h : fits8 n = true) : get8 (enc8 n ++ rest) = some (n, rest) := by
  have hn : n < 256 := by simpa [fits8] using h
  simp [get8, enc8, Nat.mod_eq_of_lt hn]

theorem get16_enc16 {n : Nat} (h : fits16 n = true) : get16 (enc16 n ++ rest) = some (n, rest) := by
  have hn : n < 65536 := by simpa [fits16] using h
  simp only [get16, enc16, List.cons_append, List.nil_append, BitVec.toNat_ofNat, Option.some.injEq, Prod.mk.injEq,
    and_true]
  omega

theorem get32_enc32 {n : Nat} (h : fits32 n = true) : get32 (enc32 n ++ rest) = some (n, rest) := by
  have hn : n < 4294967296 := by simpa [fits32] using h
  simp only [get32, enc32, List.cons_append, List.nil_append, BitVec.toNat_ofNat, Option.some.injEq, Prod.mk.injEq,
    and_true]
  omega

/-- A number that is not the code of an absent one reads back as present, and that code as absent. -/
theorem present_getD (code : Nat) {x : Option Nat} (h : x ≠ some code) : present code (x.getD code) = x := by
  cases x with
  | none => simp [present]
  | some n => simp [present, show n ≠ code by rintro rfl; exact h rfl]

theorem getOpt8_encOpt8 {x : Option Nat} (h : optFits8 x = true) : getOpt8 (encOpt8 x ++ rest) = some (x, rest) := by
  have hfits : fits8 (x.getD 0xFF) = true ∧ x ≠ some 0xFF := by
    cases x <;> simp_all [optFits8, fits8]; omega
  simp [getOpt8, encOpt8, get8_enc8 hfits.1, present_getD _ hfits.2]

theorem getOpt16_encOpt16 {x : Option Nat} (h : optFits16 x = true) :
    getOpt16 (encOpt16 x ++ rest) = some (x, rest) := by
  have hfits : fits16 (x.getD 0xFFFF) = true ∧ x ≠ some 0xFFFF := by
    cases x <;> simp_all [optFits16, fits16]; omega
  simp [getOpt16, encOpt16, get16_enc16 hfits.1, present_getD _ hfits.2]

theorem getOpt32_encOpt32 {x : Option Nat} (h : optFits32 x = true) :
    getOpt32 (encOpt32 x ++ rest) = some (x, rest) := by
  have hfits : fits32 (x.getD 0xFFFFFFFF) = true ∧ x ≠ some 0xFFFFFFFF := by
    cases x <;> simp_all [optFits32, fits32]; omega
  simp [getOpt32, encOpt32, get32_enc32 hfits.1, present_getD _ hfits.2]

/-- A signed number within 2 bytes reads back: its two's complement is not the lowest code, which stands for absent. -/
theorem getOptI16_encOptI16 {x : Option Int} (h : optFitsI16 x = true) :
    getOptI16 (encOptI16 x ++ rest) = some (x, rest) := by
  cases x with
  | none => simp only [getOptI16, encOptI16, get16_enc16 (n := 0x8000) (by decide)]; rfl
  | some x =>
    obtain ⟨hlow, hhigh⟩ : -32768 < x ∧ x < 32768 := by simpa [optFitsI16] using h
    have hfits : fits16 (BitVec.ofInt 16 x).toNat = true := by simp only [fits16, decide_eq_true_eq]; omega
    have hback : (BitVec.ofInt 16 x).toInt = x := by
      rw [BitVec.toInt_ofInt]; exact Int.bmod_eq_of_le (by omega) (by omega)
    have hpresent : (BitVec.ofInt 16 x).toNat ≠ 0x8000 := by
      intro hcode
      have : (BitVec.ofInt 16 x).toInt = -32768 := by rw [BitVec.toInt_eq_toNat_cond, hcode]; decide
      omega
    simp only [getOptI16, encOptI16, encI16, get16_enc16 hfits, Option.map_some, if_neg hpresent, BitVec.ofNat_toNat,
      BitVec.setWidth_eq, hback]

/-- A name reads back without the 0x00 it is filled up with. -/
theorem getName_encName {name : List Byte} (h : nameFits name = true) :
    getName (encName name ++ rest) = some (name, rest) := by
  obtain ⟨hlen, hlast⟩ : name.length ≤ 16 ∧ name.getLast? ≠ some 0 := by simpa [nameFits] using h
  have hsize : (encName name).length = 16 := by simp [encName]; omega
  have htrim : trimName (encName name) = name := by
    simp only [trimName, encName, List.reverse_append, List.reverse_replicate]
    rw [List.dropWhile_append_of_pos (by simp)]
    cases hrev : name.reverse with
    | nil => simpa using hrev.symm
    | cons b bs =>
      have hb : b ≠ 0 := by
        rintro rfl
        exact hlast (by rw [List.getLast?_eq_head?_reverse, hrev]; rfl)
      rw [List.dropWhile_cons_of_neg (by simpa using hb), ← hrev, List.reverse_reverse]
  simp only [getName, List.length_append, hsize, Nat.le_add_right, if_true,
    List.take_left' hsize, List.drop_left' hsize, htrim]

/-! ## The composite payloads (R172) -/

/-- A field at the front is read, and then what follows it. -/
theorem read_then {α β : Type} {get : List Byte → Option (α × List Byte)} {field : List Byte} {x : α}
    {next : α × List Byte → Option β} {r : Option β} (hfield : get (field ++ rest) = some (x, rest))
    (hnext : next (x, rest) = r) : (get (field ++ rest) >>= next) = r := by
  rw [hfield]
  exact hnext

/-- The number a consumer is sent as fits its byte and names that consumer. -/
theorem consumerOf_consumerNumber {role : Nat} {c : ConsumerArg} (h : consumerFits role c = true) :
    fits8 (consumerNumber c) = true ∧ consumerOf role (consumerNumber c) = c := by
  cases c with
  | head n =>
    obtain ⟨hn, hside⟩ : fits8 n = true ∧ (role = 3 ∨ 4 ≤ n) := by simpa [consumerFits] using h
    refine ⟨hn, ?_⟩
    rcases hside with hrole | hhigh
    · exact if_pos hrole
    · have hline : (if n < 4 then ConsumerArg.line n else .head n) = .head n := if_neg (Nat.not_lt.mpr hhigh)
      exact (congrArg (ite _ _) hline).trans (ite_self _)
  | line n =>
    obtain ⟨hrole, hn⟩ : role ≠ 3 ∧ n < 4 := by simpa [consumerFits] using h
    exact ⟨decide_eq_true (Nat.lt_trans hn (by decide)), (if_neg hrole).trans (if_pos hn)⟩

theorem getChannelSet_putChannelSet {f : ChannelSetArgs} (h : f.wellFormed = true) :
    getChannelSet (putChannelSet f ++ rest) = some (f, rest) := by
  simp only [ChannelSetArgs.wellFormed, Bool.and_eq_true] at h
  have hconsumer := consumerOf_consumerNumber h.1.2
  simp [getChannelSet, putChannelSet, get8_enc8, hconsumer, h]

theorem getHeadSet_putHeadSet {f : HeadSetArgs} (h : f.wellFormed = true) :
    getHeadSet (putHeadSet f ++ rest) = some (f, rest) := by
  simp only [HeadSetArgs.wellFormed, Bool.and_eq_true] at h
  unfold getHeadSet putHeadSet
  simp only [List.append_assoc]
  refine read_then (get8_enc8 ?_) <| read_then (get8_enc8 ?_) <| read_then (get8_enc8 ?_) <|
    read_then (get8_enc8 ?_) <| read_then (get16_enc16 ?_) <| read_then (get32_enc32 ?_) <|
    read_then (get8_enc8 ?_) <| rfl
  all_goals simp only [h]

theorem getLineSet_putLineSet {f : LineSetArgs} (h : f.wellFormed = true) :
    getLineSet (putLineSet f ++ rest) = some (f, rest) := by
  simp only [LineSetArgs.wellFormed, Bool.and_eq_true] at h
  unfold getLineSet putLineSet
  simp only [List.append_assoc]
  refine read_then (get8_enc8 ?_) <| read_then (get8_enc8 ?_) <| read_then (getOpt8_encOpt8 ?_) <|
    read_then (get32_enc32 ?_) <| read_then (getOpt8_encOpt8 ?_) <| read_then (getOpt32_encOpt32 ?_) <|
    read_then (get8_enc8 ?_) <| read_then (get32_enc32 ?_) <| read_then (get8_enc8 ?_) <|
    read_then (getOpt8_encOpt8 ?_) <| read_then (getOpt32_encOpt32 ?_) <| read_then (getOpt32_encOpt32 ?_) <|
    read_then (getOpt8_encOpt8 ?_) <| read_then (getOpt16_encOpt16 ?_) <| read_then (getOpt8_encOpt8 ?_) <|
    read_then (getOpt8_encOpt8 ?_) <| read_then (getOpt32_encOpt32 ?_) <| read_then (get16_enc16 ?_) <|
    read_then (get16_enc16 ?_) <| read_then (getOpt8_encOpt8 ?_) <| read_then (get32_enc32 ?_) <| rfl
  all_goals simp only [h]

theorem getPosition_putPosition {a : PositionArgs} (h : a.wellFormed = true) :
    getPosition (putPosition a ++ rest) = some (a, rest) := by
  simp only [PositionArgs.wellFormed, Bool.and_eq_true] at h
  simp [getPosition, putPosition, getOpt8_encOpt8, getOpt32_encOpt32, getOptI16_encOptI16, h]

/-- Strand positions written one after another read back in that order. -/
theorem getPositions_flatMap {ps : List PositionArgs} (h : ∀ a ∈ ps, a.wellFormed = true) :
    getPositions ps.length (ps.flatMap putPosition ++ rest) = some (ps, rest) := by
  induction ps with
  | nil => rfl
  | cons a ps ih =>
    have hrest := ih fun b hb => h b (List.mem_cons_of_mem a hb)
    simp [getPositions, getPosition_putPosition (h a List.mem_cons_self), hrest]

/-- Thirteen positions are the vector of their list. -/
theorem thirteen_toList (v : Vector PositionArgs 13) : thirteen v.toList = v := by
  ext i hi
  all_goals simp [thirteen]

theorem getRecipe_putRecipe {f : RecipeArgs} (h : f.wellFormed = true) :
    getRecipe (putRecipe f ++ rest) = some (f, rest) := by
  simp only [RecipeArgs.wellFormed, Bool.and_eq_true, List.all_eq_true] at h
  have hpositions : ∀ rest', getPositions 13 (f.positions.toList.flatMap putPosition ++ rest') =
      some (f.positions.toList, rest') := by
    intro rest'
    have := getPositions_flatMap (rest := rest') (ps := f.positions.toList) (by simp_all)
    simpa using this
  unfold getRecipe putRecipe
  simp only [List.append_assoc]
  refine read_then (getName_encName ?_) <| read_then (get8_enc8 ?_) <| read_then (hpositions _) <|
    read_then (get16_enc16 ?_) <| read_then (get16_enc16 ?_) <| read_then (get16_enc16 ?_) <|
    read_then (get8_enc8 ?_) <| read_then (get32_enc32 ?_) <| read_then (get32_enc32 ?_) <|
    read_then (get8_enc8 ?_) <| read_then (getOpt8_encOpt8 ?_) <| read_then (getOpt16_encOpt16 ?_) <|
    read_then (getOpt16_encOpt16 ?_) <| read_then (getOpt8_encOpt8 ?_) <| read_then (getOpt32_encOpt32 ?_) <|
    read_then (getOpt8_encOpt8 ?_) <| read_then (getOpt8_encOpt8 ?_) <| read_then (get32_enc32 ?_) <|
    read_then (get32_enc32 ?_) <| read_then (get32_enc32 ?_) <| read_then (get32_enc32 ?_) <|
    read_then (get8_enc8 ?_) <| by rw [thirteen_toList]
  all_goals simp only [h]

/-! ## Lengths of the payloads (R172) -/

@[simp] theorem length_enc8 (n : Nat) : (enc8 n).length = 1 := rfl
@[simp] theorem length_enc16 (n : Nat) : (enc16 n).length = 2 := rfl
@[simp] theorem length_enc32 (n : Nat) : (enc32 n).length = 4 := rfl

@[simp] theorem length_encOptI16 (x : Option Int) : (encOptI16 x).length = 2 := by
  cases x <;> rfl

@[simp] theorem length_putPosition (a : PositionArgs) : (putPosition a).length = 7 := by
  simp [putPosition, encOpt8, encOpt32]

theorem length_putLineSet (f : LineSetArgs) : (putLineSet f).length = 45 := by
  unfold putLineSet encOpt8 encOpt16 encOpt32
  simp

theorem length_flatMap_putPosition (ps : List PositionArgs) : (ps.flatMap putPosition).length = 7 * ps.length := by
  induction ps with
  | nil => rfl
  | cons a ps ih => simp [ih]; omega

theorem length_putRecipe {f : RecipeArgs} (h : f.wellFormed = true) : (putRecipe f).length = 153 := by
  simp only [RecipeArgs.wellFormed, Bool.and_eq_true] at h
  have hname : nameFits f.name = true := by simp only [h]
  clear h
  simp only [nameFits, Bool.and_eq_true, decide_eq_true_eq] at hname
  have hpositions : (f.positions.toList.flatMap putPosition).length = 91 := by
    rw [length_flatMap_putPosition, Vector.length_toList]
  unfold putRecipe encName encOpt8 encOpt16 encOpt32
  simp [hpositions]
  omega

/-! ## Requests written out and read back (R172) -/

/-- A payload that its field reader reads whole spells the command made of it. -/
theorem readWith_of_reads {α : Type} {get : List Byte → Option (α × List Byte)} {payload : List Byte} {x : α}
    (h : get (payload ++ []) = some (x, [])) (make : α → Instr) : readWith get make payload = .command (make x) := by
  rw [List.append_nil] at h
  simp only [readWith, h]

/-! The payloads of more fields than one, each with the command made of its fields. -/

theorem readWith_get88 {x y : Nat} (h : (fits8 x && fits8 y) = true) (make : Nat → Nat → Instr) :
    readWith get88 (fun z => make z.1 z.2) (enc8 x ++ enc8 y) = .command (make x y) := by
  have hfits := Bool.and_eq_true_iff.mp h
  exact readWith_of_reads (x := (x, y))
    (by simp only [get88, List.append_assoc, get8_enc8, hfits, Option.bind_eq_bind, Option.bind_some]) _

theorem readWith_get888 {x y z : Nat} (h : (fits8 x && fits8 y && fits8 z) = true) (make : Nat → Nat → Nat → Instr) :
    readWith get888 (fun w => make w.1 w.2.1 w.2.2) (enc8 x ++ enc8 y ++ enc8 z) = .command (make x y z) := by
  simp only [Bool.and_eq_true] at h
  exact readWith_of_reads (x := (x, y, z))
    (by simp only [get888, List.append_assoc, get8_enc8, h, Option.bind_eq_bind, Option.bind_some]) _

theorem readWith_get8then32 {x y : Nat} (h : (fits8 x && fits32 y) = true) (make : Nat → Nat → Instr) :
    readWith get8then32 (fun z => make z.1 z.2) (enc8 x ++ enc32 y) = .command (make x y) := by
  have hfits := Bool.and_eq_true_iff.mp h
  exact readWith_of_reads (x := (x, y))
    (by simp only [get8then32, List.append_assoc, get8_enc8, get32_enc32, hfits, Option.bind_eq_bind, Option.bind_some]) _

theorem readWith_getRecipeStore {slot : Nat} {f : RecipeArgs} (h : (fits8 slot && f.wellFormed) = true)
    (make : Nat → RecipeArgs → Instr) :
    readWith getRecipeStore (fun x => make x.1 x.2) (enc8 slot ++ putRecipe f) = .command (make slot f) := by
  obtain ⟨hslot, hrecipe⟩ := Bool.and_eq_true_iff.mp h
  exact readWith_of_reads (x := (slot, f))
    (by simp only [getRecipeStore, List.append_assoc, get8_enc8 hslot, getRecipe_putRecipe hrecipe,
      Option.bind_eq_bind, Option.bind_some]) _

/-- Settles O10: each of the 41 kinds has one of nine forms of payload, and each form reads back. -/
theorem requestPayloadReadsBack : Obligations.RequestPayloadReadsBack := by
  intro c r hform hwell
  cases c
  all_goals cases hform
  case packSuspend | packResume | headClear | guardArm | guardClear | resetAll | status | snapshot | coilPeek | portFlags
      | packStatus =>
    exact ⟨rfl, Nat.zero_le _⟩
  case channelFree | channelRead | headFree | packMode | recipeRead | recipeFlush | recipePurge | runStart | runEnd
      | lineStop | lineResume | lineReset | cutNow | laneEnable | laneDisable | lineStatus | headStatus | splicesRead
      | cutStatus =>
    exact ⟨readWith_of_reads (get8_enc8 hwell) _, by simp⟩
  case packSet | noticeLevel | lineBind | spansRead | knotStatus => exact ⟨readWith_get88 hwell _, by simp⟩
  case channelSet => exact ⟨readWith_of_reads (getChannelSet_putChannelSet hwell) _, by simp [putChannelSet]⟩
  case headSet => exact ⟨readWith_of_reads (getHeadSet_putHeadSet hwell) _, by simp [putHeadSet]⟩
  case lineSet tag f =>
    have hfields : f.wellFormed = true := hwell
    exact ⟨readWith_of_reads (getLineSet_putLineSet hfields) (.lineSet tag), by simp [length_putLineSet]⟩
  case laneSet => exact ⟨readWith_get888 hwell _, by simp⟩
  case coilTake => exact ⟨readWith_get8then32 hwell _, by simp⟩
  case recipeStore tag slot f =>
    have hparts : (fits8 slot && f.wellFormed) = true := hwell
    have hlen := length_putRecipe (Bool.and_eq_true_iff.mp hparts).2
    exact ⟨readWith_getRecipeStore hparts (.recipeStore tag), by simp [hlen]⟩

end Sys2Proof.Proofs

/-! Frames received whole (R161 to R164): the request that a complete frame carries is served, and the statement O9. -/

namespace Sys2Proof.Proofs

open Sys2Proof.Machine Sys2Proof.Safety

/-! ## What a frame spells -/

/-- A payload that spells a command was read whole. -/
theorem readWith_eq_command {α : Type} {get : List Byte → Option (α × List Byte)} {make : α → Instr}
    {payload : List Byte} {c : Instr} (h : readWith get make payload = .command c) : ∃ x, c = make x := by
  unfold readWith at h
  split at h
  next x _ => exact ⟨x, (Spelled.command.inj h).symm⟩
  · exact Spelled.noConfusion h

/-- A command spelled is a request, of the kind and with the tag that spell it. -/
theorem requestForm_of_spell {kind tag : Byte} {payload : List Byte} {c : Instr}
    (h : spell kind tag payload = .command c) : ∃ r, requestForm c = some r ∧ r.kind = kind ∧ r.tag = tag := by
  unfold spell at h
  split at h
  case h_42 => exact Spelled.noConfusion h
  all_goals
    rename_i hkind
    obtain ⟨x, rfl⟩ := readWith_eq_command h
    exact ⟨_, rfl, BitVec.eq_of_toNat_eq hkind.symm, rfl⟩

/-- Every frame is served as some request: its own command's, or one that is refused. -/
theorem serveFrame_eq_serve (s : State) (kind tag : Byte) (payload : List Byte) :
    ∃ handle, s.serveFrame kind tag payload = s.serve kind tag handle := by
  unfold State.serveFrame
  cases hspell : spell kind tag payload with
  | unknownKind => exact ⟨_, rfl⟩
  | badLength => exact ⟨_, rfl⟩
  | command c =>
    obtain ⟨r, hform, rfl, rfl⟩ := requestForm_of_spell hspell
    simp only [hform]
    exact ⟨_, rfl⟩

/-- A frame that spells a request command is served as that request. -/
theorem serveFrame_of_command {s : State} {kind tag : Byte} {payload : List Byte} {c : Instr} {r : RequestForm}
    (hspell : spell kind tag payload = .command c) (hform : requestForm c = some r) :
    s.serveFrame kind tag payload = s.serve kind tag r.handle := by
  obtain ⟨r', hform', rfl, rfl⟩ := requestForm_of_spell hspell
  obtain rfl : r = r' := Option.some.inj (hform.symm.trans hform')
  simp only [State.serveFrame, hspell, hform]

/-! ## The last byte of a frame -/

/-- A frame complete but for its last byte, and that byte: what the frame carries is served, from HUNT. -/
theorem exec_frameComplete_of_bytes {kind tag : Byte} {payload : List Byte} {s : State} {got : List Byte} {last : Byte}
    (hsize : payload.length ≤ 240) (hbytes : (Frame.mk kind tag payload).bytes = 0xA5#8 :: got ++ [last])
    (hframe : s.link.receiver = .frame got) :
    exec (.frameComplete last) s =
      .next (({ s with link := { s.link with receiver := .hunt } } : State).serveFrame kind tag payload).chooseFrame := by
  let n : Byte := BitVec.ofNat 8 payload.length
  have hn : n.toNat = payload.length := by
    show payload.length % 256 = _
    omega
  let body := n :: kind :: tag :: payload
  obtain ⟨hi, lo, hcrc⟩ : ∃ hi lo, enc16 (crc16 body).toNat = [hi, lo] := ⟨_, _, rfl⟩
  have hall : body ++ [hi, lo] = got ++ [last] := by
    have : 0xA5#8 :: (body ++ enc16 (crc16 body).toNat) = 0xA5#8 :: (got ++ [last]) := hbytes
    rw [hcrc] at this
    exact (List.cons.inj this).2
  have hsplit : body ++ [hi, lo] = (body ++ [hi]) ++ [lo] := by simp
  obtain ⟨rfl, hlast⟩ := List.append_inj' (hsplit.symm.trans hall) rfl
  obtain rfl : lo = last := by simpa using hlast
  have hlen : (kind :: tag :: payload ++ [hi]).length + 1 = n.toNat + 4 := by simp [hn]
  rw [exec_frameComplete lo hframe hlen]
  show Host.Outcome.next ((s.completeFrame ((body ++ [hi]) ++ [lo])).chooseFrame) = _
  rw [← hsplit, completeFrame_of_eq hcrc]

/-- Settles O9: a frame is served as the request it spells; a well-formed command's frame spells that command (O10). -/
theorem frameCompleteRunsItsRequest : Obligations.FrameCompleteRunsItsRequest := by
  refine ⟨fun c r s got last hform hwell hbytes hframe => ?_, fun kind tag payload s got last hsize hbytes hframe => ?_,
    fun s last hidle => ?_⟩
  · obtain ⟨hspell, hsize⟩ := requestPayloadReadsBack c r hform hwell
    rw [exec_frameComplete_of_bytes hsize hbytes hframe, serveFrame_of_command hspell hform, exec_eq_request hform]
    rfl
  · intro u
    have hexec : exec (.frameComplete last) s = .next (u.serveFrame kind tag payload).chooseFrame :=
      exec_frameComplete_of_bytes hsize hbytes hframe
    refine ⟨fun hreset => ?_, fun hreset hfull => ?_, fun htakes => ⟨fun hkind => ?_, fun hlength => ?_, ?_⟩⟩
    · obtain ⟨handle, hserve⟩ := serveFrame_eq_serve u kind tag payload
      have hdiscarded := hserve.trans (serve_of_resetPending (s := u) hreset kind tag handle)
      rw [hexec, hdiscarded]
    · obtain ⟨handle, hserve⟩ := serveFrame_eq_serve u kind tag payload
      have hdropped := hserve.trans (serve_of_full (s := u) hreset hfull kind tag handle)
      rw [hexec, hdropped]
    · rw [hexec, serveFrame_of_unknownKind (s := u) htakes ((spell_eq_unknownKind_iff kind tag payload).mpr hkind)]
    · rw [hexec, serveFrame_of_badLength (s := u) htakes hlength]
    · intro c r hspell hform
      refine ⟨fun v reply haccept => ?_, fun d hdenied => ?_⟩
      · rw [hexec, serveFrame_of_command hspell hform]
        exact request_accepted htakes haccept
      · rw [hexec, serveFrame_of_command hspell hform]
        exact request_refused htakes hdenied
  · have hnone : s.link.receiver.awaitsLast = false := by
      rcases hidle with hhunt | hempty | ⟨n, got, hframe, hlen⟩
      · rw [hhunt]; rfl
      · rw [hempty]; rfl
      · rw [hframe]
        exact Bool.eq_false_iff.mpr (mt (awaitsLast_iff n got).mp hlen)
    show execFrameComplete last s = _
    simp only [execFrameComplete, hnone, Bool.false_eq_true, if_false, done]

end Sys2Proof.Proofs

/-! Requests that store settings or read a record: CHANNEL SET, CHANNEL READ, SNAPSHOT, LINE STATUS, LANE SET, PACK SET and
PACK MODE, and the statements O18, O20, O31 and O49. -/

namespace Sys2Proof.Proofs

open Sys2Proof.Machine Sys2Proof.Safety

/-! ## Codes read back (R173) -/

theorem boolOfCode_toNat (b : Bool) : boolOfCode b.toNat = some b := by
  cases b <;> rfl

theorem role_ofCode_code {role : Role} (h : role ≠ .free) : Role.ofCode role.code = some role := by
  cases role with
  | free => exact absurd rfl h
  | _ => rfl

theorem consumerNamed_asSent (who : Consumer) : consumerNamed (asSent who) = some who := by
  cases who with
  | line l => simp [consumerNamed, asSent]
  | head h => simp [consumerNamed, asSent]

theorem grantMode_ofCode_code (m : GrantMode) : GrantMode.ofCode m.code = some m := by
  cases m <;> rfl

/-- A field in its range passes. -/
theorem inRange_of {lo hi n : Nat} (hlo : lo ≤ n) (hhi : n ≤ hi) : inRange lo hi n = true := by
  simp [inRange, hlo, hhi]

/-! ## CHANNEL SET and CHANNEL READ (R33, R35) -/

/-- A role takes a head exactly when it is FLYER, and a line otherwise. -/
theorem takes_of_iff {role : Role} {who : Consumer} (h : (∃ x, who = .head x) ↔ role = .flyer) :
    role.takes who = true := by
  cases who with
  | head x =>
    obtain rfl := h.mp ⟨x, rfl⟩
    rfl
  | line l =>
    have hne : role ≠ .flyer := fun hr => by
      obtain ⟨x, hx⟩ := h.mpr hr
      cases hx
    cases role with
    | flyer => exact absurd rfl hne
    | _ => rfl

/-- What the SCU makes of CHANNEL SET with fields in range, when no run uses the entry before or after. -/
theorem channelSet_of {s : State} {ch : ChannelId} {role : Role} {who : Consumer} {inv : Bool} (hrole : role ≠ .free)
    (htakes : role.takes who = true) (hbefore : s.busy (s.consumingLine (s.channel ch).consumer) = false)
    (hafter : s.busy (s.consumingLine (some who)) = false) :
    let t := s.modChannel ch (·.assigned role (some who) inv)
    s.channelSet ⟨ch.val, role.code, asSent who, inv.toNat⟩ =
      .ok (t, enc8 ch.val ++ enc8 role.code ++ encConsumer (some who) ++ encBool inv ++ encServed (t.servedLine ch)) := by
  simp only [State.channelSet, withChannel_val, consumerNamed_asSent, role_ofCode_code hrole, htakes, boolOfCode_toNat,
    hbefore, hafter, accept]
  rfl

/-- Settles O18. -/
theorem channelSetAssignsEntry : Obligations.ChannelSetAssignsEntry := by
  intro s tag ch role who inv htakes hrole hsort hbefore hafter
  refine ⟨(s.entered 0x01 tag).modChannel ch (·.assigned role (some who) inv), request_accepted htakes ?_, ?_,
    fun d hd => ?_, rfl⟩
  · rw [channelSet_of hrole (takes_of_iff hsort)]
    · simp only [encServed, List.append_assoc]
    · exact (busy_eq_false_iff s _).mpr hbefore
    · exact (busy_eq_false_iff s _).mpr hafter
  · rw [modChannel_channel_self]; rfl
  · rw [modChannel_channel_of_ne _ _ _ hd]; rfl

/-- Settles O20. -/
theorem channelReadReportsAndClearsTally : Obligations.ChannelReadReportsAndClearsTally := by
  intro s tag ch htakes c
  refine ⟨(s.entered 0x03 tag).modChannel ch fun c => { c with tally := 0 }, request_accepted htakes ?_, ?_,
    fun d hd => ?_, rfl⟩
  · have hsaturated : (s.entered 0x03 tag).timerSaturated ch = (match c.timerFrom with
        | some f => decide (f + 10000000 ≤ s.now)
        | none => false) := by
      show s.timerSaturated ch = _
      simp only [State.timerSaturated]
      cases (s.channel ch).timerFrom with
      | none => rfl
      | some f => exact decide_eq_decide.mpr (by omega)
    simp only [State.channelRead, withChannel_val, accept, hsaturated, encServed, ← List.append_assoc]
    rfl
  · rw [modChannel_channel_self]; rfl
  · rw [modChannel_channel_of_ne _ _ _ hd]; rfl

/-! ## SNAPSHOT and LINE STATUS (R14, R46) -/

/-- Settles O31. -/
theorem snapshotAndLineStatusReportLines : Obligations.SnapshotAndLineStatusReportLines := by
  intro s tag htakes entry
  have hlength : ∀ l, encOptMm (s.openLength l) = (match (s.coilRec l).coil with
      | some c => enc32 (((s.pos l).position - c.start) / 1000000)
      | none => enc32 0xFFFFFFFF) := by
    intro l
    cases hcoil : (s.coilRec l).coil with
    | none => simp only [State.openLength, hcoil]; rfl
    | some c => simp only [State.openLength, State.coilLength, State.coilStart, hcoil]; rfl
  constructor
  · have hentry : ∀ l, enc8 (s.line l).state.code ++ encMm (s.pos l).position ++ encOptMm (s.openLength l) ++
        encOpt32 (s.netRowIndex l) = entry l := by
      intro l
      have hrow : encOpt32 (s.netRowIndex l) = (match (s.line l).kind with
          | .net => enc32 (s.knot l).rowIndex
          | .rope => enc32 0xFFFFFFFF) := by
        simp only [State.netRowIndex]
        cases (s.line l).kind <;> rfl
      rw [hlength, hrow]
      rfl
    refine request_accepted htakes ?_
    show State.snapshot _ = _
    have hpayload : (LineId.all.flatMap fun l => enc8 (s.line l).state.code ++ encMm (s.pos l).position ++
        encOptMm (s.openLength l) ++ encOpt32 (s.netRowIndex l)) = entry .a ++ entry .b ++ entry .c ++ entry .d := by
      simp only [hentry]
      simp only [LineId.all, List.flatMap_cons, List.flatMap_nil, List.append_nil, List.append_assoc]
    rw [← hpayload]
    rfl
  · intro l
    refine ⟨(s.entered 0x31 tag).modLine l fun x => { x with reverseClamp := false }, s.cutIsHeld l,
      request_accepted htakes ?_, cutIsHeld_eq_true_iff s l, ?_, fun x hx => ?_, rfl⟩
    · have hopen : encOptMm ((s.entered 0x31 tag).openLength l) = _ := hlength l
      simp only [State.lineStatus, withLine_code, accept, hopen]
      rfl
    · rw [modLine_line_self]; rfl
    · rw [modLine_line_of_ne _ _ _ hx]; rfl

/-! ## LANE SET, PACK SET and PACK MODE (R145, R150) -/

/-- Settles O49. -/
theorem packingSettingsAreStored : Obligations.PackingSettingsAreStored := by
  intro s tag htakes
  refine ⟨fun l label limit hdisabled hlo hhi => ?_, fun band label hlanes hfree hband hband' hlabel hlabel' => ?_,
    fun m => ?_⟩
  · refine ⟨(s.entered 0x07 tag).modLane l fun r => { r with labelRequired := label, travelLimit := limit },
      request_accepted htakes ?_, ?_, fun x hx => ?_, rfl⟩
    · have hstate : ¬((s.entered 0x07 tag).lane l).enable ≠ .disabled := not_not_intro hdisabled
      simp only [State.laneSet, withLine_code, boolOfCode_toNat, inRange_of hlo hhi, if_neg hstate, accept]
      rfl
    · rw [modLane_lane_self]; rfl
    · rw [modLane_lane_of_ne _ _ _ hx]; rfl
  · have hnone : ¬(((LineId.all.any fun l => (s.lane l).enable == .enabled) = true) ∨ s.pack.state ≠ .free) := by
      simp [hfree, LineId.all, hlanes]
    refine request_accepted htakes ?_
    show (s.entered 0x08 tag).packSet band label = _
    simp only [State.packSet, firstFailure, inRange_of hband hband', inRange_of hlabel hlabel', accept]
    exact if_neg hnone
  · refine request_accepted htakes ?_
    simp only [State.packMode, grantMode_ofCode_code, accept]
    rfl

end Sys2Proof.Proofs

/-! The head table and the binding of recipes: HEAD SET, HEAD FREE, LINE BIND, and the statements O28, O29 and O34. -/

namespace Sys2Proof.Proofs

open Sys2Proof.Machine Sys2Proof.Safety

variable {s : State}

/-! ## HEAD SET (R77, R78) -/

theorem zSense_ofCode_code (z : ZSense) : ZSense.ofCode z.code = some z := by
  cases z <;> rfl

/-- No other head sits at a strand position exactly when no head of the line but this one has it. -/
theorem positionTaken_eq_false {h : HeadId} {l : LineId} {p : Nat}
    (hfree : ∀ x v, x ≠ h → (s.head x).settings = some v → v.line = l → v.position.val ≠ p) :
    s.positionTaken h l p = false := by
  simp only [State.positionTaken, List.any_eq_false, mem_headsOf]
  rintro x ⟨v, hv, hline⟩
  simp only [hv, Bool.and_eq_true, bne_iff_ne, beq_iff_eq, not_and]
  exact fun hx => hfree x v hx hv hline

/-- Settings in range, at a position no other head has, pass every check of HEAD SET. -/
theorem headSetFailure_eq_none {h : HeadId} {u : HeadSettings} (hcounts : 1 ≤ u.countsPerTurn)
    (hcounts' : u.countsPerTurn ≤ 1024) (hoffset : u.offset ≤ 200000) :
    headSetFailure ⟨h.val, LineId.code u.line, u.position.val, u.channel.val, u.countsPerTurn, u.offset, u.zSense.code⟩
      false = none := by
  have hposition : inRange 0 12 u.position.val = true := inRange_of (Nat.zero_le _) (Nat.le_of_lt_succ u.position.isLt)
  simp only [headSetFailure, firstFailure, hposition, inRange_of hcounts hcounts', inRange_of (Nat.zero_le _) hoffset,
    zSense_ofCode_code]
  rfl

/-- A head keeps its place when its settings have the line and the strand position. -/
theorem keepsPlace_eq_true_iff (r : HeadRec) (l : LineId) (p : StrandPos) :
    r.keepsPlace l p = true ↔ ∃ v, r.settings = some v ∧ v.line = l ∧ v.position = p := by
  cases hv : r.settings <;> simp [HeadRec.keepsPlace, hv]

/-- The state that an accepted HEAD SET leaves. -/
def headPlaced (s : State) (h : HeadId) (u : HeadSettings) : State :=
  let keeps := (s.head h).keepsPlace u.line u.position
  let s1 := s.modHead h fun r => { (if keeps then r else r.cleared) with settings := some u }
  if keeps then s1 else s1.invalidate h

/-- A head that keeps its place keeps the rest of its record and its copy. -/
theorem headPlaced_of_keeps {h : HeadId} {u : HeadSettings} (hkeeps : (s.head h).keepsPlace u.line u.position = true) :
    headPlaced s h u = s.modHead h fun r => { r with settings := some u } := by
  simp only [headPlaced, hkeeps, if_true]

/-- A head that moves is cleared, and its copy invalidated. -/
theorem headPlaced_of_moves {h : HeadId} {u : HeadSettings} (hmoves : (s.head h).keepsPlace u.line u.position = false) :
    headPlaced s h u = (s.modHead h fun r => { r.cleared with settings := some u }).invalidate h := by
  simp only [headPlaced, hmoves, Bool.false_eq_true, if_false]

/-- HEAD SET changes the head and its copy alone, and of the head not the trim. -/
theorem headPlaced_same (s : State) (h : HeadId) (u : HeadSettings) :
    headPlaced s h u = { s with heads := (headPlaced s h u).heads, copies := (headPlaced s h u).copies } ∧
      ((headPlaced s h u).head h).trim = (s.head h).trim ∧
      ∀ x, x ≠ h → (headPlaced s h u).head x = s.head x ∧ (headPlaced s h u).copy x = s.copy x := by
  cases hkeeps : (s.head h).keepsPlace u.line u.position with
  | true =>
    rw [headPlaced_of_keeps hkeeps]
    exact ⟨rfl, by rw [modHead_head_self], fun x hx => ⟨modHead_head_of_ne _ _ _ hx, rfl⟩⟩
  | false =>
    rw [headPlaced_of_moves hkeeps]
    refine ⟨rfl, ?_, fun x hx => ?_⟩
    · simp [State.invalidate, HeadRec.cleared]
    · simp [State.invalidate, hx]

/-- What the TS makes of HEAD SET with settings in range, when no run uses the head before or after. -/
theorem headSet_of {h : HeadId} {u : HeadSettings} (hcounts : 1 ≤ u.countsPerTurn) (hcounts' : u.countsPerTurn ≤ 1024)
    (hoffset : u.offset ≤ 200000) (htaken : s.positionTaken h u.line u.position.val = false)
    (hbefore : s.busy ((s.head h).settings.map (·.line)) = false) (hafter : s.runOpen u.line = false) :
    s.headSet ⟨h.val, LineId.code u.line, u.position.val, u.channel.val, u.countsPerTurn, u.offset, u.zSense.code⟩ =
      .ok (headPlaced s h u, enc8 h.val ++ encLine u.line ++ enc8 u.position.val ++ enc8 u.channel.val ++
        enc16 u.countsPerTurn ++ enc32 u.offset ++ enc8 u.zSense.code ++ encI16 ((headPlaced s h u).head h).trim ++
        enc8 ((headPlaced s h u).copy h).state.code ++ encBool ((headPlaced s h u).servesHead u.channel h)) := by
  have hidle : ¬(s.busy ((s.head h).settings.map (·.line)) = true ∨ s.runOpen u.line = true) := by
    simp [hbefore, hafter]
  simp only [State.headSet, withHead_val, withLine_code, withChannel_val, htaken,
    headSetFailure_eq_none hcounts hcounts' hoffset, dif_pos u.position.isLt, zSense_ofCode_code, if_neg hidle, accept,
    headPlaced]

/-- Settles O28. -/
theorem headSetStoresSettings : Obligations.HeadSetStoresSettings := by
  intro s tag h u htakes hcounts hcounts' hoffset hidle hbefore hfree
  have hsame := headPlaced_same (s.entered 0x04 tag) h u
  obtain ⟨hframe, htrim, hothers⟩ := hsame
  refine ⟨headPlaced (s.entered 0x04 tag) h u, request_accepted htakes ?_, fun v hv hline hpos => ?_, fun hmoves => ?_,
    hothers, hframe⟩
  · have htaken : (s.entered 0x04 tag).positionTaken h u.line u.position.val = false :=
      positionTaken_eq_false fun x v hx hv hl hp => hfree x v hx hv hl (Fin.ext hp)
    have hunused : (s.entered 0x04 tag).busy (((s.entered 0x04 tag).head h).settings.map (·.line)) = false := by
      refine (busy_eq_false_iff _ _).mpr fun l hl => ?_
      obtain ⟨v, hv, rfl⟩ := Option.map_eq_some_iff.mp hl
      exact (runOpen_eq_false_iff _ _).mpr (hbefore v hv)
    rw [headSet_of hcounts hcounts' hoffset htaken hunused ((runOpen_eq_false_iff _ _).mpr hidle), htrim]
    rfl
  · have hkeeps : ((s.entered 0x04 tag).head h).keepsPlace u.line u.position = true :=
      (keepsPlace_eq_true_iff _ _ _).mpr ⟨v, hv, hline, hpos⟩
    rw [headPlaced_of_keeps hkeeps]
    exact ⟨by rw [modHead_head_self]; rfl, rfl⟩
  · have hgone : ((s.entered 0x04 tag).head h).keepsPlace u.line u.position = false := by
      refine Bool.eq_false_iff.mpr (mt (keepsPlace_eq_true_iff _ _ _).mp ?_)
      rintro ⟨v, hv, hline, hpos⟩
      rcases hmoves v hv with hne | hne
      · exact hne hline
      · exact hne hpos
    rw [headPlaced_of_moves hgone]
    simp [State.invalidate, HeadRec.cleared, WorkingCopy.invalidated]

/-! ## HEAD FREE (R79, R81) -/

/-- What the TS makes of HEAD FREE when no run uses the head. -/
theorem headFree_of {h : HeadId} (hunused : s.busy ((s.head h).settings.map (·.line)) = false) :
    s.headFree h.val = .ok (match (s.head h).settings with
      | none => s
      | some _ => (s.modHead h fun r => { r.cleared with settings := none, window := none }).invalidate h,
      encI16 (s.head h).trim ++ encI16 (s.copy h).learned ++ enc8 (s.copy h).state.code) := by
  simp only [State.headFree, withHead_val, hunused, Bool.false_eq_true, if_false, accept]
  cases (s.head h).settings <;> rfl

/-- Settles O29. -/
theorem headFreeUnassignsHead : Obligations.HeadFreeUnassignsHead := by
  intro s tag h htakes hidle
  have hunused : (s.entered 0x05 tag).busy (((s.entered 0x05 tag).head h).settings.map (·.line)) = false := by
    refine (busy_eq_false_iff _ _).mpr fun l hl => ?_
    obtain ⟨v, hv, rfl⟩ := Option.map_eq_some_iff.mp hl
    exact (runOpen_eq_false_iff _ _).mpr (hidle v hv)
  have haccept := headFree_of hunused
  cases hset : (s.head h).settings with
  | none =>
    have hnone : ((s.entered 0x05 tag).head h).settings = none := hset
    rw [hnone] at haccept
    exact ⟨_, request_accepted htakes haccept, fun _ => rfl, nofun, fun _ _ => ⟨rfl, rfl⟩, rfl⟩
  | some u =>
    have hsome : ((s.entered 0x05 tag).head h).settings = some u := hset
    rw [hsome] at haccept
    refine ⟨_, request_accepted htakes haccept, nofun, fun v _ => ?_, fun x hx => ?_, rfl⟩
    · simp [State.invalidate, HeadRec.cleared, WorkingCopy.invalidated, HeadRec.duty]
    · simp [State.invalidate, hx]

/-! ## LINE BIND (R63) -/

/-- A recipe that has a target for each head, fits the boards and the splice reach is fit for the line. -/
theorem recipeUnfit_eq_none {l : LineId} {r : Recipe}
    (htargets : ∀ h u, (s.head h).settings = some u → u.line = l → (r.specFor u).isSome = true)
    (hcolumns : (s.line l).kind = .net → ∀ k, r.knot = some k →
      k.columnsUsed ≤ 8 * (s.line l).cfg.boardCount.getD 0)
    (hsplice : (s.line l).cfg.spliceChannel = none ∨
      r.endZone + r.plusTolerance ≤ (s.line l).cfg.spliceOffset.getD 0) : s.recipeUnfit l r = none := by
  have hheads : s.headsHaveTargets l r = true := by
    simp only [State.headsHaveTargets, List.all_eq_true, mem_headsOf]
    rintro h ⟨u, hu, hline⟩
    simp only [hu]
    exact htargets h u hu hline
  have hfit : s.columnsFit l r = true := by
    cases hkind : (s.line l).kind with
    | rope => simp only [State.columnsFit, hkind]
    | net =>
      cases hknot : r.knot with
      | none => simp only [State.columnsFit, hkind, hknot]
      | some k => simpa only [State.columnsFit, hkind, hknot, decide_eq_true_eq] using hcolumns hkind k hknot
  have hreach : s.spliceReaches l r = true := by
    simpa only [State.spliceReaches, Bool.or_eq_true, Option.isNone_iff_eq_none, decide_eq_true_eq] using hsplice
  simp only [State.recipeUnfit, hheads, hfit, hreach, Bool.true_eq_false, if_false]

/-- The line record that an accepted LINE BIND leaves. -/
def recordBound (r : LineRec) (n : Slot) : LineRec :=
  if r.state = .idle then { r with bound := some n, pendingRecipe := none }
  else if r.bound = some n then { r with pendingRecipe := none }
  else { r with pendingRecipe := some n }

/-- What the RS makes of LINE BIND of a full slot of the line's kind, with a recipe that fits where it is made pending. -/
theorem lineBind_of {l : LineId} {n : Slot} {r : Recipe} (hfull : s.recipe n = some r)
    (hkind : r.kind = (s.line l).kind)
    (hfits : (s.line l).state ≠ .idle → (s.line l).bound ≠ some n → s.recipeUnfit l r = none) :
    let t := s.modLine l (recordBound · n)
    s.lineBind (LineId.code l) (n.val + 1) =
      .ok (t, encOptSlot (t.line l).bound ++ encOptSlot (t.line l).pendingRecipe) := by
  simp only [State.lineBind, withLine_code, withSlot_val, hfull, accept, if_neg (not_not_intro hkind)]
  by_cases hidle : (s.line l).state = .idle
  · have hrecord : s.modLine l (recordBound · n) = s.modLine l fun x => { x with bound := some n, pendingRecipe := none } :=
      modLine_congr (by simp only [recordBound, if_pos hidle])
    rw [if_pos ((runOpen_eq_false_iff s l).mpr hidle), hrecord]
  · rw [if_neg (mt (runOpen_eq_false_iff s l).mp hidle)]
    by_cases hbound : (s.line l).bound = some n
    · have hrecord : s.modLine l (recordBound · n) = s.modLine l fun x => { x with pendingRecipe := none } :=
        modLine_congr (by simp only [recordBound, if_neg hidle, if_pos hbound])
      rw [if_pos hbound, hrecord]
    · have hrecord : s.modLine l (recordBound · n) = s.modLine l fun x => { x with pendingRecipe := some n } :=
        modLine_congr (by simp only [recordBound, if_neg hidle, if_neg hbound])
      rw [if_neg hbound, hrecord]
      simp only [hfits hidle hbound]

/-- Settles O34. -/
theorem lineBindBindsOrPends : Obligations.LineBindBindsOrPends := by
  intro s tag l n r htakes hfull hkind hfits
  have haccept := lineBind_of (s := s.entered 0x14 tag) (l := l) hfull hkind fun hrun hbound =>
    have hall := hfits hrun hbound
    recipeUnfit_eq_none hall.1 hall.2.1 hall.2.2
  refine ⟨_, request_accepted htakes haccept, fun hidle => ?_, fun hrun hbound => ?_, fun hrun hbound => ?_,
    fun x hx => modLine_line_of_ne _ _ _ hx, rfl⟩
  · rw [modLine_line_self]; exact if_pos hidle
  · rw [modLine_line_self]; exact (if_neg hrun).trans (if_pos hbound)
  · rw [modLine_line_self]; exact (if_neg hrun).trans (if_neg hbound)

end Sys2Proof.Proofs

/-! The configuration of a line: what passes the checks of LINE SET, what it stores, and the statement O33. -/

namespace Sys2Proof.Proofs

open Sys2Proof.Machine Sys2Proof.Safety

variable {s : State} {f : LineSetArgs}

/-! ## Fields read (R2, R164) -/

theorem presentIn_of_within {lo hi : Nat} {x : Option Nat} (h : Within lo hi x) : presentIn lo hi x = true := by
  obtain ⟨n, rfl, hlo, hhi⟩ := h
  exact inRange_of hlo hhi

/-- A channel number in range or absent is kept. -/
theorem toChannel_val {x : Option Nat} (h : ∀ n, x = some n → n < 32) : (toChannel x).map Fin.val = x := by
  cases x with
  | none => rfl
  | some n => simp [toChannel, h n rfl]

/-- A line number in range or absent is kept. -/
theorem lineOfCode_code {x : Option Nat} (h : ∀ n, x = some n → n < 4) :
    (x.bind LineId.ofCode).map LineId.code = x := by
  cases x with
  | none => rfl
  | some n =>
    have hn := h n rfl
    obtain rfl | rfl | rfl | rfl : n = 0 ∨ n = 1 ∨ n = 2 ∨ n = 3 := by omega
    all_goals rfl

/-- A scan link number in range is kept. -/
theorem scanLinkOfCode_code {x : Option Nat} (h : Within 0 1 x) : (x.bind ScanLink.ofCode).map ScanLink.code = x := by
  obtain ⟨n, rfl, -, hn⟩ := h
  obtain rfl | rfl : n = 0 ∨ n = 1 := by omega
  · rfl
  · rfl

/-- Numbers that differ from a channel number that is named. -/
theorem differs_of {x : Option Nat} {others : List (Option Nat)} (h : x ≠ none → ∀ y ∈ others, x ≠ y) :
    differs x others = true := by
  cases x with
  | none => rfl
  | some n =>
    simp only [differs, Option.isNone_some, Bool.false_or, Bool.not_eq_true', List.contains_eq_mem, decide_eq_false_iff_not]
    exact fun hmem => h (by simp) _ hmem rfl

theorem isNet_iff (f : LineSetArgs) : LineSetArgs.isNet f = true ↔ f.kind = 1 := by
  simp [LineSetArgs.isNet, ProductKind.code]

theorem namedByOther_eq_false {l x : LineId} (h : ∀ y, y ≠ l → (s.line y).cfg.leader ≠ some x) :
    s.namedByOther l x = false := by
  simp only [State.namedByOther, List.any_eq_false, Bool.and_eq_true, bne_iff_ne, beq_iff_eq, not_and]
  exact fun y _ hy => h y hy

/-! ## The checks of LINE SET (R2, R3) -/

theorem targetsInRange_of (h : LineSetNumbers f) : LineSetArgs.targetsInRange f = true := by
  obtain ⟨hchannels, hleader⟩ := h
  have hrange : ∀ x : Option Nat, (∀ n, x = some n → n < 32) → channelInRange x = true := by
    intro x hx
    cases x with
    | none => rfl
    | some n => exact decide_eq_true (hx n rfl)
  have hline : (match f.leader with
      | some n => decide (n < 4)
      | none => true) = true := by
    cases hl : f.leader with
    | none => rfl
    | some n => exact decide_eq_true (hleader n hl)
  have hhaul := hrange f.haulChannel fun n hn => hchannels n (.inl hn)
  have hwheel := hrange f.wheelChannel fun n hn => hchannels n (.inr (.inl hn))
  have hsplice := hrange f.spliceChannel fun n hn => hchannels n (.inr (.inr (.inl hn)))
  have hshaft := hrange f.shaftChannel fun n hn => hchannels n (.inr (.inr (.inr hn)))
  unfold LineSetArgs.targetsInRange
  rw [hhaul, hwheel, hsplice, hshaft]
  exact hline

/-- A check that is made of a field only where another holds. -/
theorem or_check {a b : Bool} (h : a = true → b = true) : (!a || b) = true := by
  cases a with
  | false => rfl
  | true => exact h rfl

theorem lineSetFailure_eq_none {l : LineId} (hranges : LineSetRanges f) (hpairing : LineSetPairing s l f) :
    s.lineSetFailure l f = none := by
  obtain ⟨hkind, hpitch, hpitch', hauth, hauthWheel, hwindow, hwindow', hlimit, hlimit', hmarker, hmarker', hcutter, hcutter',
    htol, hwheel, hsplice, hnet⟩ := hranges
  obtain ⟨hnetPair, hleader⟩ := hpairing
  have named : ∀ {x : Option Nat}, x.isSome = true → x ≠ none := fun h => Option.ne_none_iff_isSome.mpr h
  refine firstFailure_eq_none.mpr ?_
  simp only [List.forall_mem_cons]
  refine ⟨?_, inRange_of hpitch hpitch', ?_, or_check fun h => presentIn_of_within (hwheel (named h)).2, ?_,
    inRange_of hwindow hwindow', inRange_of hlimit hlimit', ?_,
    or_check fun h => presentIn_of_within (hsplice (named h)).2.2.1,
    or_check fun h => presentIn_of_within (hsplice (named h)).2.2.2, ?_, ?_, ?_, ?_, ?_, inRange_of hmarker hmarker',
    inRange_of hcutter hcutter', ?_, ?_, nofun⟩
  · have hcode : (ProductKind.ofCode f.kind).isSome = true := by
      obtain hzero | hone : f.kind = 0 ∨ f.kind = 1 := by omega
      · rw [hzero]; rfl
      · rw [hone]; rfl
    rw [hcode, Bool.true_and, Bool.not_eq_true', Bool.and_eq_false_iff]
    by_cases hone : f.kind = 1
    · exact .inr (namedByOther_eq_false fun y hy => (hnetPair hone y hy).1)
    · exact .inl (Bool.eq_false_iff.mpr (mt (isNet_iff f).mp hone))
  · exact differs_of fun h => by simpa using (hwheel h).1
  · rcases Nat.le_one_iff_eq_zero_or_eq_one.mp hauth with h | h
    · rw [h]; simp [Authority.ofCode]
    · rw [h]; simp [Authority.ofCode, Option.isSome_iff_ne_none, hauthWheel h]
  · exact differs_of fun h => by simpa using ⟨(hsplice h).1, (hsplice h).2.1⟩
  · refine or_check fun h => ?_
    obtain ⟨hshaft, hhaul, hwh, hspl, -⟩ := hnet ((isNet_iff f).mp h)
    rw [Bool.and_eq_true]
    exact ⟨Option.isSome_iff_ne_none.mpr hshaft, differs_of fun _ => by simpa using ⟨hhaul, hwh, hspl⟩⟩
  · exact or_check fun h => presentIn_of_within (hnet ((isNet_iff f).mp h)).2.2.2.2.1
  · exact or_check fun h => presentIn_of_within (hnet ((isNet_iff f).mp h)).2.2.2.2.2.1
  · exact or_check fun h => presentIn_of_within (hnet ((isNet_iff f).mp h)).2.2.2.2.2.2.1
  · exact or_check fun h => presentIn_of_within (hnet ((isNet_iff f).mp h)).2.2.2.2.2.2.2
  · cases hx : LineSetArgs.leaderLine f with
    | none => rfl
    | some x =>
      obtain ⟨hrope, hne, hnone, hkindx, hfree, hself⟩ := hleader x hx
      have hnot : LineSetArgs.isNet f = false := Bool.eq_false_iff.mpr (mt (isNet_iff f).mp (by omega))
      simp [State.leaderAllowed, hnot, hne, hnone, hkindx, namedByOther_eq_false hfree, namedByOther_eq_false hself]
  · cases hl : f.leader with
    | none => rfl
    | some n => exact inRange_of (Nat.zero_le _) (htol (by simp [hl]))

/-- No other NET line has the scan link of a line that passes. -/
theorem scanLinkTaken_eq_false {l : LineId} (hpairing : LineSetPairing s l f) (hnet : f.kind = 1) :
    s.scanLinkTaken l (LineSetArgs.config f).scanLink = false := by
  have hlink : (LineSetArgs.config f).scanLink = f.scanLink.bind ScanLink.ofCode := if_pos ((isNet_iff f).mpr hnet)
  rw [hlink, State.scanLinkTaken, Bool.and_eq_false_iff]
  refine .inr (List.any_eq_false.mpr fun y _ => ?_)
  simp only [Bool.and_eq_true, bne_iff_ne, beq_iff_eq, not_and]
  rintro ⟨hy, hkind⟩ hsame
  exact (hpairing.1 hnet y hy).2 hkind hsame.symm

/-! ## What LINE SET stores (R2, R93) -/

theorem configure_line (l : LineId) (kind : ProductKind) (cfg : LineConfig) :
    (s.configure l kind cfg).line l = { s.line l with kind := kind, cfg := cfg } := by
  cases kind <;> simp [State.configure]

theorem configure_of_ne {l x : LineId} (hx : x ≠ l) (kind : ProductKind) (cfg : LineConfig) :
    (s.configure l kind cfg).line x = s.line x ∧ (s.configure l kind cfg).knot x = s.knot x := by
  cases kind <;> simp [State.configure, hx]

theorem configure_same (l : LineId) (kind : ProductKind) (cfg : LineConfig) : s.configure l kind cfg =
    { s with lines := (s.configure l kind cfg).lines, knots := (s.configure l kind cfg).knots } := by
  cases kind <;> rfl

theorem configure_knot (l : LineId) (cfg : LineConfig) : (s.configure l .rope cfg).knot l = KnotRec.powerOn ∧
    (s.configure l .net cfg).knot l = s.knot l := by
  simp [State.configure]

/-- What the LC makes of LINE SET of an IDLE line whose fields pass. -/
theorem lineSet_of {l : LineId} (hline : f.line = LineId.code l) (hidle : (s.line l).state = .idle)
    (hnumbers : LineSetNumbers f) (hranges : LineSetRanges f) (hpairing : LineSetPairing s l f) :
    s.lineSet f = .ok (s.configure l (LineSetArgs.kindStored f) (LineSetArgs.config f), []) := by
  have hclosed : ¬s.runOpen l = true := by simp [(runOpen_eq_false_iff s l).mpr hidle]
  have hfree : ¬(LineSetArgs.isNet f = true ∧ s.scanLinkTaken l (LineSetArgs.config f).scanLink = true) := by
    rintro ⟨hnet, htaken⟩
    rw [scanLinkTaken_eq_false hpairing ((isNet_iff f).mp hnet)] at htaken
    cases htaken
  simp only [State.lineSet, hline, withLine_code, targetsInRange_of hnumbers, Bool.true_eq_false, if_false, if_neg hclosed,
    lineSetFailure_eq_none hranges hpairing, if_neg hfree, accept]

/-- An absent code and the code 1 of a two-valued field. -/
theorem authorityOfCode_getD {n : Nat} (h : n ≤ 1) :
    (Authority.ofCode n).getD .haul = if n = 1 then .wheel else .haul := by
  obtain rfl | rfl : n = 0 ∨ n = 1 := by omega
  · rfl
  · rfl

/-- Settles O33. -/
theorem lineSetStoresConfiguration : Obligations.LineSetStoresConfiguration := by
  intro s tag l f htakes hline hidle hnumbers hranges hpairing
  have haccept := lineSet_of (s := s.entered 0x06 tag) hline hidle hnumbers hranges hpairing
  have hrecord := configure_line (s := s.entered 0x06 tag) l (LineSetArgs.kindStored f) (LineSetArgs.config f)
  obtain ⟨hchannels, hleader⟩ := hnumbers
  obtain ⟨-, -, -, hauthority, -, -, -, -, -, -, -, -, -, -, -, -, hrangesNet⟩ := hranges
  have hnet : ∀ {α : Type} (a b : α), (if LineSetArgs.isNet f = true then a else b) = if f.kind = 1 then a else b :=
    fun a b => by simp only [isNet_iff]
  have hsome : ∀ {α : Type} (x : Option Nat) (a b : α),
      (if x.isSome = true then a else b) = if x = none then b else a := fun x a b => by cases x <;> rfl
  refine ⟨_, request_accepted htakes haccept, ?_, ?_, ?_, ?_, ?_, ?_, ?_, ?_, ?_, ?_, ?_, ?_, ?_, ?_, ?_, ?_, ?_, ?_, ?_,
    ?_, ?_, fun hrope => ?_, fun hone => ?_, fun x hx => configure_of_ne hx _ _, configure_same _ _ _⟩
  · rw [hrecord]; exact hnet _ _
  · rw [hrecord]; rfl
  · rw [hrecord]; exact toChannel_val fun n hn => hchannels n (.inl hn)
  · rw [hrecord]; rfl
  · rw [hrecord]; exact toChannel_val fun n hn => hchannels n (.inr (.inl hn))
  · rw [hrecord]; exact hsome f.wheelChannel _ _
  · rw [hrecord]; exact authorityOfCode_getD hauthority
  · rw [hrecord]; rfl
  · rw [hrecord]; rfl
  · rw [hrecord]; exact toChannel_val fun n hn => hchannels n (.inr (.inr (.inl hn)))
  · rw [hrecord]; exact hsome f.spliceChannel _ _
  · rw [hrecord]; exact hsome f.spliceChannel _ _
  · rw [hrecord]
    refine (congrArg (Option.map Fin.val) (hnet _ _)).trans ?_
    split
    · exact toChannel_val fun n hn => hchannels n (.inr (.inr (.inr hn)))
    · rfl
  · rw [hrecord]; exact hnet _ _
  · rw [hrecord]
    refine (congrArg (Option.map ScanLink.code) (hnet _ _)).trans ?_
    split
    · rename_i hone
      obtain ⟨-, -, -, -, -, hlink, -⟩ := hrangesNet hone
      exact scanLinkOfCode_code hlink
    · rfl
  · rw [hrecord]; exact hnet _ _
  · rw [hrecord]; exact hnet _ _
  · rw [hrecord]; rfl
  · rw [hrecord]; rfl
  · rw [hrecord]; exact lineOfCode_code hleader
  · rw [hrecord]; exact hsome f.leader _ _
  · have hstored : LineSetArgs.kindStored f = .rope := (hnet _ _).trans (if_neg (by omega))
    rw [hstored]
    exact (configure_knot l _).1
  · have hstored : LineSetArgs.kindStored f = .net := (hnet _ _).trans (if_pos hone)
    rw [hstored]
    exact (configure_knot l _).2

end Sys2Proof.Proofs

/-! Requests refused under the guard latch (R19, R137, R156), and the statement O45. -/

namespace Sys2Proof.Proofs

open Sys2Proof.Machine Sys2Proof.Safety

variable {s : State} {l : LineId}

/-- No leader of a line has its run open. -/
theorem leaderRunning_eq_false (h : ∀ x, (s.line l).cfg.leader = some x → (s.line x).state = .idle) :
    s.leaderRunning l = false := by
  cases hx : (s.line l).cfg.leader with
  | none => simp only [State.leaderRunning, hx]
  | some x => simpa only [State.leaderRunning, hx] using (runOpen_eq_false_iff s x).mpr (h x hx)

/-- Under the latch a cut of a line that may cut on its own is refused GUARDED. -/
theorem cutRefusal_of_latch (hlatch : s.guard.latch = true) (hopen : (s.line l).state ≠ .idle)
    (hleader : ∀ x, (s.line l).cfg.leader = some x → (s.line x).state = .idle) :
    s.cutRefusal l = some .guarded := by
  have hguard : (s.holds l).guard = true := hlatch
  simp only [State.cutRefusal, if_neg (mt (runOpen_eq_false_iff s l).mp hopen), leaderRunning_eq_false hleader, hguard,
    Bool.false_eq_true, if_false, if_true]

theorem runStart_of_latch (hlatch : s.guard.latch = true) (hidle : (s.line l).state = .idle) :
    s.runStart (LineId.code l) = .error ⟨.guarded, 0⟩ := by
  simp only [State.runStart, withLine_code, (runOpen_eq_false_iff s l).mpr hidle, hlatch, Bool.false_eq_true, if_false,
    if_true, refuse]

theorem lineResume_of_latch (hlatch : s.guard.latch = true) (hopen : (s.line l).state ≠ .idle) :
    s.lineResume (LineId.code l) = .error ⟨.guarded, 0⟩ := by
  cases hstate : (s.line l).state with
  | idle => exact absurd hstate hopen
  | running => simp only [State.lineResume, withLine_code, hstate, hlatch, if_true, refuse]
  | stopRequested => simp only [State.lineResume, withLine_code, hstate, hlatch, if_true, refuse]

theorem runEnd_of_refusal {r : Reason} (h : s.cutRefusal l = some r) :
    s.runEnd (LineId.code l) = .error ⟨r, 0⟩ := by
  simp only [State.runEnd, withLine_code, h, refuse]

theorem cutNow_of_refusal {r : Reason} (h : s.cutRefusal l = some r) :
    s.cutNow (LineId.code l) = .error ⟨r, 0⟩ := by
  simp only [State.cutNow, withLine_code, h, refuse]

theorem packResume_of_guarded (h : s.pack.state = .guarded) : s.packResume = .error ⟨.guarded, 0⟩ := by
  simp only [State.packResume, h, if_true, refuse]

/-- Settles O45. -/
theorem guardLatchRefusesRequests : Obligations.GuardLatchRefusesRequests := by
  intro s tag l htakes hlatch turnedAway
  refine ⟨fun hidle => ?_, fun hopen => ?_, fun hopen hleader => ⟨?_, ?_⟩, fun hguarded => ?_⟩
  · exact request_refused htakes (runStart_of_latch (s := s.entered 0x20 tag) hlatch hidle)
  · exact request_refused htakes (lineResume_of_latch (s := s.entered 0x23 tag) hlatch hopen)
  · exact request_refused htakes (runEnd_of_refusal (cutRefusal_of_latch (s := s.entered 0x21 tag) hlatch hopen hleader))
  · exact request_refused htakes (cutNow_of_refusal (cutRefusal_of_latch (s := s.entered 0x25 tag) hlatch hopen hleader))
  · exact request_refused htakes (packResume_of_guarded (s := s.entered 0x29 tag) hguarded)

end Sys2Proof.Proofs

/-! What the Message Link is told depends on the link and the time alone; the guard event (R15 to R17, R158), and the statement
O43. -/

namespace Sys2Proof.Proofs

open Sys2Proof.Machine Sys2Proof.Safety

variable {s t : State}

/-! ## What is told -/

/-- Two states tell alike: their links and their time stamps are the same. -/
structure TellsAs (s t : State) : Prop where
  link : s.link = t.link
  stamp : s.stamp = t.stamp

theorem TellsAs.refl (s : State) : TellsAs s s := ⟨rfl, rfl⟩
theorem TellsAs.symm (h : TellsAs s t) : TellsAs t s := ⟨h.link.symm, h.stamp.symm⟩
theorem TellsAs.trans {u : State} (h : TellsAs s t) (g : TellsAs t u) : TellsAs s u :=
  ⟨h.link.trans g.link, h.stamp.trans g.stamp⟩

/-- The same notice told by states that tell alike. -/
theorem TellsAs.notify (h : TellsAs s t) (l : Option LineId) (b : NoticeBody) : TellsAs (s.notify l b) (t.notify l b) := by
  obtain ⟨hlink, hstamp⟩ := h
  have hlevel : s.levelOf b.cls = t.levelOf b.cls := by simp only [State.levelOf, hlink]
  simp only [State.notify, hlevel, hlink, hstamp]
  split
  · exact ⟨hlink, hstamp⟩
  · exact ⟨by simp only [modLink_link, hlink], hstamp⟩

/-- The same cause offered to a line that stands alike. -/
theorem TellsAs.offerCause (h : TellsAs s t) {l : LineId} (hline : s.line l = t.line l) (x : StopCause) :
    TellsAs (s.offerCause l x) (t.offerCause l x) := by
  have hmod : ∀ f, TellsAs (s.modLine l f) (t.modLine l f) := fun _ => ⟨h.link, h.stamp⟩
  simp only [State.offerCause, hline, modLine_line_self]
  split
  · split
    · exact hmod _
    · exact (hmod _).notify _ _
  · exact hmod _
  · split
    · exact hmod _
    · exact h

/-- A notice changes the link alone. -/
theorem notify_eq (s : State) (l : Option LineId) (b : NoticeBody) :
    s.notify l b = { s with link := (s.notify l b).link } := by
  simp only [State.notify]
  split <;> rfl

/-- The choice of a frame changes the link alone. -/
theorem chooseFrame_eq_link (s : State) : s.chooseFrame = { s with link := s.chooseFrame.link } := by
  conv => lhs; rw [chooseFrame_eq]
  rw [chooseFrame_eq]

/-- The state at the end of a command is the one its block left, but for the link. -/
theorem eq_of_chooseFrame {t u : State} (h : t = u.chooseFrame) : t = { u with link := t.link } :=
  h ▸ chooseFrame_eq_link u

/-- An idle transmitter chooses alike. -/
theorem chooseFrame_link (h : s.link = t.link) : s.chooseFrame.link = t.chooseFrame.link := by
  simp only [State.chooseFrame, h]
  split
  · exact h
  · split
    · simp only [modLink_link, h]
    · split
      · simp only [modLink_link, h]
      · exact h

/-! ## The guard event (R16, R17, R158) -/

/-- GUARD offered to a line changes its record alone. -/
theorem offerCause_guard (s : State) (l : LineId) : s.offerCause l .guard = s.modLine l (afterOffer · .guard) := by
  cases hstate : (s.line l).state with
  | running =>
    simp only [State.offerCause, hstate, if_true]
    exact modLine_congr (by simp only [afterOffer, hstate])
  | stopRequested => exact offerCause_of_stopRequested hstate .guard
  | idle =>
    simp only [State.offerCause, hstate, if_true]
    exact modLine_congr (by simp only [afterOffer, hstate, if_true])

/-! An update of one record of every line in turn updates that record of each, and nothing else. -/

theorem foldl_modLine_eq (f : LineRec → LineRec) (ls : List LineId) (s : State) :
    ls.foldl (fun s l => s.modLine l f) s = { s with lines := (ls.foldl (fun s l => s.modLine l f) s).lines } := by
  induction ls generalizing s with
  | nil => rfl
  | cons l ls ih => rw [List.foldl_cons, ih]; rfl

theorem foldl_modPos_eq (f : PositionRec → PositionRec) (ls : List LineId) (s : State) :
    ls.foldl (fun s l => s.modPos l f) s = { s with positions := (ls.foldl (fun s l => s.modPos l f) s).positions } := by
  induction ls generalizing s with
  | nil => rfl
  | cons l ls ih => rw [List.foldl_cons, ih]; rfl

theorem foldl_modCoil_eq (f : CoilRec → CoilRec) (ls : List LineId) (s : State) :
    ls.foldl (fun s l => s.modCoil l f) s = { s with coils := (ls.foldl (fun s l => s.modCoil l f) s).coils } := by
  induction ls generalizing s with
  | nil => rfl
  | cons l ls ih => rw [List.foldl_cons, ih]; rfl

theorem foldl_modLine_pos (f : LineRec → LineRec) (ls : List LineId) (s : State) (x : LineId) :
    (ls.foldl (fun s l => s.modLine l f) s).pos x = s.pos x := by
  rw [foldl_modLine_eq]; rfl

theorem foldl_modLine_coil (f : LineRec → LineRec) (ls : List LineId) (s : State) (x : LineId) :
    (ls.foldl (fun s l => s.modLine l f) s).coilRec x = s.coilRec x := by
  rw [foldl_modLine_eq]; rfl

theorem foldl_modPos_line (f : PositionRec → PositionRec) (ls : List LineId) (s : State) (x : LineId) :
    (ls.foldl (fun s l => s.modPos l f) s).line x = s.line x := by
  rw [foldl_modPos_eq]; rfl

theorem foldl_modPos_coil (f : PositionRec → PositionRec) (ls : List LineId) (s : State) (x : LineId) :
    (ls.foldl (fun s l => s.modPos l f) s).coilRec x = s.coilRec x := by
  rw [foldl_modPos_eq]; rfl

theorem foldl_modCoil_line (f : CoilRec → CoilRec) (ls : List LineId) (s : State) (x : LineId) :
    (ls.foldl (fun s l => s.modCoil l f) s).line x = s.line x := by
  rw [foldl_modCoil_eq]; rfl

theorem foldl_modCoil_pos (f : CoilRec → CoilRec) (ls : List LineId) (s : State) (x : LineId) :
    (ls.foldl (fun s l => s.modCoil l f) s).pos x = s.pos x := by
  rw [foldl_modCoil_eq]; rfl

theorem foldl_modLine_line (f : LineRec → LineRec) (s : State) (x : LineId) :
    (LineId.all.foldl (fun s l => s.modLine l f) s).line x = f (s.line x) := by
  cases x <;> simp [LineId.all]

theorem foldl_modPos_pos (f : PositionRec → PositionRec) (s : State) (x : LineId) :
    (LineId.all.foldl (fun s l => s.modPos l f) s).pos x = f (s.pos x) := by
  cases x <;> simp [LineId.all]

theorem foldl_modCoil_coil (f : CoilRec → CoilRec) (s : State) (x : LineId) :
    (LineId.all.foldl (fun s l => s.modCoil l f) s).coilRec x = f (s.coilRec x) := by
  cases x <;> simp [LineId.all]

/-- The state that the guard event leaves before its notice. -/
def guardStruck (s : State) : State :=
  let s2 := LineId.all.foldl (fun (s : State) l => s.modLine l (afterOffer · .guard))
    { s with guard := { s.guard with latch := true } }
  let s3 := LineId.all.foldl (fun (s : State) l => s.modPos l fun p => { p with markerPulse := none }) s2
  let s4 := LineId.all.foldl (fun (s : State) l => s.modCoil l fun k => { k with cutterPulse := none }) s3
  s4.modPack PackRec.atGuard

theorem guardEvent_eq (s : State) : s.guardEvent = (guardStruck s).notify none (.guardSet s.runningLines) := by
  simp only [State.guardEvent, offerCause_guard, guardStruck]

/-- The guard event before its notice changes the latch, the lines, the pulses and the packing head. -/
theorem guardStruck_eq (s : State) : guardStruck s = { s with
    guard := { s.guard with latch := true }, lines := (guardStruck s).lines, positions := (guardStruck s).positions
    coils := (guardStruck s).coils, pack := s.pack.atGuard } := by
  simp only [guardStruck]
  rw [foldl_modCoil_eq, foldl_modPos_eq, foldl_modLine_eq]
  rfl

theorem guardStruck_records (s : State) (l : LineId) : (guardStruck s).line l = afterOffer (s.line l) .guard ∧
    (guardStruck s).pos l = { s.pos l with markerPulse := none } ∧
    (guardStruck s).coilRec l = { s.coilRec l with cutterPulse := none } := by
  simp only [guardStruck, modPack_line, modPack_pos, modPack_coilRec, foldl_modCoil_line, foldl_modCoil_pos,
    foldl_modPos_line, foldl_modPos_coil, foldl_modLine_pos, foldl_modLine_coil, foldl_modLine_line, foldl_modPos_pos,
    foldl_modCoil_coil]
  exact ⟨rfl, rfl, rfl⟩

/-- A head that is HELD, GUARDED or in FAULT stays as it is at the guard event. -/
theorem atGuard_of_stopped {p : PackRec} (h : p.state = .held ∨ p.state = .guarded ∨ p.state = .fault) : p.atGuard = p := by
  rcases h with h | h | h <;> simp only [PackRec.atGuard, h]

/-- Any other head goes to GUARDED, with its service in abeyance. -/
theorem atGuard_of_not_stopped {p : PackRec} (h : ¬(p.state = .held ∨ p.state = .guarded ∨ p.state = .fault)) :
    p.atGuard = { p with
      state := .guarded
      position := if p.state = .travel then none else p.position
      bandRepeats := decide (p.state = .banding) || (decide (p.state = .suspended) && p.bandRepeats)
      abeyance := p.attached.bind fun l => p.step.map fun k => (l, k)
      attached := none, step := none, arrivalStep := none, stepTimer := none, suspendPending := false } := by
  cases hstate : p.state
  case held | guarded | fault => exact absurd (by simp [hstate]) h
  all_goals
    simp only [PackRec.atGuard, hstate]
    cases p.attached <;> cases p.step <;> simp

/-- What the guard event leaves, with the notice told: the latch and the input as they then are, the lines stopped, the pulses
and the packing head released. -/
structure GuardLatched (s t : State) (told : Link) : Prop where
  latch : t.guard.latch = true
  input : t.guard.inputActive = true
  armed : t.guard.armed = true
  records : ∀ l, t.line l = afterOffer (s.line l) .guard ∧ t.pos l = { s.pos l with markerPulse := none } ∧
    t.coilRec l = { s.coilRec l with cutterPulse := none }
  pack : t.pack = s.pack.atGuard
  told : t.link = told
  same : t = { s with
    guard := t.guard, lines := t.lines, positions := t.positions, coils := t.coils, pack := t.pack, link := t.link }

/-- The guard event of a state that stands as `s` but for its guard and its link. -/
theorem guardLatched_of {s u t : State} {told : Link} (hu : u = { s with guard := u.guard, link := u.link })
    (harmed : u.guard.armed = true) (hactive : u.guard.inputActive = true)
    (ht : t = { guardStruck u with link := t.link }) (hlink : t.link = told) : GuardLatched s t told := by
  have hstruck := guardStruck_eq u
  have hrecords := guardStruck_records u
  generalize guardStruck u = v at ht hstruck hrecords
  have hguard : t.guard = { u.guard with latch := true } := by rw [ht, hstruck]
  have hpack : t.pack = u.pack.atGuard := by rw [ht, hstruck]
  have hsame : ∀ l, u.line l = s.line l ∧ u.pos l = s.pos l ∧ u.coilRec l = s.coilRec l ∧ u.pack = s.pack := by
    intro l
    rw [hu]
    exact ⟨rfl, rfl, rfl, rfl⟩
  have hof : ∀ l, t.line l = v.line l ∧ t.pos l = v.pos l ∧ t.coilRec l = v.coilRec l := by
    intro l
    rw [ht]
    exact ⟨rfl, rfl, rfl⟩
  refine ⟨by rw [hguard], by rw [hguard]; exact hactive, by rw [hguard]; exact harmed, fun l => ?_, ?_, hlink, ?_⟩
  · obtain ⟨hline, hpos, hcoil⟩ := hrecords l
    obtain ⟨hl, hp, hc, -⟩ := hsame l
    obtain ⟨hl', hp', hc'⟩ := hof l
    exact ⟨by rw [hl', hline, hl], by rw [hp', hpos, hp], by rw [hc', hcoil, hc]⟩
  · rw [hpack, (hsame .a).2.2.2]
  · rw [ht, hstruck, hu]

/-- Under the guard event the outputs of the packing head are released. -/
theorem outputs_atGuard {t : State} {p : PackRec} (h : t.pack = p.atGuard) :
    t.travelOut = false ∧ t.strapOut = false ∧ t.labelOut = false := by
  have hstate : t.pack.state = .held ∨ t.pack.state = .guarded ∨ t.pack.state = .fault := by
    rw [h]
    by_cases hstopped : p.state = .held ∨ p.state = .guarded ∨ p.state = .fault
    · rw [atGuard_of_stopped hstopped]; exact hstopped
    · rw [atGuard_of_not_stopped hstopped]; exact .inr (.inl rfl)
  rcases hstate with h | h | h <;> simp [State.travelOut, State.strapOut, State.labelOut, h]

/-- The input at its active level strikes exactly where the guard is armed, with the latch clear and the input inactive. -/
theorem guardInput_true (s : State) : s.guardInput true =
    if s.guard = ⟨false, true, false⟩ then ({ s with guard := { s.guard with inputActive := true } } : State).guardEvent
    else { s with guard := { s.guard with inputActive := true } } := by
  rcases hguard : s.guard with ⟨_ | _, _ | _, _ | _⟩ <;> simp [State.guardInput, hguard]

theorem guardInput_false (s : State) :
    s.guardInput false = { s with guard := { s.guard with inputActive := false } } := by
  simp only [State.guardInput, Bool.false_and, Bool.false_eq_true, if_false]

/-- Settles O43. -/
theorem guardEventReleasesOutputs : Obligations.GuardEventReleasesOutputs := by
  intro s tag held hheld moved latched
  have hlatched : ∀ t told, GuardLatched s t told → latched t told := by
    intro t told h
    obtain ⟨htravel, hstrap, hlabel⟩ := outputs_atGuard h.pack
    exact ⟨h.latch, h.input, h.armed, h.records, fun hstop => h.pack.trans (atGuard_of_stopped hstop),
      fun hrun => h.pack.trans (atGuard_of_not_stopped hrun), htravel, hstrap, hlabel, h.told, h.same⟩
  have hmoved : s.runningLines = moved := rfl
  have hevent : exec (.guardEvent held) s = .next (s.guardInput true).chooseFrame :=
    congrArg done (State.ifHeld_of_le hheld s _)
  have hinput : ∀ active, exec (.guardInputChange active held) s = .next (s.guardInput active).chooseFrame :=
    fun active => congrArg done (State.ifHeld_of_le hheld s _)
  refine ⟨fun hguard => ?_, fun hguard => ?_, ?_, fun htakes => ?_⟩
  · let u : State := { s with guard := { s.guard with inputActive := true } }
    have htaken : s.guardInput true = (guardStruck u).notify none (.guardSet moved) := by
      rw [guardInput_true, if_pos hguard, guardEvent_eq, ← hmoved]
      rfl
    refine ⟨_, hevent, hinput true, hlatched _ _ ?_⟩
    rw [htaken]
    refine guardLatched_of (u := u) rfl (by simp [u, hguard]) rfl ?_ ?_
    · rw [chooseFrame_eq_link, notify_eq]
    · exact chooseFrame_link ((TellsAs.notify ⟨by rw [guardStruck_eq], by rw [guardStruck_eq]; rfl⟩ _ _).link)
  · refine ⟨_, hevent, hinput true, ?_⟩
    rw [guardInput_true, if_neg hguard]
  · rw [hinput false, guardInput_false]
  · let u : State := { s.entered 0x2B tag with guard := { s.guard with armed := true } }
    have hreply : ∀ t : State, (s.entered 0x2B tag).guardArm = accept t
        (encBool t.guard.armed ++ encBool t.guard.inputActive ++ encBool t.guard.latch) →
        t.guard.armed = true → t.guard.inputActive = s.guard.inputActive → exec (.guardArm tag) s =
          .next (t.acceptedAs 0x2B tag (encBool true ++ encBool s.guard.inputActive ++ encBool t.guard.latch)) := by
      intro t haccept harmed hinput
      rw [harmed, hinput] at haccept
      exact request_accepted htakes haccept
    by_cases hstrikes : s.guard.inputActive = true ∧ s.guard.latch = false
    · obtain ⟨hactive, hclear⟩ := hstrikes
      have htaken : (s.entered 0x2B tag).guardArm = accept u.guardEvent (encBool u.guardEvent.guard.armed ++
          encBool u.guardEvent.guard.inputActive ++ encBool u.guardEvent.guard.latch) := by
        have hcond : (s.guard.inputActive && !s.guard.latch) = true := by rw [hactive, hclear]; rfl
        exact congrArg (fun v : State => accept v (encBool v.guard.armed ++ encBool v.guard.inputActive ++
          encBool v.guard.latch)) (if_pos hcond)
      have hafter : GuardLatched s u.guardEvent ((s.entered 0x2B tag).notify none (.guardSet moved)).link := by
        rw [guardEvent_eq, show u.runningLines = moved from hmoved]
        refine guardLatched_of (u := u) rfl rfl hactive (notify_eq _ _ _) ?_
        exact (TellsAs.notify ⟨by rw [guardStruck_eq], by rw [guardStruck_eq]; rfl⟩ _ _).link
      refine ⟨u.guardEvent, hreply _ htaken hafter.armed (hafter.input.trans hactive.symm), fun _ _ => hlatched _ _ hafter,
        fun hnot => ?_⟩
      rcases hnot with hnot | hnot
      · rw [hactive] at hnot; cases hnot
      · rw [hclear] at hnot; cases hnot
    · have htaken : (s.entered 0x2B tag).guardArm = accept u (encBool u.guard.armed ++ encBool u.guard.inputActive ++
          encBool u.guard.latch) := by
        have hcond : ¬(s.guard.inputActive && !s.guard.latch) = true := by simpa using hstrikes
        exact congrArg (fun v : State => accept v (encBool v.guard.armed ++ encBool v.guard.inputActive ++
          encBool v.guard.latch)) (if_neg hcond)
      exact ⟨u, hreply _ htaken rfl rfl, fun hactive hclear => absurd ⟨hactive, hclear⟩ hstrikes, fun _ => rfl⟩

end Sys2Proof.Proofs

/-! The packing head's stops: suspension, resumption, manual hold, faults (R152, R154 to R157), and the statements O53 and
O54. -/

namespace Sys2Proof.Proofs

open Sys2Proof.Machine Sys2Proof.Safety

variable {s : State}

/-! ## Suspension (R155) -/

/-- The head record of a suspended head. -/
def packSuspended (p : PackRec) (attached : Option LineId) (step : Option PackStep) : PackRec :=
  { p with
    state := .suspended, attached := attached, step := step, arrivalStep := none, stepTimer := none
    suspendPending := false }

/-- A suspension changes the head and sends its notice. -/
theorem suspend_eq (s : State) (a : Option LineId) (k : Option PackStep) : s.suspend a k =
    { s with pack := packSuspended s.pack a k, link := (s.notify a (.suspended .host a k)).link } := by
  have htells : TellsAs (s.modPack fun p => packSuspended p a k) s := ⟨rfl, rfl⟩
  show (s.modPack fun p => packSuspended p a k).notify a (.suspended .host a k) = _
  rw [notify_eq, (htells.notify a _).link]
  rfl

/-- The record of a head that becomes FREE. -/
def packFreed (p : PackRec) : PackRec :=
  { p with state := .free, attached := none, step := none, arrivalStep := none, stepTimer := none }

theorem freeHead_eq (s : State) : s.freeHead = ({ s with pack := packFreed s.pack } : State).evaluateGrant := rfl

/-! ## Leaving a stop (R154, R157) -/

theorem leaveStop_of_latch (h : s.guard.latch = true) :
    s.leaveStop = { s with pack := { s.pack with state := .guarded, suspendPending := false } } :=
  if_pos h

theorem leaveStop_of_pending (hclear : s.guard.latch = false) (h : s.pack.suspendPending = true) :
    s.leaveStop = { s with
      pack := packSuspended s.pack none none, link := (s.notify none (.suspended .host none none)).link } := by
  simp only [State.leaveStop, hclear, h, Bool.false_eq_true, if_false, if_true, suspend_eq]

theorem leaveStop_of_free (hclear : s.guard.latch = false) (h : s.pack.suspendPending = false) :
    s.leaveStop = ({ s with pack := packFreed s.pack } : State).evaluateGrant := by
  simp only [State.leaveStop, hclear, h, Bool.false_eq_true, if_false, freeHead_eq]

/-! ## PACK SUSPEND and PACK RESUME (R155, R156) -/

/-- The head states that end later. -/
def endsLater : List PackState := [.travel, .banding, .labelling, .held, .fault]

theorem suspendHead_of_endsLater (h : s.pack.state ∈ endsLater) :
    s.suspendHead = s.modPack fun p => { p with suspendPending := true } := by
  simp only [endsLater, List.mem_cons, List.not_mem_nil, or_false] at h
  rcases h with h | h | h | h | h <;> simp only [State.suspendHead, h]

theorem resumeHead_of_endsLater (h : s.pack.state ∈ endsLater) :
    s.resumeHead = s.modPack fun p => { p with suspendPending := false } := by
  simp only [endsLater, List.mem_cons, List.not_mem_nil, or_false] at h
  rcases h with h | h | h | h | h <;> simp only [State.resumeHead, h]

theorem resumeHead_of_unattached (h : s.pack.state = .suspended) (hnone : s.pack.attached = none) :
    s.resumeHead = ({ s with pack := packFreed s.pack } : State).evaluateGrant := by
  simp only [State.resumeHead, h, hnone, freeHead_eq]

theorem resumeHead_of_attached {l : LineId} (h : s.pack.state = .suspended) (hl : s.pack.attached = some l) :
    s.resumeHead = s.resumeService l (s.pack.step.getD .travel) := by
  simp only [State.resumeHead, h, hl]

/-- The head record at the start of a band and of labelling. -/
def packBanding (p : PackRec) (now k restarts : Nat) : PackRec :=
  { p with
    state := .banding, step := some (.band k), arrivalStep := none, restarts := restarts, bandRepeats := false
    stepTimer := some (now + p.bandTimeout * 1000000) }
def packLabelling (p : PackRec) (now : Nat) : PackRec :=
  { p with
    state := .labelling, step := some .label, arrivalStep := none
    stepTimer := some (now + p.labelTimeout * 1000000) }

theorem startBand_eq (s : State) (k n : Nat) : s.startBand k n = { s with pack := packBanding s.pack s.now k n } := rfl
theorem startLabel_eq (s : State) : s.startLabel = { s with pack := packLabelling s.pack s.now } := rfl

/-- A band starts with the restarts that its head carries. -/
theorem enterStep_band (s : State) (k : Nat) :
    s.enterStep (.band k) = { s with pack := packBanding s.pack s.now k (carriedRestarts s.pack) } := rfl

theorem resumeHead_band {l x : LineId} {k : Nat} (h : s.pack.state = .suspended) (hl : s.pack.attached = some l)
    (hx : s.pack.position = some x) (hk : s.pack.step = some (.band k)) :
    s.resumeHead = { s with pack := { s.pack with
      state := .banding, arrivalStep := none, restarts := carriedRestarts s.pack, bandRepeats := false
      stepTimer := some (s.now + s.pack.bandTimeout * 1000000) } } := by
  rw [resumeHead_of_attached h hl]
  simp only [State.resumeService, hx, hk, Option.getD_some, enterStep_band, packBanding]

theorem resumeHead_label {l x : LineId} (h : s.pack.state = .suspended) (hl : s.pack.attached = some l)
    (hx : s.pack.position = some x) (hk : s.pack.step = some .label) :
    s.resumeHead = { s with pack := { s.pack with
      state := .labelling, arrivalStep := none, stepTimer := some (s.now + s.pack.labelTimeout * 1000000) } } := by
  rw [resumeHead_of_attached h hl]
  simp only [State.resumeService, hx, hk, Option.getD_some, State.enterStep, startLabel_eq, packLabelling]

theorem resumeHead_travel {l : LineId} {k : PackStep} (h : s.pack.state = .suspended) (hl : s.pack.attached = some l)
    (hx : s.pack.position = none) (hk : s.pack.step = some k) :
    s.resumeHead = { s with pack := { s.pack with
      state := .travel, step := some .travel, arrivalStep := some (if k = .travel then .band 1 else k)
      stepTimer := some (s.now + (s.lane l).travelLimit * 1000000) } } := by
  have hafter : k.afterTravel = if k = .travel then .band 1 else k := by cases k <;> rfl
  have hservice : s.resumeHead = s.startTravel l k.afterTravel := by
    rw [resumeHead_of_attached h hl]
    simp only [State.resumeService, hx, hk, Option.getD_some]
  rw [hservice, hafter]
  simp only [State.startTravel, ← hl]
  rfl

/-! ## HOLD REQ (R157) -/

theorem holdReqOn_eq (h : s.pack.holdReq = false) : s.holdReqOn = { s with
    pack := if s.pack.state = .free then
        { s.pack with holdReq := true, state := .held, position := none, holdPending := false }
      else { s.pack with holdReq := true, holdPending := true } } := by
  simp only [State.holdReqOn, h, Bool.false_eq_true, if_false]
  by_cases hfree : s.pack.state = .free
  · rw [if_pos hfree, if_pos hfree]; rfl
  · rw [if_neg hfree, if_neg hfree]; rfl

/-- The state once HOLD REQ has become inactive, before a HELD head goes on. -/
def holdEnded (s : State) : State := { s with pack := { s.pack with holdReq := false, holdPending := false } }

theorem holdReqOff_eq (h : s.pack.holdReq = true) :
    s.holdReqOff = if s.pack.state = .held then (holdEnded s).leaveStop else holdEnded s :=
  if_pos h

/-- Settles O54. -/
theorem suspendResumeAndHoldMoveHead : Obligations.SuspendResumeAndHoldMoveHead := by
  intro s tag held hheld
  have hon : exec (.holdReqActive held) s = .next s.holdReqOn.chooseFrame := congrArg done (State.ifHeld_of_le hheld s _)
  have hoff : exec (.holdReqInactive held) s = .next s.holdReqOff.chooseFrame :=
    congrArg done (State.ifHeld_of_le hheld s _)
  refine ⟨fun htakes => ⟨⟨(s.entered 0x28 tag).suspendHead, request_accepted htakes rfl, fun hfree => ?_, fun hstop => ?_,
    fun hlater => suspendHead_of_endsLater hlater⟩, fun hguarded => ?_⟩, fun hreq => ?_, fun hreq => ?_, fun hreq => ?_,
    fun hreq => ?_⟩
  · have hfree' : (s.entered 0x28 tag).pack.state = .free := hfree
    have hsuspend : (s.entered 0x28 tag).suspendHead = (s.entered 0x28 tag).suspend none none := by
      simp only [State.suspendHead, hfree']
    rw [hsuspend, suspend_eq]
    exact ⟨rfl, rfl, rfl⟩
  · rcases hstop with hstop | hstop
    · have : (s.entered 0x28 tag).pack.state = .suspended := hstop
      simp only [State.suspendHead, this]
    · have : (s.entered 0x28 tag).pack.state = .guarded := hstop
      simp only [State.suspendHead, this]
  · have haccept : (s.entered 0x29 tag).packResume = accept (s.entered 0x29 tag).resumeHead
        (enc8 (s.entered 0x29 tag).resumeHead.pack.state.code) := if_neg hguarded
    refine ⟨(s.entered 0x29 tag).resumeHead, { s.entered 0x29 tag with pack := packFreed s.pack },
      request_accepted htakes haccept, fun hfree => ?_, fun hlater => resumeHead_of_endsLater hlater,
      fun hstop hnone => ⟨resumeHead_of_unattached (s := s.entered 0x29 tag) hstop hnone, rfl⟩,
      fun l x k hstop hl hx hk => ?_, fun l x hstop hl hx hk => ?_, fun l k hstop hl hx hk => ?_⟩
    · have hfree' : (s.entered 0x29 tag).pack.state = .free := hfree
      simp only [State.resumeHead, hfree']
    · exact resumeHead_band (s := s.entered 0x29 tag) hstop hl hx hk
    · exact resumeHead_label (s := s.entered 0x29 tag) hstop hl hx hk
    · exact resumeHead_travel (s := s.entered 0x29 tag) hstop hl hx hk
  · rw [hon, State.holdReqOn, if_pos hreq]
  · rw [hoff, State.holdReqOff, if_neg (by simp [hreq])]
  · rw [hon, holdReqOn_eq hreq]
  · refine ⟨s.holdReqOff, { holdEnded s with pack := packFreed (holdEnded s).pack }, hoff, ?_⟩
    rw [holdReqOff_eq hreq]
    refine ⟨fun hstate => if_neg hstate, fun hstate hlatch => ?_, fun hstate hclear hpending => ?_,
      fun hstate hclear hpending => ⟨?_, rfl⟩⟩
    · rw [if_pos hstate, leaveStop_of_latch (s := holdEnded s) hlatch]; rfl
    · rw [if_pos hstate, leaveStop_of_pending (s := holdEnded s) hclear hpending]
      have htells : TellsAs (holdEnded s) s := ⟨rfl, rfl⟩
      exact ⟨rfl, (htells.notify none _).link, rfl⟩
    · rw [if_pos hstate, leaveStop_of_free (s := holdEnded s) hclear hpending]

/-! ## Faults (R152, R154) -/

/-- The time base at an instant, or where it stands if that is past. -/
theorem advanceTo_eq (s : State) (e : Nat) : s.advanceTo e =
    { s with now := if s.now < e then e else s.now, drivenDuty := (s.advanceTo e).drivenDuty } := by
  unfold State.advanceTo
  by_cases h : e ≤ s.now
  · rw [if_pos h, if_neg (Nat.not_lt.mpr h)]
  · rw [if_neg h, if_pos (Nat.not_le.mp h)]

/-- The lane of a service that ends in a fault. -/
def laneFaulted (r : LaneRec) : LaneRec := { r with enable := .faulted, disablePending := false }

/-- A fault puts the head in FAULT and its lane out of service, and sends its notice. -/
theorem packFault_eq (s : State) (l : LineId) (fault : PackFault) : s.packFault l fault = { s with
    pack := afterFault s.pack, lanes := (s.modLane l laneFaulted).lanes
    link := (s.notify (some l) (.headFault fault s.pack.step (s.lane l).frontReport.1 (s.lane l).frontReport.2
      s.pack.restarts)).link } := by
  have htells : TellsAs ((s.modPack afterFault).modLane l laneFaulted) s := ⟨rfl, rfl⟩
  show ((s.modPack afterFault).modLane l laneFaulted).notify _ _ = _
  rw [notify_eq, (htells.notify _ _).link]
  rfl

theorem frontReport_cons {x : LaneRec} {r : CoilRecord} {rest : List CoilRecord} (h : x.queue = r :: rest) :
    x.frontReport = (r.number, r.bandsDone) := by
  simp only [LaneRec.frontReport, h]

/-- A step timer that runs out in the state that started it. -/
theorem stepTimeout_of {during : PackState} {fault : PackFault} {e : Nat} {l : LineId} (hstate : s.pack.state = during)
    (htimer : s.pack.stepTimer = some e) (hl : s.pack.attached = some l) :
    s.stepTimeout during fault = (s.advanceTo e).packFault l fault := by
  simp only [State.stepTimeout, if_pos hstate, htimer, hl]

/-- What a step timer that runs out leaves. -/
theorem stepTimeout_spec {during : PackState} {fault : PackFault} {e : Nat} {l : LineId} (hstate : s.pack.state = during)
    (htimer : s.pack.stepTimer = some e) (hl : s.pack.attached = some l) :
    let t := (s.stepTimeout during fault).chooseFrame
    t.pack = afterFault s.pack ∧ t.lane l = laneFaulted (s.lane l) ∧ (∀ x, x ≠ l → t.lane x = s.lane x) ∧
      t.now = (if s.now < e then e else s.now) ∧
      (∀ r rest, (s.lane l).queue = r :: rest → t.link = (({ s with now := t.now } : State).notify (some l)
        (.headFault fault s.pack.step r.number r.bandsDone s.pack.restarts)).chooseFrame.link) ∧
      t = { s with pack := t.pack, lanes := t.lanes, now := t.now, drivenDuty := t.drivenDuty, link := t.link } := by
  intro t
  let u : State := { s with now := if s.now < e then e else s.now, drivenDuty := (s.advanceTo e).drivenDuty }
  have hfault : s.stepTimeout during fault = u.packFault l fault :=
    (stepTimeout_of hstate htimer hl).trans (congrArg (fun v : State => v.packFault l fault) (advanceTo_eq s e))
  have hafter : t = (u.packFault l fault).chooseFrame := congrArg State.chooseFrame hfault
  clear_value t
  have ht := eq_of_chooseFrame hafter
  rw [packFault_eq] at ht
  have hnow : t.now = u.now := by rw [ht]
  refine ⟨by rw [ht], ?_, fun x hx => ?_, hnow, fun r rest hqueue => ?_, ?_⟩
  · rw [ht]
    exact modLane_lane_self s l laneFaulted
  · rw [ht]
    exact modLane_lane_of_ne s _ _ hx
  · have hreport : (u.lane l).frontReport = (r.number, r.bandsDone) := frontReport_cons hqueue
    have htells : TellsAs u { s with now := u.now } := ⟨rfl, rfl⟩
    rw [hnow, hafter]
    refine chooseFrame_link ?_
    rw [packFault_eq, hreport]
    exact (htells.notify _ _).link
  · rw [ht]

/-- A change of the front record of a queue. -/
theorem onFront_cons {x : LaneRec} {r : CoilRecord} {rest : List CoilRecord} (h : x.queue = r :: rest)
    (f : CoilRecord → CoilRecord) : x.onFront f = { x with queue := f r :: rest } := by
  simp only [LaneRec.onFront, h]

/-- A clamp slip counts a restart of the front record. -/
def slipCounted (s : State) (l : LineId) : State :=
  s.modLane l (·.onFront fun r => { r with restarts := min 65535 (r.restarts + 1) })

theorem clampSlip_of {l : LineId} {k : Nat} (hstate : s.pack.state = .banding) (hl : s.pack.attached = some l)
    (hk : s.pack.step = some (.band k)) : s.clampSlip =
      if s.pack.restarts < 3 then (slipCounted s l).startBand k (s.pack.restarts + 1)
      else (slipCounted s l).packFault l .slipExcess := by
  simp only [State.clampSlip, hstate, hl, hk]
  rfl

/-- What a clamp slip leaves. -/
theorem clampSlip_spec {l : LineId} {k : Nat} {r : CoilRecord} {rest : List CoilRecord} (hstate : s.pack.state = .banding)
    (hl : s.pack.attached = some l) (hk : s.pack.step = some (.band k)) (hqueue : (s.lane l).queue = r :: rest) :
    let t := s.clampSlip.chooseFrame
    (t.lane l).queue = { r with restarts := min 65535 (r.restarts + 1) } :: rest ∧ (∀ x, x ≠ l → t.lane x = s.lane x) ∧
      (s.pack.restarts < 3 → t.pack = { s.pack with
        restarts := s.pack.restarts + 1, bandRepeats := false, arrivalStep := none
        stepTimer := some (s.now + s.pack.bandTimeout * 1000000) } ∧ (t.lane l).enable = (s.lane l).enable ∧
        t.link = s.chooseFrame.link) ∧
      (3 ≤ s.pack.restarts → t.pack = afterFault s.pack ∧ (t.lane l).enable = .faulted ∧
        (t.lane l).disablePending = false ∧ t.link = (s.notify (some l)
          (.headFault .slipExcess (some (.band k)) r.number r.bandsDone s.pack.restarts)).chooseFrame.link) ∧
      t = { s with pack := t.pack, lanes := t.lanes, link := t.link } := by
  have hcounted : (slipCounted s l).lane l =
      { s.lane l with queue := { r with restarts := min 65535 (r.restarts + 1) } :: rest } := by
    rw [slipCounted, modLane_lane_self, onFront_cons hqueue]
  have hothers : ∀ x, x ≠ l → (slipCounted s l).lane x = s.lane x := fun x hx => modLane_lane_of_ne s _ _ hx
  have htells : TellsAs (slipCounted s l) s := ⟨rfl, rfl⟩
  have hsame : slipCounted s l = { s with lanes := (slipCounted s l).lanes } := rfl
  intro t
  have hslip : t = s.clampSlip.chooseFrame := rfl
  clear_value t
  rw [clampSlip_of hstate hl hk] at hslip
  by_cases hfew : s.pack.restarts < 3
  · rw [if_pos hfew] at hslip
    have hlink : t.link = s.chooseFrame.link := by rw [hslip]; exact chooseFrame_link htells.link
    have ht := eq_of_chooseFrame hslip
    have hlane : ∀ x, t.lane x = (slipCounted s l).lane x := fun x => by rw [ht]; rfl
    have hpack : t.pack = packBanding s.pack s.now k (s.pack.restarts + 1) := by rw [ht]; rfl
    refine ⟨by rw [hlane, hcounted], fun x hx => by rw [hlane, hothers x hx], fun _ => ⟨?_, ?_, hlink⟩,
      fun h => absurd h (by omega), ?_⟩
    · rw [hpack, packBanding, ← hk, ← hstate]
    · rw [hlane, hcounted]
    · rw [ht, startBand_eq, hsame]
  · rw [if_neg hfew] at hslip
    have ht := eq_of_chooseFrame hslip
    rw [packFault_eq] at ht
    have hlane : ∀ x, t.lane x = ((slipCounted s l).modLane l laneFaulted).lane x := fun x => by rw [ht]; rfl
    have hself : t.lane l = laneFaulted ((slipCounted s l).lane l) := by rw [hlane, modLane_lane_self]
    have hpack : t.pack = afterFault s.pack := by rw [ht]; rfl
    have hreport : ((slipCounted s l).lane l).frontReport = (r.number, r.bandsDone) := by rw [hcounted]; rfl
    refine ⟨by rw [hself, hcounted]; rfl, fun x hx => ?_, fun h => absurd h hfew,
      fun _ => ⟨hpack, by rw [hself]; rfl, by rw [hself]; rfl, ?_⟩, ?_⟩
    · rw [hlane, modLane_lane_of_ne _ _ _ hx, hothers x hx]
    · rw [hslip, ← hk]
      refine chooseFrame_link ?_
      rw [packFault_eq, hreport]
      exact (htells.notify _ _).link
    · rw [ht, hsame]

/-- Settles O53. -/
theorem faultsStopHeadUntilHeadClear : Obligations.FaultsStopHeadUntilHeadClear := by
  intro s l held hheld hl
  refine ⟨fun c during fault e hmem hstate htimer => ?_, fun k r rest hstate hk hqueue => ?_,
    fun u tag htakes hfault => ?_⟩
  · have hexec : exec c s = .next (s.stepTimeout during fault).chooseFrame := by
      simp only [List.mem_cons, List.not_mem_nil, or_false, Prod.mk.injEq] at hmem
      rcases hmem with ⟨rfl, rfl, rfl⟩ | ⟨rfl, rfl, rfl⟩ | ⟨rfl, rfl, rfl⟩ <;> rfl
    exact ⟨_, hexec, stepTimeout_spec hstate htimer hl⟩
  · have hexec : exec (.clampSlip held) s = .next s.clampSlip.chooseFrame := congrArg done (State.ifHeld_of_le hheld s _)
    exact ⟨_, hexec, clampSlip_spec hstate hl hk hqueue⟩
  · have haccept : (u.entered 0x2A tag).headClear = accept (u.entered 0x2A tag).leaveStop [] := if_pos hfault
    refine ⟨(u.entered 0x2A tag).leaveStop, { u.entered 0x2A tag with pack := packFreed u.pack },
      request_accepted htakes haccept, fun hlatch => leaveStop_of_latch (s := u.entered 0x2A tag) hlatch,
      fun hclear hpending => ?_, fun hclear hpending => ⟨leaveStop_of_free (s := u.entered 0x2A tag) hclear hpending, rfl⟩⟩
    rw [leaveStop_of_pending (s := u.entered 0x2A tag) hclear hpending]
    exact ⟨rfl, rfl, rfl⟩

end Sys2Proof.Proofs

/-! Lanes and the grant of the packing head (R144 to R147, R150, R159), and the statements O32, O50 and O51. -/

namespace Sys2Proof.Proofs

open Sys2Proof.Machine Sys2Proof.Safety

variable {s : State} {l : LineId}

/-! ## The states a lane reports (R144) -/

theorem serves_iff (s : State) (l : LineId) :
    s.serves l = true ↔ s.pack.attached = some l ∨ ∃ k, s.pack.abeyance = some (l, k) := by
  simp [State.serves]

theorem readyToRequest_iff (s : State) (l : LineId) : s.readyToRequest l = true ↔
    (s.lane l).enable = .enabled ∧ (s.lane l).queue ≠ [] ∧ (s.lane l).coilReady = true ∧ (s.lane l).rearmed = true ∧
      ¬(s.pack.attached = some l ∨ ∃ k, s.pack.abeyance = some (l, k)) := by
  rw [← serves_iff]
  simp [State.readyToRequest, and_assoc]

theorem requests_iff (s : State) (l : LineId) : s.requests l = true ↔ Requests s l := by
  simp only [State.requests, Bool.and_eq_true, readyToRequest_iff, State.listHasSlot, decide_eq_true_eq, not_or,
    not_exists]
  constructor
  · rintro ⟨⟨henable, hqueue, hready, hrearmed, hattached, habeyance⟩, hslot⟩
    exact ⟨henable, hqueue, hready, hrearmed, hslot, hattached, habeyance⟩
  · rintro ⟨henable, hqueue, hready, hrearmed, hslot, hattached, habeyance⟩
    exact ⟨⟨henable, hqueue, hready, hrearmed, hattached, habeyance⟩, hslot⟩

/-- The model's lane state is the first row of the table that applies. -/
theorem laneReports (s : State) (l : LineId) : LaneReports s l (s.laneState l).code := by
  refine ⟨fun h => by simp only [State.laneState, h]; rfl, fun h => by simp only [State.laneState, h]; rfl,
    fun henabled => ?_⟩
  have hready : s.readyToRequest l = true ↔ ((s.lane l).queue ≠ [] ∧ (s.lane l).coilReady = true ∧
      (s.lane l).rearmed = true) ∧ ¬(s.pack.attached = some l ∨ ∃ k, s.pack.abeyance = some (l, k)) := by
    rw [readyToRequest_iff]
    exact ⟨fun ⟨_, hqueue, hcoil, hrearmed, hserved⟩ => ⟨⟨hqueue, hcoil, hrearmed⟩, hserved⟩,
      fun ⟨⟨hqueue, hcoil, hrearmed⟩, hserved⟩ => ⟨henabled, hqueue, hcoil, hrearmed, hserved⟩⟩
  have hstate : s.laneState l = if s.serves l then .served else if s.requests l then .waiting
      else if s.readyToRequest l then .blockedList else .idle := by
    simp only [State.laneState, henabled]
  have hrequests : s.requests l = true ↔ s.readyToRequest l = true ∧ s.completed.length + s.pack.reserved < 16 := by
    simp only [State.requests, State.listHasSlot, Bool.and_eq_true, decide_eq_true_eq]
  intro served ready
  refine ⟨fun hserved => ?_, fun hserved hr hroom => ?_, fun hserved hr hfull => ?_, fun hserved hr => ?_⟩
  · rw [hstate, if_pos ((serves_iff s l).mpr hserved)]; rfl
  · rw [hstate, if_neg (mt (serves_iff s l).mp hserved), if_pos (hrequests.mpr ⟨hready.mpr ⟨hr, hserved⟩, hroom⟩)]; rfl
  · rw [hstate, if_neg (mt (serves_iff s l).mp hserved), if_neg (fun h => absurd (hrequests.mp h).2 (by omega)),
      if_pos (hready.mpr ⟨hr, hserved⟩)]
    rfl
  · have hnot : ¬s.readyToRequest l = true := fun h => hr (hready.mp h).1
    rw [hstate, if_neg (mt (serves_iff s l).mp hserved), if_neg (fun h => hnot (hrequests.mp h).1), if_neg hnot]
    rfl

/-! ## The grant (R150, R151) -/

/-- A first choice of a list is a lane that requests, and no lane before it does. -/
theorem find_requests_spec {ls : List LineId} (h : ls.find? s.requests = some l) :
    Requests s l ∧ ∃ before after, ls = before ++ l :: after ∧ ∀ x ∈ before, ¬Requests s x := by
  obtain ⟨hl, before, after, hsplit, hbefore⟩ := List.find?_eq_some_iff_append.mp h
  refine ⟨(requests_iff s l).mp hl, before, after, hsplit, fun x hx hr => ?_⟩
  have := hbefore x hx
  rw [(requests_iff s x).mpr hr] at this
  cases this

/-- A grant is not evaluated for a head that is not FREE. -/
theorem evaluateGrant_of_not_free (h : s.pack.state ≠ .free) : s.evaluateGrant = s := if_pos h

/-- HOLD REQ goes before every lane. -/
theorem evaluateGrant_of_hold (hfree : s.pack.state = .free) (hreq : s.pack.holdReq = true) :
    s.evaluateGrant = { s with pack := { s.pack with state := .held, position := none, holdPending := false } } :=
  (if_neg (not_not_intro hfree)).trans (if_pos hreq)

/-- A FREE head is granted to the lane chosen, if there is one. -/
theorem evaluateGrant_of_chosen (hfree : s.pack.state = .free) (hreq : s.pack.holdReq = false)
    (h : s.chooseLane = some l) : s.evaluateGrant = s.grantTo l := by
  simp only [State.evaluateGrant, if_neg (not_not_intro hfree), hreq, Bool.false_eq_true, if_false, h]

theorem evaluateGrant_of_none (hfree : s.pack.state = .free) (hreq : s.pack.holdReq = false)
    (h : s.chooseLane = none) : s.evaluateGrant = s := by
  simp only [State.evaluateGrant, if_neg (not_not_intro hfree), hreq, Bool.false_eq_true, if_false, h]

/-- A lane chosen requests the head. -/
theorem requests_of_chooseLane (h : s.chooseLane = some l) : Requests s l := by
  cases hmode : s.pack.mode with
  | fixed => exact (find_requests_spec (by simpa only [State.chooseLane, hmode] using h)).1
  | rotating => exact (find_requests_spec (by simpa only [State.chooseLane, hmode] using h)).1

/-- A grant is made only to lanes of the order its mode gives. -/
theorem chooseLane_of_requests {x : LineId} (hx : Requests s x) (hmem : s.pack.mode = .rotating → x ∈ s.pack.rotation) :
    ∃ l, s.chooseLane = some l := by
  refine Option.isSome_iff_exists.mp ?_
  cases hmode : s.pack.mode with
  | fixed =>
    simp only [State.chooseLane, hmode, List.find?_isSome]
    exact ⟨x, by cases x <;> decide, (requests_iff s x).mpr hx⟩
  | rotating =>
    simp only [State.chooseLane, hmode, List.find?_isSome]
    exact ⟨x, hmem hmode, (requests_iff s x).mpr hx⟩

/-- The front record of a lane that is granted the head counts an attempt. -/
def attemptCounted (r : CoilRecord) : CoilRecord := { r with attempts := min 255 (r.attempts + 1), bandsDone := 0 }

/-- The head record once a lane is attached, before the head starts or travels. -/
def packAttached (p : PackRec) (l : LineId) : PackRec :=
  { p with
    reserved := 1, attached := some l, bandRepeats := false
    rotation := if p.mode = .rotating then p.rotation.erase l ++ [l] else p.rotation }

theorem grantTo_eq (s : State) (l : LineId) : s.grantTo l = { s with
    lanes := (s.modLane l (·.onFront attemptCounted)).lanes
    pack := if s.pack.position = some l then packBanding (packAttached s.pack l) s.now 1 0
      else { packAttached s.pack l with
        state := .travel, step := some .travel, arrivalStep := some (.band 1)
        stepTimer := some (s.now + ((s.lane l).onFront attemptCounted).travelLimit * 1000000) } } := by
  unfold State.grantTo
  by_cases hat : s.pack.position = some l
  · rw [if_pos hat, if_pos hat]; rfl
  · rw [if_neg hat, if_neg hat]
    have hlane : (s.modLane l (·.onFront attemptCounted)).lane l = (s.lane l).onFront attemptCounted :=
      modLane_lane_self s l _
    rw [← hlane]
    rfl

/-- A grant changes the lanes and the head alone. -/
theorem evaluateGrant_eq (s : State) :
    s.evaluateGrant = { s with lanes := s.evaluateGrant.lanes, pack := s.evaluateGrant.pack } := by
  unfold State.evaluateGrant
  split
  · rfl
  · split
    · rfl
    · split
      · rw [grantTo_eq]
      · rfl

/-- A grant leaves the records of every lane queue but for what its service counts. -/
theorem unserved_attemptCounted (r : CoilRecord) : unserved (attemptCounted r) = unserved r := rfl

theorem unserved_onFront (x : LaneRec) : (x.onFront attemptCounted).queue.map unserved = x.queue.map unserved := by
  cases hqueue : x.queue with
  | nil => simp only [LaneRec.onFront, hqueue]
  | cons r rest => simp only [LaneRec.onFront, hqueue, List.map_cons, unserved_attemptCounted]

theorem evaluateGrant_unserved (s : State) (x : LineId) :
    (s.evaluateGrant.lane x).queue.map unserved = (s.lane x).queue.map unserved := by
  by_cases hfree : s.pack.state = .free
  · cases hreq : s.pack.holdReq with
    | true => rw [evaluateGrant_of_hold hfree hreq]; rfl
    | false =>
      cases hchosen : s.chooseLane with
      | none => rw [evaluateGrant_of_none hfree hreq hchosen]
      | some l =>
        rw [evaluateGrant_of_chosen hfree hreq hchosen, grantTo_eq]
        show ((s.modLane l (·.onFront attemptCounted)).lane x).queue.map unserved = _
        by_cases hx : x = l
        · rw [hx, modLane_lane_self, unserved_onFront]
        · rw [modLane_lane_of_ne _ _ _ hx]
  · rw [evaluateGrant_of_not_free hfree]

/-- Of the four lanes in order, those with a lower code stand before. -/
theorem mem_before_of_code_lt {x : LineId} {before after : List LineId} (hsplit : LineId.all = before ++ l :: after)
    (h : LineId.code x < LineId.code l) : x ∈ before := by
  have hmem : x ∈ before ++ l :: after := hsplit ▸ (by cases x <;> decide)
  have hsorted : (before ++ l :: after).Pairwise fun y z => LineId.code y < LineId.code z := hsplit ▸ (by decide)
  rcases List.mem_append.mp hmem with hx | hx
  · exact hx
  · have hafter := (List.pairwise_cons.mp (List.pairwise_append.mp hsorted).2.1).1
    rcases List.mem_cons.mp hx with rfl | hx
    · exact absurd h (Nat.lt_irrefl _)
    · exact absurd (hafter x hx) (Nat.lt_asymm h)

/-- Settles O51. -/
theorem grantServesFirstRequestingLane : Obligations.GrantServesFirstRequestingLane := by
  intro s t
  refine ⟨evaluateGrant_of_not_free, evaluateGrant_of_hold, fun hfree hreq hnone => ?_, fun hfree hreq hsome => ?_⟩
  · cases hchosen : s.chooseLane with
    | none => exact evaluateGrant_of_none hfree hreq hchosen
    | some l => exact absurd (requests_of_chooseLane hchosen) (hnone l)
  · obtain ⟨x, hx, hmem⟩ := hsome
    obtain ⟨l, hchosen⟩ := chooseLane_of_requests hx hmem
    have hrequests := requests_of_chooseLane hchosen
    obtain ⟨r, rest, hqueue⟩ := List.exists_cons_of_ne_nil hrequests.record
    have ht : t = s.grantTo l := evaluateGrant_of_chosen hfree hreq hchosen
    rw [grantTo_eq] at ht
    clear_value t
    have hlane : t.lane l = { s.lane l with queue := attemptCounted r :: rest } := by
      rw [ht, ← onFront_cons hqueue]
      exact modLane_lane_self s l (·.onFront attemptCounted)
    have hpack : t.pack = if s.pack.position = some l then packBanding (packAttached s.pack l) s.now 1 0
        else { packAttached s.pack l with
          state := .travel, step := some .travel, arrivalStep := some (.band 1)
          stepTimer := some (s.now + ((s.lane l).onFront attemptCounted).travelLimit * 1000000) } := by rw [ht]
    have hcommon : t.pack.rotation = (packAttached s.pack l).rotation ∧ t.pack.reserved = 1 ∧
        t.pack.attached = some l ∧ t.pack.bandRepeats = false ∧ t.pack.position = s.pack.position := by
      rw [hpack]
      split <;> exact ⟨rfl, rfl, rfl, rfl, rfl⟩
    obtain ⟨hrotation, hreserved, hattached, hrepeats, hposition⟩ := hcommon
    refine ⟨l, r, rest, hrequests, hqueue, fun hmode => ⟨fun y hy hry => ?_, ?_⟩, fun hmode => ?_, hlane, fun y hy => ?_,
      hreserved, hattached, hrepeats, fun hat => ?_, fun hat => ?_, hposition, by rw [ht]⟩
    · simp only [State.chooseLane, hmode] at hchosen
      obtain ⟨-, before, after, hsplit, hbefore⟩ := find_requests_spec hchosen
      exact hbefore y (mem_before_of_code_lt hsplit hy) hry
    · rw [hrotation, packAttached, if_neg (by simp [hmode])]
    · simp only [State.chooseLane, hmode] at hchosen
      obtain ⟨-, before, after, hsplit, hbefore⟩ := find_requests_spec hchosen
      refine ⟨before, after, hsplit, hbefore, ?_⟩
      have hnew : l ∉ before := fun hl => hbefore l hl hrequests
      rw [hrotation, packAttached, if_pos hmode, hsplit, List.erase_append_right _ hnew, List.erase_cons_head]
    · rw [ht]
      exact modLane_lane_of_ne s l (·.onFront attemptCounted) hy
    · rw [hpack, if_pos hat]
      exact ⟨rfl, rfl, rfl, rfl⟩
    · rw [if_neg hat, onFront_cons hqueue] at hpack
      have hstate : t.pack.state = .travel := by rw [hpack]
      refine ⟨hstate, by rw [hpack], by rw [hpack]; rfl, by rw [hpack], ?_, by rw [hpack]⟩
      simp [State.laneSelectOut, hstate, hattached]

/-! ## LANE ENABLE, LANE DISABLE and COIL READY (R144, R146, R147) -/

theorem enableLane_of_enabled (h : (s.lane l).enable = .enabled) :
    s.enableLane l = s.modLane l fun r => { r with disablePending := false } := if_pos h

theorem enableLane_of_not_enabled (h : (s.lane l).enable ≠ .enabled) :
    s.enableLane l = (s.modLane l fun r => { r with enable := .enabled }).evaluateGrant := if_neg h

/-- The lane record that LANE DISABLE leaves: a lane in service is disabled at its end, any other at once. -/
def laneDisabled (s : State) (l : LineId) (r : LaneRec) : LaneRec :=
  if s.laneState l = .served then { r with disablePending := true } else { r with enable := .disabled }

/-- A lane reports SERVED exactly when it is ENABLED with its service attached or in abeyance. -/
theorem laneState_eq_served_iff (s : State) (l : LineId) : s.laneState l = .served ↔
    (s.lane l).enable = .enabled ∧ (s.pack.attached = some l ∨ ∃ k, s.pack.abeyance = some (l, k)) := by
  rw [← serves_iff]
  cases henable : (s.lane l).enable with
  | disabled => simp [State.laneState, henable]
  | faulted => simp [State.laneState, henable]
  | enabled =>
    simp only [State.laneState, henable, true_and]
    cases s.serves l with
    | true => simp
    | false =>
      simp only [Bool.false_eq_true, if_false, iff_false]
      split
      · simp
      · split <;> simp

theorem laneState_eq_disabled_iff (s : State) (l : LineId) : s.laneState l = .disabled ↔ (s.lane l).enable = .disabled := by
  cases henable : (s.lane l).enable with
  | disabled => simp [State.laneState, henable]
  | faulted => simp [State.laneState, henable]
  | enabled =>
    simp only [State.laneState, henable]
    split
    · simp
    · split
      · simp
      · split <;> simp

theorem disableLane_lane (s : State) (l : LineId) : (s.disableLane l).lane l = laneDisabled s l (s.lane l) := by
  unfold State.disableLane laneDisabled
  cases hstate : s.laneState l with
  | served => simp
  | disabled =>
    have := (laneState_eq_disabled_iff s l).mp hstate
    simp [← this]
  | faulted | waiting | blockedList | idle => simp

theorem disableLane_eq (s : State) (l : LineId) : s.disableLane l = { s with lanes := (s.disableLane l).lanes } := by
  unfold State.disableLane
  cases s.laneState l <;> rfl

theorem disableLane_of_ne {x : LineId} (hx : x ≠ l) : (s.disableLane l).lane x = s.lane x := by
  unfold State.disableLane
  cases s.laneState l <;> simp [hx]

theorem coilReadyOn_eq (s : State) (l : LineId) : s.coilReadyOn l =
    if (s.lane l).coilReady then s else (s.modLane l fun r => { r with coilReady := true }).evaluateGrant := rfl

/-- Settles O50. -/
theorem laneEventsEnableAndRearm : Obligations.LaneEventsEnableAndRearm := by
  intro s tag l held hheld
  have hon : exec (.coilReadyActive l held) s = .next (s.coilReadyOn l).chooseFrame :=
    congrArg done (State.ifHeld_of_le hheld s _)
  have hoff : exec (.coilReadyInactive l held) s = .next (s.coilReadyOff l).chooseFrame :=
    congrArg done (State.ifHeld_of_le hheld s _)
  refine ⟨fun htakes => ?_, fun htakes => ?_, ?_, ?_⟩
  · have haccept : (s.entered 0x26 tag).laneEnable (LineId.code l) = accept ((s.entered 0x26 tag).enableLane l)
        (((s.entered 0x26 tag).enableLane l).encLaneState l) := by
      simp only [State.laneEnable, withLine_code]
    by_cases henabled : (s.lane l).enable = .enabled
    · refine ⟨_, (s.entered 0x26 tag).modLane l fun r => { r with disablePending := false }, _,
        request_accepted htakes haccept, laneReports _ l, fun _ => ⟨enableLane_of_enabled henabled, ?_⟩,
        fun h => absurd henabled h, fun x hx => ?_, rfl⟩
      · rw [modLane_lane_self]; rfl
      · rw [modLane_lane_of_ne _ _ _ hx]; rfl
    · refine ⟨_, (s.entered 0x26 tag).modLane l fun r => { r with enable := .enabled }, _,
        request_accepted htakes haccept, laneReports _ l, fun h => absurd h henabled,
        fun _ => ⟨enableLane_of_not_enabled henabled, ?_⟩, fun x hx => ?_, rfl⟩
      · rw [modLane_lane_self]; rfl
      · rw [modLane_lane_of_ne _ _ _ hx]; rfl
  · have haccept : (s.entered 0x27 tag).laneDisable (LineId.code l) = accept ((s.entered 0x27 tag).disableLane l)
        (((s.entered 0x27 tag).disableLane l).encLaneState l) := by
      simp only [State.laneDisable, withLine_code]
    have hserved := laneState_eq_served_iff (s.entered 0x27 tag) l
    refine ⟨_, _, request_accepted htakes haccept, laneReports _ l, fun henabled hserves => ?_, fun hnot => ?_,
      fun x hx => disableLane_of_ne hx, disableLane_eq _ l⟩
    · rw [disableLane_lane]
      exact if_pos (hserved.mpr ⟨henabled, hserves⟩)
    · rw [disableLane_lane]
      exact if_neg (mt hserved.mp hnot)
  · refine ⟨s.modLane l fun r => { r with coilReady := true }, rfl, modLane_lane_self s l _,
      fun x hx => modLane_lane_of_ne s l _ hx, ?_⟩
    rw [hon, coilReadyOn_eq]
  · refine ⟨s.coilReadyOff l, ?_, hoff, ?_, fun x hx => ?_⟩
    · unfold State.coilReadyOff
      split <;> rfl
    · unfold State.coilReadyOff
      split
      · exact modLane_lane_self s l _
      · rfl
    · unfold State.coilReadyOff
      split
      · exact modLane_lane_of_ne s l _ hx
      · rfl

/-! ## COIL PEEK and COIL TAKE (R159) -/

/-- Settles O32. -/
theorem coilPeekAndTakeServeOldestRecord : Obligations.CoilPeekAndTakeServeOldestRecord := by
  intro s tag r rest htakes hlist
  constructor
  · have haccept : (s.entered 0x36 tag).coilPeek =
        accept (s.entered 0x36 tag) (encCoilRecord r ++ enc8 (rest.length + 1)) := by
      have hlist' : (s.entered 0x36 tag).completed = r :: rest := hlist
      simp only [State.coilPeek, hlist', List.length_cons]
    exact request_accepted htakes haccept
  · intro hnumber
    let u : State := { s.entered 0x37 tag with completed := rest }
    have haccept : (s.entered 0x37 tag).coilTake (LineId.code r.line) r.number =
        accept u.evaluateGrant (encLine r.line ++ enc32 r.number ++ enc8 rest.length) := by
      have hlist' : (s.entered 0x37 tag).completed = r :: rest := hlist
      simp only [State.coilTake, withLine_code, hnumber, hlist', and_self, if_true, if_false, encCoilId]
      rfl
    have hframe := evaluateGrant_eq u
    refine ⟨u.evaluateGrant, request_accepted htakes haccept, ?_, rfl, fun hbusy => evaluateGrant_of_not_free hbusy,
      hframe, fun l => evaluateGrant_unserved u l⟩
    rw [hframe]

end Sys2Proof.Proofs

/-! The requests on recipe slots: RECIPE STORE, RECIPE FLUSH, RECIPE PURGE, and the statements O47 and O48. -/

namespace Sys2Proof.Proofs

open Sys2Proof.Machine Sys2Proof.Safety

variable {s : State} {f : RecipeArgs}

/-! ## The checks of RECIPE STORE (R58, R59) -/

/-- A slot that no open run uses is not in use. -/
theorem slotInUse_eq_false {n : Slot} (h : SlotFree s n) : s.slotInUse n = false := by
  simp only [State.slotInUse, List.any_eq_false, Bool.and_eq_true, Bool.or_eq_true, beq_iff_eq, not_and, not_or]
  intro l _ hrun
  exact h l (by simpa [State.runOpen] using hrun)

theorem handOfCode_code {x : Option Nat} (h : Within 0 1 x) : ∃ d : Hand, x.bind Hand.ofCode = some d ∧ x = some d.code := by
  obtain ⟨n, rfl, -, hn⟩ := h
  obtain rfl | rfl : n = 0 ∨ n = 1 := by omega
  · exact ⟨.s, rfl, rfl⟩
  · exact ⟨.z, rfl, rfl⟩

theorem boolOfCode_within {x : Option Nat} (h : Within 0 1 x) : ∃ b : Bool, x.bind boolOfCode = some b ∧ x = some b.toNat := by
  obtain ⟨n, rfl, -, hn⟩ := h
  obtain rfl | rfl : n = 0 ∨ n = 1 := by omega
  · exact ⟨false, rfl, rfl⟩
  · exact ⟨true, rfl, rfl⟩

theorem positionChecks_good {limit p : Nat} {a : PositionArgs} (h : PositionInRange limit a) :
    ∀ x ∈ positionChecks p a, x.2 = true := by
  cases hn : a.target with
  | none => simp [positionChecks, hn]
  | some n =>
    obtain ⟨⟨m, hm, hlo, hhi⟩, hhand, x, hx, hlo', hhi', -⟩ := h (by simp [hn])
    obtain rfl : n = m := Option.some.inj (hn.symm.trans hm)
    obtain ⟨d, hd, -⟩ := handOfCode_code hhand
    simp [positionChecks, hn, hd, hx, trimGood, inRange_of hlo hhi, hlo', hhi']

theorem startTrimFits_good {limit : Nat} {a : PositionArgs} (h : PositionInRange limit a) : startTrimFits limit a = true := by
  cases hn : a.target with
  | none => simp [startTrimFits, hn]
  | some n =>
    obtain ⟨-, -, x, hx, -, -, hfit⟩ := h (by simp [hn])
    simp [startTrimFits, hn, hx, hfit]

/-- An entry of a vector, with its index in the list, is one of its elements. -/
theorem exists_get_of_mem_zipIdx {α : Type} {m : Nat} {v : Vector α m} {a : α × Nat} (h : a ∈ v.toList.zipIdx) :
    ∃ p : Fin m, v.get p = a.1 := by
  have hmem := List.fst_mem_of_mem_zipIdx h
  obtain ⟨i, hi, hget⟩ := List.mem_iff_getElem.mp hmem
  exact ⟨⟨i, by simpa using hi⟩, by simpa [Vector.get] using hget⟩

theorem recipeIsNet_iff (f : RecipeArgs) : recipeIsNet f = true ↔ f.kind = 1 := by
  simp [recipeIsNet, ProductKind.code]

theorem nameGood_of {name : List Byte} (hlo : 1 ≤ name.length) (hhi : name.length ≤ 16)
    (hprint : ∀ c ∈ name, 0x20 ≤ c.toNat ∧ c.toNat ≤ 0x7E) : nameGood name = true := by
  simp only [nameGood, inRange_of hlo hhi, Bool.true_and, List.all_eq_true]
  exact fun c hc => inRange_of (hprint c hc).1 (hprint c hc).2

theorem recipeFieldFailure_eq_none (h : RecipeInRange f) : recipeFieldFailure f = none := by
  obtain ⟨⟨hname, hname', hprint⟩, hkind, hpos, hlimit, hgain, hslew, hslew', htol, htol', hwin, hwin', hstall, hstall', hlw,
    hlw', htarget, htarget', hplus, hend, hmark, hband, hband', -, hnet⟩ := h
  refine firstFailure_eq_none.mpr ?_
  simp only [List.forall_mem_append, List.forall_mem_cons]
  refine ⟨⟨⟨⟨⟨nameGood_of hname hname' hprint, ?_, nofun⟩, ?_⟩, inRange_of (Nat.zero_le _) hlimit,
    inRange_of (Nat.zero_le _) hgain, inRange_of hslew hslew', inRange_of htol htol', inRange_of hwin hwin',
    inRange_of hstall hstall', inRange_of hlw hlw', nofun⟩, ?_⟩, inRange_of htarget htarget',
    inRange_of (Nat.zero_le _) hplus, inRange_of (Nat.zero_le _) hend, ?_, inRange_of hband hband', nofun⟩
  · obtain hzero | hone : f.kind = 0 ∨ f.kind = 1 := by omega
    · rw [hzero]; rfl
    · rw [hone]; rfl
  · intro x hx
    obtain ⟨a, ha, hx⟩ := List.mem_flatMap.mp hx
    obtain ⟨p, hp⟩ := exists_get_of_mem_zipIdx ha
    exact positionChecks_good (hp ▸ hpos p) x hx
  · split
    · rename_i hisNet
      obtain ⟨hcols, hopen, hclose, hbreak, hpitch, hmesh, hstop, -⟩ := hnet ((recipeIsNet_iff f).mp hisNet)
      obtain ⟨b, hb, -⟩ := boolOfCode_within hstop
      simp [knotChecks, presentIn_of_within hcols, presentIn_of_within hopen, presentIn_of_within hclose,
        presentIn_of_within hbreak, presentIn_of_within hpitch, presentIn_of_within hmesh, hb]
    · exact nofun
  · rcases hmark with h | ⟨hlo, hhi⟩
    · simp [h]
    · simp [inRange_of hlo hhi]

theorem recipeCrossFailure_eq_none (h : RecipeInRange f) : recipeCrossFailure f = none := by
  obtain ⟨-, hkind, hpos, -, -, -, -, -, -, -, -, -, -, -, -, -, -, -, -, -, -, -, hrope, hnet⟩ := h
  refine firstFailure_eq_none.mpr ?_
  simp only [List.forall_mem_append, List.forall_mem_cons]
  refine ⟨?_, ?_, ?_, nofun⟩
  · intro x hx
    obtain ⟨a, ha, rfl⟩ := List.mem_map.mp hx
    obtain ⟨p, hp⟩ := exists_get_of_mem_zipIdx ha
    exact startTrimFits_good (hp ▸ hpos p)
  · rcases Nat.le_one_iff_eq_zero_or_eq_one.mp hkind with hzero | hone
    · obtain ⟨p, hp⟩ := hrope hzero
      rw [Bool.or_eq_true, List.any_eq_true]
      exact .inr ⟨f.positions.get p, by simp [Vector.get], Option.isSome_iff_ne_none.mpr hp⟩
    · simp [(recipeIsNet_iff f).mpr hone]
  · rcases Nat.le_one_iff_eq_zero_or_eq_one.mp hkind with hzero | hone
    · simp [recipeIsNet, hzero, ProductKind.code]
    · simp [(hnet hone).2.2.2.2.2.2.2]

/-! ## The recipe stored (R58, R60) -/

theorem recipeStored_position (f : RecipeArgs) (p : StrandPos) :
    (recipeStored f).positions.get p = positionStored (f.positions.get p) := by
  show (f.positions.map positionStored)[p.val] = positionStored f.positions[p.val]
  rw [Vector.getElem_map]

theorem positionStored_of_target {limit : Nat} {a : PositionArgs} (h : PositionInRange limit a) (hn : a.target ≠ none) :
    ∃ q, positionStored a = some q ∧ a = ⟨some q.target, some q.hand.code, some q.startTrim⟩ := by
  obtain ⟨⟨n, hn, -⟩, hhand, x, hx, -⟩ := h hn
  obtain ⟨d, hd, hcode⟩ := handOfCode_code hhand
  refine ⟨⟨n, d, x⟩, by simp [positionStored, hn, hd, hx], ?_⟩
  obtain ⟨_, _, _⟩ := a
  simp_all

theorem recipeStored_kind (f : RecipeArgs) : (recipeStored f).kind = if f.kind = 1 then .net else .rope := by
  simp only [recipeStored, recipeIsNet_iff]

theorem recipeStored_knot_of_rope (h : f.kind = 0) : (recipeStored f).knot = none := by
  simp [recipeStored, knotStored, recipeIsNet, h, ProductKind.code]

theorem recipeStored_knot_of_net (hf : RecipeInRange f) (h : f.kind = 1) : ∃ k, (recipeStored f).knot = some k ∧
    f.columnsUsed = some k.columnsUsed ∧ f.gateOpen = some k.gateOpen ∧ f.gateClose = some k.gateClose ∧
    f.breakThreshold = some k.breakThreshold ∧ f.meshPitch = some k.meshPitch ∧
    f.meshTolerance = some k.meshTolerance ∧ f.stopOnBreak = some k.stopOnBreak.toNat := by
  obtain ⟨-, -, -, -, -, -, -, -, -, -, -, -, -, -, -, -, -, -, -, -, -, -, -, hnet⟩ := hf
  obtain ⟨⟨c, hc, -⟩, ⟨o, ho, -⟩, ⟨g, hg, -⟩, ⟨b, hb, -⟩, ⟨p, hp, -⟩, ⟨m, hm, -⟩, hstop, -⟩ := hnet h
  obtain ⟨e, he, hcode⟩ := boolOfCode_within hstop
  refine ⟨⟨c, o, g, b, p, m, e⟩, ?_, hc, ho, hg, hb, hp, hm, hcode⟩
  simp [recipeStored, knotStored, (recipeIsNet_iff f).mpr h, hc, ho, hg, hb, hp, hm, he]

/-! ## The copies of a slot (R66, R73) -/

theorem holdersOf_counts (s : State) (n : Slot) : CountsHeads (s.holdersOf n).length (Holder s n) :=
  ⟨s.holdersOf n, (List.nodup_finRange 16).filter _, fun _ => mem_holdersOf, rfl⟩

theorem mem_dirtyHolders {n : Slot} {h : HeadId} : h ∈ s.dirtyHolders n ↔ DirtyHolder s n h := by
  simp only [State.dirtyHolders, List.mem_filter, mem_holdersOf, beq_iff_eq, DirtyHolder]
  constructor
  · rintro ⟨⟨-, hslot⟩, hdirty⟩; exact ⟨hdirty, hslot⟩
  · rintro ⟨hdirty, hslot⟩; exact ⟨⟨by simp [hdirty], hslot⟩, hdirty⟩

theorem dirtyHolders_counts (s : State) (n : Slot) : CountsHeads (s.dirtyHolders n).length (DirtyHolder s n) :=
  ⟨s.dirtyHolders n, ((List.nodup_finRange 16).filter _).filter _, fun _ => mem_dirtyHolders, rfl⟩

/-- The DIRTY copies write back in ascending head number (R70). -/
theorem dirtyHolders_ascending (s : State) (n : Slot) : (s.dirtyHolders n).Pairwise (· < ·) :=
  ((List.pairwise_lt_finRange 16).filter _).filter _

/-- Invalidating copies changes the copies alone. -/
theorem foldl_invalidate_frame (hs : List HeadId) (s : State) :
    hs.foldl State.invalidate s = { s with copies := (hs.foldl State.invalidate s).copies } :=
  foldl_keeps (Q := fun t => t = { s with copies := t.copies }) (fun t x _ ht => by rw [ht]; rfl) rfl

theorem invalidateSlot_frame (s : State) (n : Slot) : s.invalidateSlot n = { s with copies := (s.invalidateSlot n).copies } :=
  foldl_invalidate_frame _ s

theorem invalidateSlot_copy_holder {n : Slot} {h : HeadId} (hh : Holder s n h) :
    (s.invalidateSlot n).copy h = ⟨none, .invalid, 0⟩ := by
  rw [invalidateSlot_copy]; exact if_pos hh

theorem invalidateSlot_copy_other {n : Slot} {h : HeadId} (hh : ¬Holder s n h) :
    (s.invalidateSlot n).copy h = s.copy h := by
  rw [invalidateSlot_copy]; exact if_neg hh

/-- Settles O47: a recipe in range passes both lists of checks, and is stored field by field. -/
theorem recipeStoreReplacesSlot : Obligations.RecipeStoreReplacesSlot := by
  intro s tag n f htakes hrange hfree
  have huse : (s.entered 0x10 tag).slotInUse n = false := slotInUse_eq_false (s := s.entered 0x10 tag) hfree
  have haccept : (s.entered 0x10 tag).recipeStore (n.val + 1) f =
      .ok (((s.entered 0x10 tag).setRecipe n (some (recipeStored f))).invalidateSlot n,
        enc8 (n.val + 1) ++ encName f.name ++ enc8 ((s.entered 0x10 tag).holdersOf n).length) := by
    simp only [State.recipeStore, withSlot_val, recipeFieldFailure_eq_none hrange, recipeCrossFailure_eq_none hrange, huse,
      Bool.false_eq_true, if_false, accept]
  have hpos := hrange.2.2.1
  have hframe := invalidateSlot_frame ((s.entered 0x10 tag).setRecipe n (some (recipeStored f))) n
  have hheld : ∀ h, Holder s n h →
      (((s.entered 0x10 tag).setRecipe n (some (recipeStored f))).invalidateSlot n).copy h = ⟨none, .invalid, 0⟩ :=
    fun h hh => invalidateSlot_copy_holder (s := (s.entered 0x10 tag).setRecipe n (some (recipeStored f))) hh
  have hother : ∀ h, ¬Holder s n h →
      (((s.entered 0x10 tag).setRecipe n (some (recipeStored f))).invalidateSlot n).copy h = s.copy h :=
    fun h hh => invalidateSlot_copy_other (s := (s.entered 0x10 tag).setRecipe n (some (recipeStored f))) hh
  have hslots : ∀ m, (((s.entered 0x10 tag).setRecipe n (some (recipeStored f))).invalidateSlot n).recipe m =
      if m = n then some (recipeStored f) else s.recipe m := fun m => by
    rw [hframe]; exact setRecipe_recipe _ n _ m
  refine ⟨_, recipeStored f, _, request_accepted htakes haccept, holdersOf_counts _ n, ?_, rfl, recipeStored_kind f,
    fun p => ⟨fun hnone => ?_, fun hsome => ?_⟩, rfl, rfl, rfl, rfl, rfl, rfl, rfl, rfl, rfl, rfl, rfl, rfl,
    recipeStored_knot_of_rope, recipeStored_knot_of_net hrange, hheld, hother, fun m hm => ?_, ?_⟩
  · rw [hslots, if_pos rfl]
  · rw [recipeStored_position]; simp [positionStored, hnone]
  · rw [recipeStored_position]; exact positionStored_of_target (hpos p) hsome
  · rw [hslots, if_neg hm]
  · rw [hframe]; rfl

/-! ## Write-back into one slot (R69, R70) -/

theorem withStartTrim_position (r : Recipe) (p y : StrandPos) (x : Int) : (r.withStartTrim p x).positions.get y =
    if y = p then (r.positions.get y).map (fun q => { q with startTrim := x }) else r.positions.get y := by
  cases hq : r.positions.get p with
  | none =>
    have hsame : r.withStartTrim p x = r := by simp [Recipe.withStartTrim, hq]
    rw [hsame]
    split
    · rename_i hy; rw [hy, hq]; rfl
    · rfl
  | some q =>
    have hset : (r.withStartTrim p x).positions = r.positions.set p.val (some { q with startTrim := x }) p.isLt := by
      simp [Recipe.withStartTrim, hq]
    rw [hset, get_set_vector]
    split
    · rename_i hy; rw [hy, hq]; rfl
    · rfl

theorem withStartTrim_frame (r : Recipe) (p : StrandPos) (x : Int) :
    r.withStartTrim p x = { r with positions := (r.withStartTrim p x).positions } := by
  unfold Recipe.withStartTrim
  split
  · rfl
  · rfl

/-- A recipe with the learned trim of a head written into the head's strand position. -/
def learnedInto (s : State) (r : Recipe) (h : HeadId) : Recipe :=
  ((s.head h).settings.map fun u => r.withStartTrim u.position (s.copy h).learned).getD r

theorem learnedInto_of_settings {r : Recipe} {h : HeadId} {u : HeadSettings} (hu : (s.head h).settings = some u) :
    learnedInto s r h = r.withStartTrim u.position (s.copy h).learned := by
  simp [learnedInto, hu]

theorem learnedInto_of_none {r : Recipe} {h : HeadId} (hu : (s.head h).settings = none) : learnedInto s r h = r := by
  simp [learnedInto, hu]

/-- What a property of recipes that no write-back breaks holds of after several. -/
theorem foldl_learnedInto_keeps {Q : Recipe → Prop} {hs : List HeadId} {r : Recipe}
    (hQ : ∀ q, ∀ h ∈ hs, ∀ u, (s.head h).settings = some u → Q q → Q (q.withStartTrim u.position (s.copy h).learned))
    (hr : Q r) : Q (hs.foldl (learnedInto s) r) := by
  induction hs generalizing r with
  | nil => exact hr
  | cons h hs ih =>
    refine ih (fun q x hx => hQ q x (List.mem_cons_of_mem _ hx)) ?_
    cases hu : (s.head h).settings with
    | none => rwa [learnedInto_of_none hu]
    | some u => rw [learnedInto_of_settings hu]; exact hQ r h List.mem_cons_self u hu hr

theorem foldl_learnedInto_frame (hs : List HeadId) (r : Recipe) :
    hs.foldl (learnedInto s) r = { r with positions := (hs.foldl (learnedInto s) r).positions } :=
  foldl_learnedInto_keeps (Q := fun q => q = { r with positions := q.positions })
    (fun q h _ u _ hq => by rw [withStartTrim_frame, hq]) rfl

/-- A write-back changes no target and no hand. -/
theorem foldl_learnedInto_target (hs : List HeadId) (r : Recipe) (p : StrandPos) :
    ((hs.foldl (learnedInto s) r).positions.get p).map (fun x => (x.target, x.hand)) =
      (r.positions.get p).map fun x => (x.target, x.hand) :=
  foldl_learnedInto_keeps
    (Q := fun q => (q.positions.get p).map (fun x => (x.target, x.hand)) =
      (r.positions.get p).map fun x => (x.target, x.hand))
    (fun q h _ u _ hq => by
      rw [withStartTrim_position]
      split
      · rw [Option.map_map]; exact hq
      · exact hq) rfl

/-- A strand position that no head written back has is as it was. -/
theorem foldl_learnedInto_other {hs : List HeadId} (r : Recipe) {p : StrandPos}
    (hp : ∀ h ∈ hs, ∀ u, (s.head h).settings = some u → u.position ≠ p) :
    (hs.foldl (learnedInto s) r).positions.get p = r.positions.get p :=
  foldl_learnedInto_keeps (Q := fun q => q.positions.get p = r.positions.get p)
    (fun q h hh u hu hq => by rw [withStartTrim_position, if_neg (hp h hh u hu).symm, hq]) rfl

/-- The last head written back at a strand position leaves its learned trim there. -/
theorem foldl_learnedInto_last {hs : List HeadId} {r : Recipe} {h : HeadId} {u : HeadSettings}
    (hsorted : hs.Pairwise (· < ·)) (hh : h ∈ hs) (hu : (s.head h).settings = some u)
    (hspec : (r.specFor u).isSome = true)
    (hlast : ∀ g v, h < g → g ∈ hs → (s.head g).settings = some v → v.position ≠ u.position) :
    ((hs.foldl (learnedInto s) r).specFor u).map (·.startTrim) = some (s.copy h).learned := by
  obtain ⟨before, after, rfl⟩ := List.append_of_mem hh
  have hafter : ∀ g ∈ after, h < g := fun g hg =>
    (List.pairwise_cons.mp (List.pairwise_append.mp hsorted).2.1).1 g hg
  have hsome : ((before.foldl (learnedInto s) r).positions.get u.position).isSome = true := by
    have htarget := foldl_learnedInto_target (s := s) before r u.position
    have hsame := congrArg Option.isSome htarget
    rw [Option.isSome_map, Option.isSome_map] at hsame
    rw [hsame]; exact hspec
  obtain ⟨q, hq⟩ := Option.isSome_iff_exists.mp hsome
  unfold Recipe.specFor
  rw [List.foldl_append, List.foldl_cons, foldl_learnedInto_other _ fun g hg v hv =>
    hlast g v (hafter g hg) (List.mem_append_right _ (List.mem_cons_of_mem _ hg)) hv,
    learnedInto_of_settings hu, withStartTrim_position, if_pos rfl, hq]
  rfl

theorem writeBack_frame (s : State) (x : HeadId) : s.writeBack x = { s with slots := (s.writeBack x).slots } := by
  unfold State.writeBack
  split
  · split
    · rfl
    · rfl
  · rfl

/-- The write-backs of copies of one slot, one after another, are write-backs into its recipe. -/
theorem foldl_writeBack_recipe {n : Slot} {r : Recipe} {hs : List HeadId} (hslot : ∀ h ∈ hs, (s.copy h).slot = some n)
    {t : State} (ht : t = { s with slots := t.slots }) (hr : t.recipe n = some r) :
    (hs.foldl State.writeBack t).recipe n = some (hs.foldl (learnedInto s) r) ∧
      ∀ m, m ≠ n → (hs.foldl State.writeBack t).recipe m = t.recipe m := by
  induction hs generalizing t r with
  | nil => exact ⟨hr, fun _ _ => rfl⟩
  | cons h hs ih =>
    have hcopy : t.copy h = s.copy h := by rw [ht]; rfl
    have hhead : t.head h = s.head h := by rw [ht]; rfl
    have hnext : (t.writeBack h).recipe n = some (learnedInto s r h) ∧
        ∀ m, m ≠ n → (t.writeBack h).recipe m = t.recipe m := by
      simp only [writeBack_recipe, hcopy, hhead, hslot h List.mem_cons_self]
      cases hu : (s.head h).settings with
      | none => exact ⟨by simpa [learnedInto_of_none hu] using hr, fun _ _ => rfl⟩
      | some u => exact ⟨by simp [learnedInto_of_settings hu, hr], fun m hm => by simp [hm]⟩
    obtain ⟨hrecipe, hothers⟩ := ih (fun x hx => hslot x (List.mem_cons_of_mem _ hx))
      (t := t.writeBack h) (by rw [writeBack_frame, ht]) hnext.1
    exact ⟨hrecipe, fun m hm => (hothers m hm).trans (hnext.2 m hm)⟩

theorem foldl_writeBack_frame (hs : List HeadId) (s : State) :
    hs.foldl State.writeBack s = { s with slots := (hs.foldl State.writeBack s).slots } :=
  foldl_keeps (Q := fun t => t = { s with slots := t.slots }) (fun t x _ ht => by rw [writeBack_frame, ht]) rfl

theorem remark_frame (s : State) (x : HeadId) : s.remark x = { s with copies := (s.remark x).copies } := by
  unfold State.remark
  dsimp only
  split
  · rfl
  · rfl

theorem remarkSlot_frame (s : State) (n : Slot) : s.remarkSlot n = { s with copies := (s.remarkSlot n).copies } :=
  foldl_keeps (Q := fun t => t = { s with copies := t.copies }) (fun t x _ ht => by rw [remark_frame, ht]) rfl

/-! ## RECIPE FLUSH and RECIPE PURGE (R71, R72) -/

theorem flushSlot_frame (s : State) (n : Slot) :
    s.flushSlot n = { s with slots := (s.flushSlot n).slots, copies := (s.flushSlot n).copies } := by
  unfold State.flushSlot
  rw [remarkSlot_frame, foldl_writeBack_frame]

theorem purged_frame (s : State) (n : Slot) : (s.flushSlot n).invalidateSlot n =
    { s with slots := ((s.flushSlot n).invalidateSlot n).slots, copies := ((s.flushSlot n).invalidateSlot n).copies } := by
  have hflushed := flushSlot_frame s n
  have hpurged := invalidateSlot_frame (s.flushSlot n) n
  generalize (s.flushSlot n).invalidateSlot n = u at hpurged ⊢
  generalize s.flushSlot n = t at hflushed hpurged
  rw [hpurged, hflushed]

theorem flushSlot_recipe {n : Slot} {r : Recipe} (hr : s.recipe n = some r) :
    (s.flushSlot n).recipe n = some ((s.dirtyHolders n).foldl (learnedInto s) r) ∧
      ∀ m, m ≠ n → (s.flushSlot n).recipe m = s.recipe m := by
  have hsame : ∀ m, (s.flushSlot n).recipe m = ((s.dirtyHolders n).foldl State.writeBack s).recipe m := fun m => by
    unfold State.flushSlot State.recipe
    rw [(remarkSlot_same _ n).1]
  obtain ⟨hrecipe, hothers⟩ := foldl_writeBack_recipe (s := s) (hs := s.dirtyHolders n)
    (fun h hh => (mem_dirtyHolders.mp hh).2) (t := s) rfl hr
  exact ⟨by rw [hsame, hrecipe], fun m hm => by rw [hsame, hothers m hm]⟩

theorem foldl_writeBack_copy (hs : List HeadId) (s : State) (h : HeadId) : (hs.foldl State.writeBack s).copy h = s.copy h := by
  rw [foldl_writeBack_frame]; rfl

theorem flushSlot_copy_holder {n : Slot} {h : HeadId} (hh : Holder s n h) : (s.flushSlot n).copy h =
    ⟨some n, if (s.flushSlot n).startTrim n h = some (s.copy h).learned then .clean else .dirty, (s.copy h).learned⟩ := by
  have hstart : (s.flushSlot n).startTrim n h = ((s.dirtyHolders n).foldl State.writeBack s).startTrim n h :=
    startTrim_congr (remarkSlot_same _ n).1 (remarkSlot_same _ n).2.1 n h
  have hcopy := foldl_writeBack_copy (s.dirtyHolders n) s h
  have hmarked : (s.flushSlot n).copy h = markedCopy ((s.dirtyHolders n).foldl State.writeBack s) h := by
    unfold State.flushSlot
    rw [remarkSlot_copy, hcopy]
    exact if_pos hh
  rw [hstart, hmarked, markedCopy_of_valid (by rw [hcopy]; exact hh.1) (by rw [hcopy]; exact hh.2), hcopy]
  have hn := hh.2
  generalize s.copy h = c at hn
  obtain ⟨m, _, _⟩ := c
  dsimp only at hn
  rw [hn]

theorem flushSlot_copy_other {n : Slot} {h : HeadId} (hh : ¬Holder s n h) : (s.flushSlot n).copy h = s.copy h := by
  unfold State.flushSlot
  rw [remarkSlot_copy, foldl_writeBack_copy]
  exact if_neg hh

/-- A flush keeps who holds a valid copy of the slot. -/
theorem holder_flushSlot (s : State) (n : Slot) (h : HeadId) : Holder (s.flushSlot n) n h ↔ Holder s n h := by
  by_cases hh : Holder s n h
  · refine iff_of_true ?_ hh
    unfold Holder
    rw [flushSlot_copy_holder hh]
    refine ⟨?_, rfl⟩
    dsimp only
    split <;> exact nofun
  · unfold Holder
    rw [flushSlot_copy_other hh]

/-- Settles O48: each write-back is one into the slot's recipe, in ascending head number, so the last at a position stays. -/
theorem flushAndPurgeWriteDirtyCopiesBack : Obligations.FlushAndPurgeWriteDirtyCopiesBack := by
  intro s tag n r htakes hr
  have hflush : (s.entered 0x12 tag).recipeFlush (n.val + 1) = .ok ((s.entered 0x12 tag).flushSlot n,
      enc8 (n.val + 1) ++ enc8 ((s.entered 0x12 tag).dirtyHolders n).length ++
        enc8 (((s.entered 0x12 tag).flushSlot n).dirtyHolders n).length) := by
    have hfull : (s.entered 0x12 tag).recipe n = some r := hr
    simp only [State.recipeFlush, withSlot_val, hfull, accept]
  obtain ⟨hrecipe, hothers⟩ := flushSlot_recipe (s := s.entered 0x12 tag) hr
  refine ⟨_, _, _, _, request_accepted htakes hflush, dirtyHolders_counts _ n, dirtyHolders_counts _ n, hrecipe,
    foldl_learnedInto_frame _ r, foldl_learnedInto_target _ r, fun h u hh hu hspec hlast => ?_, fun p hp => ?_,
    fun h hh => ?_, fun h hh => ?_, hothers, flushSlot_frame _ n, fun hfree => ?_⟩
  · exact foldl_learnedInto_last (s := s.entered 0x12 tag) (dirtyHolders_ascending _ n) (mem_dirtyHolders.mpr hh) hu hspec
      fun g v hg hmem hv => hlast g v hg (mem_dirtyHolders.mp hmem) hv
  · exact foldl_learnedInto_other (s := s.entered 0x12 tag) r fun h hh u hu => hp h u (mem_dirtyHolders.mp hh) hu
  · exact flushSlot_copy_holder (s := s.entered 0x12 tag) hh
  · exact flushSlot_copy_other (s := s.entered 0x12 tag) hh
  · have hpurge : (s.entered 0x13 tag).recipePurge (n.val + 1) = .ok (((s.entered 0x13 tag).flushSlot n).invalidateSlot n,
        enc8 (n.val + 1) ++ enc8 ((s.entered 0x13 tag).dirtyHolders n).length ++
          enc8 ((s.entered 0x13 tag).holdersOf n).length) := by
      have hfull : (s.entered 0x13 tag).recipe n = some r := hr
      have huse : (s.entered 0x13 tag).slotInUse n = false := slotInUse_eq_false (s := s.entered 0x13 tag) hfree
      simp only [State.recipePurge, withSlot_val, hfull, huse, Bool.false_eq_true, if_false, accept]
    refine ⟨_, _, request_accepted htakes hpurge, holdersOf_counts _ n, ?_, fun h hh => ?_, fun h hh => ?_, ?_⟩
    · obtain ⟨hrecipe', hothers'⟩ := flushSlot_recipe (s := s.entered 0x13 tag) hr
      have hsame : ∀ m, ((s.entered 0x13 tag).flushSlot n).recipe m = ((s.entered 0x12 tag).flushSlot n).recipe m := by
        intro m
        by_cases hm : m = n
        · rw [hm, hrecipe', hrecipe]; rfl
        · rw [hothers' m hm, hothers m hm]; rfl
      rw [(invalidateSlot_same _ n).1]
      exact Vector.ext fun i hi => hsame ⟨i, hi⟩
    · exact invalidateSlot_copy_holder ((holder_flushSlot (s.entered 0x13 tag) n h).mpr hh)
    · rw [invalidateSlot_copy_other (mt (holder_flushSlot (s.entered 0x13 tag) n h).mp hh),
        flushSlot_copy_other (s := s.entered 0x13 tag) hh]
      rfl
    · exact purged_frame _ n

end Sys2Proof.Proofs

/-! The reads that change nothing: HEAD STATUS, SPANS READ, SPLICES READ, KNOT STATUS, CUT STATUS, PACK STATUS and RECIPE
READ, and the statement O30. -/

namespace Sys2Proof.Proofs

open Sys2Proof.Machine Sys2Proof.Safety

variable {s : State}

/-! ## The head's state and speed (R76, R81) -/

theorem headState_of_none {h : HeadId} (hu : (s.head h).settings = none) : s.headState h = .unassigned := by
  simp only [State.headState, hu]

theorem headState_of_some {h : HeadId} {u : HeadSettings} (hu : (s.head h).settings = some u) : s.headState h =
    if (s.line u.line).state = .idle then .idle
    else if (s.head h).stall then .stalled
    else if (s.head h).handFault then .handFault
    else if s.atLimit u.line h then .limited
    else .tracking := by
  simp only [State.headState, hu]

theorem atLimit_iff {l : LineId} {r : Recipe} (hr : s.boundRecipe l = some r) (h : HeadId) :
    s.atLimit l h = true ↔ (s.head h).limitCount = r.limitWindows := by
  simp only [State.atLimit, hr, beq_iff_eq]

/-- A channel serves a head when its entry and the head's settings name each other. -/
theorem servesHead_iff {h : HeadId} {u : HeadSettings} (hu : (s.head h).settings = some u) :
    s.servesHead u.channel h = true ↔
      (s.channel u.channel).role = .flyer ∧ (s.channel u.channel).consumer = some (.head h) := by
  simp only [State.servesHead, Bool.and_eq_true, beq_iff_eq]
  refine ⟨fun hserves => hserves.1, fun hnamed => ⟨hnamed, ?_⟩⟩
  simp only [State.servedLine, hnamed.1, hnamed.2, hu, if_true, Option.isSome_some]

theorem flyerSpeed_of_none {h : HeadId} (hu : (s.head h).settings = none) : s.flyerSpeed h = none := by
  simp only [State.flyerSpeed, hu]

theorem flyerSpeed_of_absent {h : HeadId} {u : HeadSettings} (hu : (s.head h).settings = some u)
    (habsent : ¬((s.channel u.channel).role = .flyer ∧ (s.channel u.channel).consumer = some (.head h)) ∨
      (s.channel u.channel).lastPeriod = none) : s.flyerSpeed h = none := by
  simp only [State.flyerSpeed, hu]
  split
  · rename_i hserves
    rw [habsent.resolve_left (not_not_intro ((servesHead_iff hu).mp hserves))]
  · rfl

theorem flyerSpeed_of_period {h : HeadId} {u : HeadSettings} {p : Nat} (hu : (s.head h).settings = some u)
    (hserves : (s.channel u.channel).role = .flyer ∧ (s.channel u.channel).consumer = some (.head h))
    (hp : (s.channel u.channel).lastPeriod = some p) :
    s.flyerSpeed h = some (if 10000000 ≤ p then 0 else 240000000 / (p * u.countsPerTurn)) := by
  simp only [State.flyerSpeed, hu, (servesHead_iff hu).mpr hserves, if_true, hp]
  split
  · rfl
  · rfl

/-! ## The window progress and the stall distance of a head (R82) -/

/-- The advance of a head's open window, its net count, and its stall distance: absent without a line or a window. -/
def windowAdvance (s : State) (h : HeadId) : Option Int :=
  (s.head h).window.bind fun w => (s.headPosition h).map fun p => mmOf ((p : Int) - w.start)
def windowCount (s : State) (h : HeadId) : Option Int := (s.head h).window.bind fun w => (s.headPosition h).map fun _ => w.count
def stallDistance (s : State) (h : HeadId) : Option Int :=
  (s.head h).window.bind fun w => (s.headPosition h).map fun p => mmOf ((p : Int) - w.stallRef)

theorem encWindowProgress_eq (s : State) (h : HeadId) :
    s.encWindowProgress h = encOptI32 (windowAdvance s h) ++ encOptI32 (windowCount s h) := by
  unfold State.encWindowProgress windowAdvance windowCount
  cases (s.head h).window with
  | none => rfl
  | some w => cases s.headPosition h <;> rfl

theorem encStallDistance_eq (s : State) (h : HeadId) : s.encStallDistance h = encOptI32 (stallDistance s h) := by
  unfold State.encStallDistance stallDistance
  cases (s.head h).window with
  | none => rfl
  | some w => cases s.headPosition h <;> rfl

theorem window_absent {h : HeadId} (habsent : (s.head h).window = none ∨ (s.head h).settings = none) :
    windowAdvance s h = none ∧ windowCount s h = none ∧ stallDistance s h = none := by
  rcases habsent with h | h
  · simp [windowAdvance, windowCount, stallDistance, h]
  · simp [windowAdvance, windowCount, stallDistance, State.headPosition, h]

theorem window_present {h : HeadId} {u : HeadSettings} {w : TwistWindow} (hu : (s.head h).settings = some u)
    (hw : (s.head h).window = some w) :
    windowAdvance s h = some ((((s.pos u.line).position : Int) - w.start).tdiv 1000000) ∧ windowCount s h = some w.count ∧
      stallDistance s h = some ((((s.pos u.line).position : Int) - w.stallRef).tdiv 1000000) := by
  simp only [windowAdvance, windowCount, stallDistance, State.headPosition, hu, hw, Option.bind_some, Option.map_some]
  exact ⟨rfl, trivial, rfl⟩

theorem headStatus_eq (s : State) (h : HeadId) : s.headStatus h.val =
    .ok (s, enc8 (s.headState h).code ++ encBool (s.head h).stall ++ encBool (s.head h).handFault ++
      enc8 (s.head h).limitCount ++ encHeadSettings (s.head h).settings ++ encI16 (s.head h).trim ++ enc16 (s.head h).duty ++
      encOptSlot (s.copy h).slot ++ enc8 (s.copy h).state.code ++ encI16 (s.copy h).learned ++
      encOpt32 (s.head h).lastDensity ++ encOptI16 (s.head h).lastDeviation ++ encWindowFlags (s.head h).lastFlags ++
      (encOptI32 (windowAdvance s h) ++ encOptI32 (windowCount s h)) ++ encOptI32 (stallDistance s h) ++
      encOpt32 (s.flyerSpeed h)) := by
  simp only [State.headStatus, withHead_val, accept, encWindowProgress_eq, encStallDistance_eq]

/-! ## The knot supervisor (R97, R112) -/

theorem gateCounts_eq (k : KnotSpec) (n : Nat) : gateCounts k n = gateBounds k n := by
  simp only [gateCounts, gateBounds]
  split
  · rename_i h; rw [if_pos h.symm]
  · rename_i h; rw [if_neg (Ne.symm h)]

theorem gateInForce_of_none {l : LineId} (h : s.knotSpec l = none) : s.gateInForce l = none := by
  simp only [State.gateInForce, State.gateCountsOf, h, Option.map_none]

theorem gateInForce_of_spec {l : LineId} {k : KnotSpec} {n : Nat} (hk : s.knotSpec l = some k)
    (hn : (s.line l).cfg.countsPerRev = some n) :
    s.gateInForce l = some ((s.knot l).gateTaken.getD (gateBounds k n)) := by
  simp only [State.gateInForce, State.gateCountsOf, hk, hn, Option.map_some, gateCounts_eq]

theorem gateLevel_of_none {l : LineId} (h : s.gateInForce l = none) : s.gateLevel l = false := by
  simp only [State.gateLevel, h]

theorem gateLevel_iff {l : LineId} {g : Nat × Nat} (hg : s.gateInForce l = some g) :
    s.gateLevel l = true ↔ GateHigh (s.knot l) g := by
  simp only [State.gateLevel, hg, Bool.and_eq_true, beq_iff_eq, decide_eq_true_eq, GateHigh]

/-- The columns KNOT STATUS reports: none without the knot fields of a bound recipe. -/
def knotColumns (s : State) (l : LineId) (column : Nat) : List Nat :=
  ((s.knotSpec l).map fun k => ((List.range k.columnsUsed).drop (column - 1)).take 16).getD []

theorem knotStatus_eq {l : LineId} {k : ScanLink} {column : Nat} (hlo : 1 ≤ column) (hhi : column ≤ 64)
    (hkind : (s.line l).kind = .net) (hlink : (s.line l).cfg.scanLink = some k) :
    s.knotStatus (LineId.code l) column = .ok (s, enc8 (s.knot l).sync.code ++ enc16 (s.knot l).angle ++
      encOpt16 ((s.gateInForce l).map (·.1)) ++ encOpt16 ((s.gateInForce l).map (·.2)) ++ encBool (s.gateLevel l) ++
      encBool (s.scanLink k).scan.isSome ++ enc32 (s.knot l).rowIndex ++ enc8 (ScanLink.code k) ++
      enc8 (s.scanLink k).chain.code ++
      encList enc16 ((s.scanLink k).parity.toList.take ((s.line l).cfg.boardCount.getD 0)) ++
      encList (fun c => encColumn c ((s.knot l).column c)) (knotColumns s l column) ++ encBool (s.knot l).meshSpan.isSome ++
      encBool (s.knot l).unseenSpan.isSome ++ encScanResult (knotColumns s l column) (s.knot l).lastScan ++
      encOpt32 ((s.knot l).lastRowCoord.map (· / 1000000))) := by
  unfold State.knotStatus
  rw [withLine_code, inRange_of hlo hhi, hkind, hlink]
  cases hspec : s.knotSpec l with
  | none => simp only [knotColumns, hspec, Option.map_none, Option.getD_none]; rfl
  | some k => simp only [knotColumns, hspec, Option.map_some, Option.getD_some]; rfl

/-! ## The cut and its hold reasons (R132, R141) -/

theorem runningFollower_eq_some {l f : LineId} :
    s.runningFollower l = some f ↔ s.follower l = some f ∧ (s.line f).state ≠ .idle := by
  simp only [State.runningFollower, Option.filter_eq_some_iff, State.runOpen, decide_eq_true_eq]

theorem placesOwnCuts_iff (s : State) (l : LineId) :
    s.placesOwnCuts l = true ↔ ∀ x, (s.line l).cfg.leader = some x → (s.line x).state = .idle := by
  simp only [State.placesOwnCuts, State.leaderRunning]
  cases hx : (s.line l).cfg.leader with
  | none => simp
  | some x => simp [State.runOpen]

theorem holdsPresent (s : State) (l : LineId) : HoldsPresent s l (s.holds l) := by
  have hfollower : ∀ (b : LineId → Bool) (P : LineId → Prop), (∀ f, b f = true ↔ P f) →
      (((s.runningFollower l).map b).getD false = true ↔
        ∃ f, s.follower l = some f ∧ (s.line f).state ≠ .idle ∧ P f) := by
    intro b P hb
    cases hf : s.runningFollower l with
    | none =>
      refine iff_of_false (by simp) ?_
      rintro ⟨f, hfollower, hrun, -⟩
      exact nomatch hf.symm.trans (runningFollower_eq_some.mpr ⟨hfollower, hrun⟩)
    | some f =>
      obtain ⟨hfollower, hrun⟩ := runningFollower_eq_some.mp hf
      rw [Option.map_some, Option.getD_some, hb]
      refine ⟨fun hP => ⟨f, hfollower, hrun, hP⟩, ?_⟩
      rintro ⟨x, hx, -, hP⟩
      rwa [Option.some.inj (hfollower.symm.trans hx)]
  have hqueue := hfollower (fun f => decide (3 ≤ (s.lane f).queue.length)) (fun f => 3 ≤ (s.lane f).queue.length)
    fun f => decide_eq_true_iff
  have hpulse := hfollower (fun f => (s.coilRec f).cutterPulse.isSome) (fun f => (s.coilRec f).cutterPulse ≠ none)
    fun f => Option.isSome_iff_ne_none
  refine ⟨Iff.rfl, decide_eq_true_iff, Option.isSome_iff_ne_none, ?_, ?_⟩
  · rw [← hqueue]
    simp only [State.holds]
    cases s.runningFollower l <;> rfl
  · rw [← hpulse]
    simp only [State.holds]
    cases s.runningFollower l <;> rfl

theorem encode_placed (p : Placement) : CutStage.encode (.placed p) =
    enc8 1 ++ enc32 (p.target / 1000000) ++ enc8 (p.shifted.toNat + 2 * p.endSplice.toNat) := by
  simp only [CutStage.encode, bitField, Nat.mul_zero, Nat.add_zero]
  rfl

theorem encode_held (p : Placement) : CutStage.encode (.held p) =
    enc8 2 ++ enc32 (p.target / 1000000) ++ enc8 (p.shifted.toNat + 2 * p.endSplice.toNat) := by
  simp only [CutStage.encode, bitField, Nat.mul_zero, Nat.add_zero]
  rfl

theorem encOpenCoil_of_none {l : LineId} (hc : (s.coilRec l).coil = none) : s.encOpenCoil l =
    encOptSlot none ++ enc32 0xFFFFFFFF ++ enc32 0xFFFFFFFF ++ enc32 0xFFFFFFFF ++ enc32 0xFFFFFFFF ++ enc32 0xFFFFFFFF ++
      enc32 0xFFFFFFFF := by
  simp only [State.encOpenCoil, hc]
  rfl

theorem coilStart_of_some {l : LineId} {c : OpenCoil} (hc : (s.coilRec l).coil = some c) : s.coilStart l = c.start := by
  simp only [State.coilStart, hc]

theorem encOpenCoil_of_some {l : LineId} {c : OpenCoil} {r : Recipe} (hc : (s.coilRec l).coil = some c)
    (hr : s.recipe c.slot = some r) : s.encOpenCoil l =
    encOptSlot (some c.slot) ++ enc32 (c.start / 1000000) ++ enc32 (((s.pos l).position - c.start) / 1000000) ++
      enc32 ((c.start + r.targetLength * 1000000) / 1000000) ++
      enc32 ((c.start + (r.targetLength + r.plusTolerance) * 1000000) / 1000000) ++ enc32 c.marks ++ enc32 c.suppressed := by
  have hrecipe : s.coilRecipe l = some r := by simp only [State.coilRecipe, hc, Option.bind_some, hr]
  simp only [State.encOpenCoil, hc, hrecipe, State.coilLength, State.nominalCut, State.limitCoordinate, coilStart_of_some hc]
  rfl

/-! ## The statement -/

theorem headStatus_reports (tag : Byte) (htakes : s.link.takesRequest = true) (h : HeadId) :
    exec (.headStatus tag h.val) s = .next ((s.entered 0x32 tag).acceptedAs 0x32 tag (enc8 (s.headState h).code ++
      encBool (s.head h).stall ++ encBool (s.head h).handFault ++ enc8 (s.head h).limitCount ++
      encHeadSettings (s.head h).settings ++ encI16 (s.head h).trim ++ enc16 (s.head h).duty ++
      encOptSlot (s.copy h).slot ++ enc8 (s.copy h).state.code ++ encI16 (s.copy h).learned ++
      encOpt32 (s.head h).lastDensity ++ encOptI16 (s.head h).lastDeviation ++ encWindowFlags (s.head h).lastFlags ++
      (encOptI32 (windowAdvance s h) ++ encOptI32 (windowCount s h)) ++ encOptI32 (stallDistance s h) ++
      encOpt32 (s.flyerSpeed h))) :=
  request_accepted htakes (headStatus_eq (s.entered 0x32 tag) h)

/-- Settles O30: each read's acceptance carries the state as it stands, read field by field. -/
theorem readsChangeNothing : Obligations.ReadsChangeNothing := by
  intro s tag htakes
  refine ⟨fun h => ⟨_, _, _, _, _, headStatus_reports tag htakes h, fun hu => ?_, window_absent, fun u hu => ?_⟩,
    fun l first hlo hhi => ?_, fun l => ?_, fun l k column hlo hhi hkind hlink => ?_, fun l => ?_, ?_, fun n r hr => ?_⟩
  · rw [headState_of_none hu, flyerSpeed_of_none hu]
    exact ⟨rfl, rfl⟩
  · have hstate := headState_of_some hu
    refine ⟨fun w hw => window_present hu hw, flyerSpeed_of_absent hu, fun p => flyerSpeed_of_period hu, fun hidle => ?_,
      fun hrun hstall => ?_, fun hrun hstall hhand => ?_, fun x hx hrun hstall hhand => ?_⟩
    · rw [hstate, if_pos hidle]; rfl
    · rw [hstate, if_neg hrun, if_pos hstall]; rfl
    · rw [hstate, if_neg hrun, if_neg (by simp [hstall]), if_pos hhand]; rfl
    · rw [hstate, if_neg hrun, if_neg (by simp [hstall]), if_neg (by simp [hhand])]
      by_cases hlimit : (s.head h).limitCount = x.limitWindows
      · rw [if_pos ((atLimit_iff hx h).mpr hlimit), if_pos hlimit]; rfl
      · rw [if_neg (mt (atLimit_iff hx h).mp hlimit), if_neg hlimit]; rfl
  · refine request_accepted htakes ?_
    simp only [State.spansRead, withLine_code, inRange_of hlo hhi, Bool.true_eq_false, if_false, accept]
    rfl
  · refine request_accepted htakes ?_
    simp only [State.splicesRead, withLine_code, accept, encList, ← List.append_assoc]
    rfl
  · refine ⟨_, _, _, _, request_accepted htakes (knotStatus_eq (s := s.entered 0x39 tag) hlo hhi hkind hlink),
      fun hnone => ?_, fun spec hspec => ?_, fun spec n hspec hn => ?_⟩
    · have hgate := gateInForce_of_none (s := s.entered 0x39 tag) hnone
      rw [gateLevel_of_none hgate, hgate]
      refine ⟨rfl, rfl, rfl, ?_⟩
      rw [knotColumns, show (s.entered 0x39 tag).knotSpec l = none from hnone]; rfl
    · rw [knotColumns, show (s.entered 0x39 tag).knotSpec l = some spec from hspec]; rfl
    · have hgate := gateInForce_of_spec (s := s.entered 0x39 tag) hspec hn
      refine ⟨_, by rw [hgate]; rfl, by rw [hgate]; rfl, fun hnone => ?_, fun x hx => ?_, gateLevel_iff hgate⟩
      · rw [show ((s.entered 0x39 tag).knot l).gateTaken = none from hnone]; rfl
      · rw [show ((s.entered 0x39 tag).knot l).gateTaken = some x from hx]; rfl
  · refine ⟨s.encOpenCoil l, s.holds l, s.placesOwnCuts l, request_accepted htakes ?_, encOpenCoil_of_none,
      fun c r => encOpenCoil_of_some, holdsPresent s l, placesOwnCuts_iff s l⟩
    simp only [State.cutStatus, withLine_code, accept]
    have hcoil : (s.entered 0x3A tag).coilRec l = s.coilRec l := rfl
    cases hstage : (s.coilRec l).stage with
    | none => rw [hcoil, hstage]; rfl
    | placed p => rw [hcoil, hstage, encode_placed]; rfl
    | held p => rw [hcoil, hstage, encode_held]; rfl
  · refine ⟨s.pack.step.bind PackStep.bandNumber, fun l => (s.laneState l).code, request_accepted htakes rfl, fun k => ?_,
      laneReports s⟩
    cases hstep : s.pack.step with
    | none => simp
    | some p => cases p <;> simp [PackStep.bandNumber]
  · refine ⟨s.holdersOf n, request_accepted htakes ?_, (List.pairwise_lt_finRange 16).filter _, fun h => mem_holdersOf⟩
    have hfull : (s.entered 0x11 tag).recipe n = some r := hr
    simp only [State.recipeRead, withSlot_val, hfull, accept]
    rfl

end Sys2Proof.Proofs

/-! LINE RESUME: the conditions of the persistent causes, and the statement O41. -/

namespace Sys2Proof.Proofs

open Sys2Proof.Machine Sys2Proof.Safety

variable {s : State} {l : LineId}

/-! ## The conditions of the causes (R6) -/

theorem mem_headsOf_iff_assigned {h : HeadId} : h ∈ s.headsOf l ↔ AssignedTo s h l := mem_headsOf

theorem mem_channelsOf {ch : ChannelId} : ch ∈ s.channelsOf l ↔ s.servedLine ch = some l := by
  simp [State.channelsOf, allChannels]

theorem columnBroken_iff (s : State) (l : LineId) : s.columnBroken l = true ↔
    ∃ k, s.knotSpec l = some k ∧ ∃ c, c < k.columnsUsed ∧ k.breakThreshold ≤ ((s.knot l).column c).misses := by
  unfold State.columnBroken
  cases s.knotSpec l with
  | none => simp
  | some k => simp

theorem boardFaulty_iff (s : State) (l : LineId) : s.boardFaulty l = true ↔
    ∃ k b n, (s.line l).cfg.scanLink = some k ∧ b < (s.line l).cfg.boardCount.getD 0 ∧
      (s.scanLink k).parity[b]? = some n ∧ 3 ≤ n := by
  unfold State.boardFaulty
  cases (s.line l).cfg.scanLink with
  | none => simp
  | some k =>
    simp only [List.any_eq_true, List.mem_range]
    constructor
    · rintro ⟨b, hb, hhigh⟩
      cases hn : (s.scanLink k).parity[b]? with
      | none => simp [hn] at hhigh
      | some n => exact ⟨k, b, n, rfl, hb, hn, by simpa [hn] using hhigh⟩
    · rintro ⟨j, b, n, hj, hb, hn, hge⟩
      cases hj
      exact ⟨b, hb, by simpa [hn] using hge⟩

theorem trimExhausted_iff (s : State) (l : LineId) : (s.headsOf l).any (s.atLimit l) = true ↔
    ∃ h r, AssignedTo s h l ∧ s.boundRecipe l = some r ∧ (s.head h).limitCount = r.limitWindows := by
  simp only [List.any_eq_true, mem_headsOf_iff_assigned]
  constructor
  · rintro ⟨h, hassigned, hlimit⟩
    cases hr : s.boundRecipe l with
    | none => simp [State.atLimit, hr] at hlimit
    | some r => exact ⟨h, r, hassigned, rfl, (atLimit_iff hr h).mp hlimit⟩
  · rintro ⟨h, r, hassigned, hr, hlimit⟩
    exact ⟨h, hassigned, (atLimit_iff hr h).mpr hlimit⟩

/-- The model's test of a cause is its condition. -/
theorem causePresent_iff (s : State) (l : LineId) (x : StopCause) : s.causePresent l x = true ↔ CausePresent s l x := by
  cases x with
  | guard => exact iff_of_true rfl trivial
  | host => exact iff_of_false nofun id
  | twineBreak => exact columnBroken_iff s l
  | flyerStall => simp only [State.causePresent, CausePresent, List.any_eq_true, mem_headsOf_iff_assigned]
  | trimExhausted => exact trimExhausted_iff s l
  | sensor => simp only [State.causePresent, CausePresent, List.any_eq_true, mem_channelsOf, beq_iff_eq]
  | shaftIndex => simp only [State.causePresent, CausePresent, Bool.and_eq_true, beq_iff_eq]
  | boardFault => simp only [State.causePresent, CausePresent, Bool.and_eq_true, beq_iff_eq, boardFaulty_iff]
  | cutHeld => exact iff_of_true rfl trivial
  | runLimit => simp only [State.causePresent, CausePresent, beq_iff_eq, ceiling]

/-! ## LINE RESUME (R12) -/

theorem causesLeft_has (s : State) (l : LineId) (c : CauseSet) (x : StopCause) :
    (s.causesLeft l c).has x = true ↔ c.has x = true ∧ CausePresent s l x := by
  rw [← causePresent_iff, ← Bool.and_eq_true]
  cases x <;> rfl

theorem lineResume_of_running (hlatch : s.guard.latch = false) (hrunning : (s.line l).state = .running) :
    s.lineResume (LineId.code l) = .ok (s, s.encStop l) := by
  simp only [State.lineResume, withLine_code, hrunning, hlatch, Bool.false_eq_true, if_false, accept]

theorem lineResume_of_stopRequested (hlatch : s.guard.latch = false) (hstopped : (s.line l).state = .stopRequested) :
    s.lineResume (LineId.code l) = .ok (s.resumeLine l, (s.resumeLine l).encStop l) := by
  simp only [State.lineResume, withLine_code, hstopped, hlatch, Bool.false_eq_true, if_false, accept]

theorem resumeLine_line (s : State) (l : LineId) : (s.resumeLine l).line l = { s.line l with
    causes := s.causesLeft l (s.line l).causes
    state := if s.causesLeft l (s.line l).causes = .empty then .running else .stopRequested } :=
  modLine_line_self s l _

theorem resumeLine_other {x : LineId} (hx : x ≠ l) : (s.resumeLine l).line x = s.line x :=
  modLine_line_of_ne s l _ hx

/-- Settles O41: the causes left are those present, cause by cause, and an empty set lets the line run. -/
theorem lineResumeLeavesPresentCauses : Obligations.LineResumeLeavesPresentCauses := by
  intro s tag l htakes hlatch hopen
  cases hstate : (s.line l).state with
  | idle => exact absurd hstate hopen
  | running =>
    exact ⟨s.entered 0x23 tag, request_accepted htakes (lineResume_of_running (s := s.entered 0x23 tag) hlatch hstate),
      fun _ => rfl, nofun, fun _ _ => rfl, rfl⟩
  | stopRequested =>
    have hline := resumeLine_line (s.entered 0x23 tag) l
    refine ⟨(s.entered 0x23 tag).resumeLine l,
      request_accepted htakes (lineResume_of_stopRequested (s := s.entered 0x23 tag) hlatch hstate), nofun,
      fun _ => ⟨fun x => ?_, fun hempty => ?_, fun hleft => ?_, ?_⟩,
      fun x hx => resumeLine_other (s := s.entered 0x23 tag) hx, rfl⟩
    · rw [hline]; exact causesLeft_has (s.entered 0x23 tag) l _ x
    · rw [hline] at hempty ⊢; exact if_pos hempty
    · rw [hline] at hleft ⊢; exact if_neg hleft
    · rw [hline]; rfl

end Sys2Proof.Proofs

/-! What the events that fall on a count leave alone: the channels, the positions, REVERSE_CLAMP, and a stop for RUN_LIMIT. -/

namespace Sys2Proof.Proofs

open Sys2Proof.Machine Sys2Proof.Safety

/-- A line keeps its REVERSE_CLAMP, its run and a stop for RUN_LIMIT. -/
structure LineSteady (r q : LineRec) : Prop where
  clamp : q.reverseClamp = r.reverseClamp
  runs : r.state ≠ .idle → q.state ≠ .idle
  stopped : StoppedFor r .runLimit → StoppedFor q .runLimit

theorem LineSteady.refl (r : LineRec) : LineSteady r r := ⟨rfl, id, id⟩

theorem LineSteady.trans {r q p : LineRec} (a : LineSteady r q) (b : LineSteady q p) : LineSteady r p :=
  ⟨b.clamp.trans a.clamp, b.runs ∘ a.runs, b.stopped ∘ a.stopped⟩

theorem LineSteady.of_same {r q : LineRec} (hclamp : q.reverseClamp = r.reverseClamp) (hstate : q.state = r.state)
    (hcauses : q.causes = r.causes) : LineSteady r q :=
  ⟨hclamp, fun h => by rw [hstate]; exact h, fun h => ⟨by rw [hstate]; exact h.1, by rw [hcauses]; exact h.2⟩⟩

theorem has_add_of_has {c : CauseSet} {x y : StopCause} (h : c.has x = true) : (c.add y).has x = true := by
  cases y <;> cases x <;> simp_all [CauseSet.add, CauseSet.put, CauseSet.has]

theorem LineSteady.afterOffer (r : LineRec) (x : StopCause) : LineSteady r (afterOffer r x) := by
  unfold Safety.afterOffer
  split
  · exact ⟨rfl, fun _ => nofun, fun h => ⟨rfl, has_add_of_has h.2⟩⟩
  · exact ⟨rfl, id, fun h => ⟨h.1, has_add_of_has h.2⟩⟩
  · split
    · exact ⟨rfl, id, fun h => ⟨h.1, has_add_of_has h.2⟩⟩
    · exact .refl r

theorem LineSteady.withoutCutHeld (r : LineRec) : LineSteady r (withoutCutHeld r) := by
  unfold Safety.withoutCutHeld
  split
  · refine ⟨rfl, fun hrun => ?_, fun h => ⟨?_, h.2⟩⟩
    · dsimp only
      split
      · exact nofun
      · exact hrun
    · dsimp only
      rw [if_neg, h.1]
      rintro ⟨-, hempty⟩
      have hhas : (r.causes.drop .cutHeld).has .runLimit = true := h.2
      rw [hempty] at hhas
      exact nomatch hhas
  · exact .refl r

/-- The channels, the positions and what the lines keep are as they were. -/
structure Steady (s t : State) : Prop where
  channels : t.channels = s.channels
  position : ∀ l, (t.pos l).position = (s.pos l).position
  line : ∀ l, LineSteady (s.line l) (t.line l)

namespace Steady

variable {s t u : State}

theorem refl (s : State) : Steady s s := ⟨rfl, fun _ => rfl, fun _ => .refl _⟩

theorem trans (a : Steady s t) (b : Steady t u) : Steady s u :=
  ⟨b.channels.trans a.channels, fun l => (b.position l).trans (a.position l), fun l => (a.line l).trans (b.line l)⟩

/-- An action that leaves the channels, the positions and the lines alone. -/
theorem of_same (hc : t.channels = s.channels) (hp : t.positions = s.positions) (hl : t.lines = s.lines) : Steady s t :=
  ⟨hc, fun l => by simp only [State.pos, hp], fun l => by simp only [State.line, hl]; exact .refl _⟩

theorem modCoil (h : Steady s t) (l : LineId) (f : CoilRec → CoilRec) : Steady s (t.modCoil l f) :=
  h.trans (.of_same rfl rfl rfl)

theorem modHead (h : Steady s t) (x : HeadId) (f : HeadRec → HeadRec) : Steady s (t.modHead x f) :=
  h.trans (.of_same rfl rfl rfl)

theorem modPos (l : LineId) {f : PositionRec → PositionRec} (hf : ∀ r, (f r).position = r.position) :
    Steady s (s.modPos l f) := by
  refine ⟨rfl, fun x => ?_, fun _ => .refl _⟩
  rw [modPos_pos]
  split
  · rename_i hx; rw [hf, hx]
  · rfl

theorem modLine (l : LineId) {f : LineRec → LineRec} (hf : ∀ r, LineSteady r (f r)) : Steady s (s.modLine l f) := by
  refine ⟨rfl, fun _ => rfl, fun x => ?_⟩
  rw [modLine_line]
  split
  · rename_i hx; rw [hx]; exact hf _
  · exact .refl _

theorem notify (s : State) (l : Option LineId) (b : NoticeBody) : Steady s (s.notify l b) :=
  .of_same (by simp) (by simp) (by simp)

theorem submit (s : State) (l : LineId) (k : SpanKind) (c : SpanSource) (x : Submission) : Steady s (s.submit l k c x) :=
  .of_same (by simp) (by simp) (by simp)

theorem offerCause (s : State) (l : LineId) (x : StopCause) : Steady s (s.offerCause l x) := by
  refine ⟨by simp, fun y => by simp [State.pos], fun y => ?_⟩
  by_cases hy : y = l
  · rw [hy, offerCause_line_self]; exact .afterOffer _ _
  · rw [offerCause_line_of_ne _ hy]; exact .refl _

theorem removeCutHeld (s : State) (l : LineId) : Steady s (s.removeCutHeld l) := by
  unfold State.removeCutHeld
  split
  · rename_i hheld
    refine ⟨rfl, fun _ => rfl, fun x => ?_⟩
    rw [modLine_line]
    split
    · rename_i hx
      have hwithout := LineSteady.withoutCutHeld (s.line l)
      unfold Safety.withoutCutHeld at hwithout
      rw [if_pos hheld] at hwithout
      rw [hx]; exact hwithout
    · exact .refl _
  · exact .refl s

theorem modScanLink (k : ScanLink) (f : LinkRec → LinkRec) : Steady s (s.modScanLink k f) := by
  cases k <;> exact .of_same rfl rfl rfl

/-! ## The parts of a cut -/

theorem evictAndLoad (s : State) (target : HeadId → Option Slot) (hs : List HeadId) : Steady s (s.evictAndLoad target hs) := by
  have hback : Steady s (s.writeBackAll (s.evicted target hs)) :=
    foldl_keeps (Q := Steady s) (fun t n _ ht => ht.trans (by
      rw [remarkSlot_frame]; exact .of_same rfl rfl rfl))
      (foldl_keeps (Q := Steady s) (fun t x _ ht => ht.trans (.of_same (by simp) (by simp) (by simp))) (.refl s))
  refine foldl_keeps (Q := Steady s) (fun t x _ ht => ?_) hback
  split
  · exact ht.trans (.of_same (by simp) (by simp) (by simp))
  · exact ht

theorem settleColumns (s : State) (l : LineId) (used : Nat) : Steady s (s.settleColumns l used) := by
  unfold State.settleColumns
  refine trans (t := (List.range 64).foldl _ s) (foldl_keeps (fun t c _ ht => ?_) (.refl s)) (.of_same rfl rfl rfl)
  split
  · split
    · exact ht.trans (.submit _ _ _ _ _)
    · exact ht
  · exact ht

theorem boundTo (s : State) (l : LineId) (n : Slot) : Steady s (boundTo s l n) :=
  foldl_keeps (Q := Steady s) (fun _ x _ ht => ht.modHead x _)
    (Steady.modLine l (f := fun r => { r with bound := some n, pendingRecipe := none }) fun _ => .of_same rfl rfl rfl)

theorem bindPending (s : State) (l : LineId) (n : Nat) (b : Bool) : Steady s (s.bindPending l n b) := by
  rw [bindPending_eq]
  split
  · exact .refl s
  · refine .trans ?_ (.notify _ _ _)
    split
    · exact (Steady.boundTo s l _).trans (.settleColumns _ _ _)
    · exact .boundTo s l _

theorem applyPending (s : State) (ls : List LineId) : Steady s (s.applyPending ls) :=
  foldl_keeps (Q := Steady s) (fun t _ _ ht => ht.trans (.bindPending t _ _ _)) (.evictAndLoad s _ _)

theorem evaluateGrant (s : State) : Steady s s.evaluateGrant :=
  evaluateGrant_keeps (P := Steady s) (fun _ _ h => h.trans (.of_same rfl rfl rfl))
    (fun _ _ _ _ h => h.trans (.of_same rfl rfl rfl)) (.refl s)

theorem closeCoil (s : State) (l : LineId) (why : CutReason) (own : Bool) (p : Option (LineId × Nat)) (m : Bool) :
    Steady s (s.closeCoil l why own p m) := by
  unfold State.closeCoil
  split
  · exact .of_same rfl rfl rfl
  · exact .refl s

theorem cutClosed (s : State) (l : LineId) (why : CutReason) : Steady s (cutClosed s l why) := by
  have hcutters : Steady s ((l :: (s.runningFollower l).toList).foldl State.assertCutter s) :=
    foldl_keeps (Q := Steady s) (fun _ x _ ht => ht.modCoil x _) (.refl s)
  unfold Proofs.cutClosed
  dsimp only
  split
  · exact (hcutters.trans (.closeCoil _ _ _ _ _ _)).trans (.closeCoil _ _ _ _ _ _)
  · exact hcutters.trans (.closeCoil _ _ _ _ _ _)

theorem keepsCutParts (s : State) : KeepsCutParts (Steady s) where
  notify _ _ _ h := h.trans (.notify _ _ _)
  removeCutHeld _ _ h := h.trans (.removeCutHeld _ _)
  pos _ _ _ hf h := h.trans (.modPos _ fun r => (hf r).1)
  coil _ _ _ _ h := h.trans (.of_same rfl rfl rfl)
  openNextCoil _ _ h := h.trans (.of_same rfl rfl rfl)
  evaluateGrant t h := h.trans (.evaluateGrant t)
  applyPending t ls h := h.trans (.applyPending t ls)

theorem performCut (s : State) (l : LineId) {why : CutReason} (hgoes : why ≠ .endOfRun) : Steady s (s.performCut l why) := by
  rw [performCut_eq]
  exact (keepsCutParts s).cutSettled _ _ _ (fun h => absurd h hgoes) (.cutClosed s l why)

/-! ## The tests -/

theorem holdCut (s : State) (l : LineId) (p : Placement) : Steady s (s.holdCut l p) := by
  have hline : Steady s (((s.modCoil l fun k => { k with stage := .held p }).notify (some l)
      (.cutHeld (s.coilRec l).number (mm p.target) (mm (s.pos l).position) (s.holds l))).offerCause l .cutHeld) :=
    (((Steady.refl s).modCoil l _).trans (.notify _ _ _)).trans (.offerCause _ _ _)
  unfold State.holdCut
  dsimp only
  split
  · exact (hline.trans (.offerCause _ _ _)).modCoil _ _
  · exact hline

theorem testDue (s : State) (l : LineId) (p : Placement) : Steady s (s.testDue l p) := by
  unfold State.testDue
  split
  · split
    · exact .holdCut s l p
    · exact .performCut s l nofun
  · exact .refl s

theorem testCut (s : State) (l : LineId) : Steady s (s.testCut l) := by
  unfold State.testCut
  split
  · split
    · split
      · exact ((Steady.refl s).modCoil l _).trans (.testDue _ _ _)
      · exact .refl s
    · exact .refl s
  · exact .testDue s l _
  · exact .refl s

theorem retest (s : State) (l : LineId) : Steady s (s.retest l) := by
  unfold State.retest
  split
  · split
    · exact .refl s
    · split
      · exact .performCut s l nofun
      · exact (keepsCutParts s).releasePair l ((Steady.refl s).modCoil l _)
  · exact .refl s

theorem correctTrim (s : State) (l : LineId) (h : HeadId) (r : Recipe) (d : Int) (b : Bool) :
    Steady s (s.correctTrim l h r d b) := by
  have hset : Steady s (trimSet s h r d b) := by
    unfold trimSet
    dsimp only
    split
    · exact .of_same (by simp) (by simp) (by simp)
    · exact .of_same rfl rfl rfl
  rw [correctTrim_eq]
  split
  · exact hset.trans (.offerCause _ _ _)
  · exact hset

theorem closeJudgedWindow (s : State) (l : LineId) (h : HeadId) (u : HeadSettings) (w : TwistWindow) (r : Recipe)
    (target : Nat) (kind : WindowKind) (n : Nat) : Steady s (s.closeJudgedWindow l h u w r target kind n) := by
  have head : ∀ {t : State} (f : HeadRec → HeadRec), Steady s t → Steady s (t.modHead h f) :=
    fun f ht => ht.modHead h f
  have span : ∀ {t : State} (k : SpanKind) (x : Submission), Steady s t → Steady s (t.submit l k (.head h) x) :=
    fun _ _ ht => ht.trans (.submit _ _ _ _ _)
  have correct : ∀ {t : State} (d : Int) (b : Bool), Steady s t →
      Steady s (if s.guard.latch ∨ r.gain = 0 then t else t.correctTrim l h r d b) := by
    intro t d b ht
    split
    · exact ht
    · exact ht.trans (.correctTrim _ _ _ _ _ _)
  have hfirst : Steady s (if (s.head h).handFault then
      (s.submit l .hand (.head h) (.close (u.coordinate w.start))).modHead h fun x => { x with handFault := false }
      else s) := by
    split
    · exact head _ (span _ _ (.refl s))
    · exact .refl s
  unfold State.closeJudgedWindow
  refine correct _ _ ?_
  split
  · exact span _ _ (head _ hfirst)
  · exact span _ _ (head _ hfirst)

theorem closeHandWindow (s : State) (l : LineId) (h : HeadId) (u : HeadSettings) (w : TwistWindow) :
    Steady s (s.closeHandWindow l h u w) := by
  unfold State.closeHandWindow
  exact (Steady.submit _ _ _ _ _).modHead _ _

theorem testWindow (s : State) (l : LineId) (h : HeadId) : Steady s (s.testWindow l h) := by
  unfold State.testWindow
  split
  · exact .refl s
  · split
    · refine Steady.modHead ?_ _ _
      split
      · split
        · exact .closeHandWindow s l h _ _
        · exact .closeJudgedWindow ..
        · exact .closeJudgedWindow ..
      · exact .refl s
    · exact .refl s

theorem testStall (s : State) (l : LineId) (h : HeadId) : Steady s (s.testStall l h) := by
  unfold State.testStall
  split
  · exact .refl s
  · split
    · exact (((Steady.refl s).modHead h _).trans (.submit _ _ _ _ _)).trans (.offerCause _ _ _)
    · exact .refl s

theorem testSlip (s : State) (l : LineId) : Steady s (s.testSlip l) := by
  unfold State.testSlip
  split
  · split
    · refine trans ?_ (.modPos l fun _ => rfl)
      split
      · exact .submit _ _ _ _ _
      · exact .submit _ _ _ _ _
    · exact .refl s
  · exact .refl s

theorem testMark (s : State) (l : LineId) : Steady s (s.testMark l) := by
  have hnext : ∀ m, Steady s (s.modPos l fun p => { p with markTarget := m }) := fun _ => .modPos l fun _ => rfl
  unfold State.testMark
  split
  · split
    · dsimp only
      split
      · exact (hnext _).modCoil l _
      · exact ((hnext _).modCoil l _).trans (.modPos l fun _ => rfl)
    · exact .refl s
  · exact .refl s

theorem countEvent (l : LineId) (s : State) (e : CountEvent) : Steady s (State.countEvent l s e) := by
  cases e with
  | runLimit => exact .offerCause s l _
  | slip => exact .testSlip s l
  | mark => exact .testMark s l
  | window h => exact .testWindow s l h
  | stall h => exact .testStall s l h
  | cut => exact .testCut s l

theorem countEvents (l : LineId) (es : List CountEvent) (s : State) : Steady s (es.foldl (State.countEvent l) s) :=
  foldl_keeps (Q := Steady s) (fun _ e _ ht => ht.trans (.countEvent l _ e)) (.refl s)

end Steady

end Sys2Proof.Proofs

/-! The Span Recorder: what a submission changes and what it depends on, a submission by the state of its key, the take at a
cut, and the statement O58. -/

namespace Sys2Proof.Proofs

open Sys2Proof.Machine Sys2Proof.Safety

variable {s t : State} {l : LineId} {k : SpanKind} {c : SpanSource}

/-! ## What a submission changes (R116) -/

theorem storeSpan_frame (s : State) (l : LineId) (k : SpanKind) (c : SpanSource) (start : Nat) (stop : Option Nat)
    (worst : Nat) : s.storeSpan l k c start stop worst = { s with
      spanRecs := (s.storeSpan l k c start stop worst).spanRecs, link := (s.storeSpan l k c start stop worst).link } := by
  unfold State.storeSpan
  dsimp only
  split
  · split
    · rw [notify_eq]; rfl
    · rfl
  · rfl

theorem submit_frame (s : State) (l : LineId) (k : SpanKind) (c : SpanSource) (x : Submission) :
    s.submit l k c x = { s with spanRecs := (s.submit l k c x).spanRecs, link := (s.submit l k c x).link } := by
  unfold State.submit
  dsimp only
  split
  · rfl
  split
  · cases x with
    | upgrade =>
      dsimp only
      split
      · rfl
      · rfl
    | _ => rfl
  split
  · cases x <;> rfl
  · cases x with
    | openOrExtend => exact storeSpan_frame ..
    | openSpan => exact storeSpan_frame ..
    | _ => rfl

/-- A submission that opens no entry tells nothing. -/
theorem submit_link_of_not_open {x : Submission} (hx : (∀ a b w, x ≠ .openOrExtend a b w) ∧ ∀ a b w, x ≠ .openSpan a b w) :
    (s.submit l k c x).link = s.link := by
  unfold State.submit
  dsimp only
  split
  · rfl
  split
  · cases x with
    | upgrade =>
      dsimp only
      split
      · rfl
      · rfl
    | _ => rfl
  split
  · cases x <;> rfl
  · cases x with
    | openOrExtend a b w => exact absurd rfl (hx.1 a b w)
    | openSpan a b w => exact absurd rfl (hx.2 a b w)
    | _ => rfl

theorem submit_close_link (s : State) (l : LineId) (k : SpanKind) (c : SpanSource) (stop : Nat) :
    (s.submit l k c (.close stop)).link = s.link := submit_link_of_not_open ⟨nofun, nofun⟩

theorem submit_close_frame (s : State) (l : LineId) (k : SpanKind) (c : SpanSource) (stop : Nat) :
    s.submit l k c (.close stop) = { s with spanRecs := (s.submit l k c (.close stop)).spanRecs } := by
  conv => lhs; rw [submit_frame, submit_close_link]

/-! ## What a submission depends on -/

/-- Two states stand alike for the submissions of a line: they tell alike, and the line's run, open coil, position and list
are the same. -/
structure SpansAs (s t : State) (l : LineId) : Prop where
  tells : TellsAs s t
  runOpen : s.runOpen l = t.runOpen l
  start : s.coilStart l = t.coilStart l
  position : (s.pos l).position = (t.pos l).position
  spanRecs : s.spanRecs = t.spanRecs

namespace SpansAs

theorem spanRec (h : SpansAs s t l) : s.spanRec l = t.spanRec l := by simp only [State.spanRec, h.spanRecs]

theorem modSpanRec (h : SpansAs s t l) (f : SpanRec → SpanRec) : SpansAs (s.modSpanRec l f) (t.modSpanRec l f) l := by
  refine ⟨⟨h.tells.link, h.tells.stamp⟩, h.runOpen, h.start, h.position, ?_⟩
  show s.spanRecs.set l (f (s.spanRec l)) = t.spanRecs.set l (f (t.spanRec l))
  rw [h.spanRec, h.spanRecs]

theorem notify (h : SpansAs s t l) (x : Option LineId) (b : NoticeBody) : SpansAs (s.notify x b) (t.notify x b) l where
  tells := h.tells.notify x b
  runOpen := by rw [notify_eq s, notify_eq t]; exact h.runOpen
  start := by rw [notify_eq s, notify_eq t]; exact h.start
  position := by rw [notify_eq s, notify_eq t]; exact h.position
  spanRecs := by rw [notify_eq s, notify_eq t]; exact h.spanRecs

theorem storeSpan (h : SpansAs s t l) (k : SpanKind) (c : SpanSource) (start : Nat) (stop : Option Nat) (worst : Nat) :
    SpansAs (s.storeSpan l k c start stop worst) (t.storeSpan l k c start stop worst) l := by
  simp only [State.storeSpan, h.spanRec, h.start, h.position]
  split
  · split
    · exact (h.modSpanRec _).notify _ _
    · exact h.modSpanRec _
  · exact h.modSpanRec _

theorem submit (h : SpansAs s t l) (k : SpanKind) (c : SpanSource) (x : Submission) :
    SpansAs (s.submit l k c x) (t.submit l k c x) l := by
  simp only [State.submit, h.spanRec, h.runOpen]
  split
  · exact h
  split
  · cases x with
    | upgrade =>
      dsimp only
      split
      · exact h.modSpanRec _
      · exact h
    | _ => exact h.modSpanRec _
  split
  · cases x with
    | close => exact h.modSpanRec _
    | _ => exact h
  · cases x with
    | openOrExtend => exact h.storeSpan _ _ _ _ _
    | openSpan => exact h.storeSpan _ _ _ _ _
    | _ => exact h

/-- Two states that differ in blocks a submission does not read. -/
theorem of_same (hlink : s.link = t.link) (hstamp : s.stamp = t.stamp) (hlines : s.lines = t.lines) (hcoils : s.coils = t.coils)
    (hpos : s.positions = t.positions) (hspans : s.spanRecs = t.spanRecs) : SpansAs s t l where
  tells := ⟨hlink, hstamp⟩
  runOpen := by unfold State.runOpen State.line; rw [hlines]
  start := by simp only [State.coilStart, State.coilRec, hcoils]
  position := by simp only [State.pos, hpos]
  spanRecs := hspans

end SpansAs

/-! ## A submission by the state of its key (R116 to R119) -/

theorem base_eq (k : SpanKind) : k.base = if k = .break then .knot else k := by cases k <;> rfl

theorem submit_of_held (hrun : s.runOpen l = true) (hheld : (s.spanRec l).spans.any (·.holds ⟨k.base, c⟩) = true) :
    (∀ a b w, s.submit l k c (.openOrExtend a b w) = s.modSpanRec l (·.onOpen ⟨k.base, c⟩ (·.extended (some b) w))) ∧
    (∀ a b w, s.submit l k c (.openSpan a b w) = s.modSpanRec l (·.onOpen ⟨k.base, c⟩ (·.extended b w))) ∧
    (∀ b w, s.submit l k c (.extend b w) = s.modSpanRec l (·.onOpen ⟨k.base, c⟩ (·.extended (some b) w))) ∧
    (s.submit l k c .upgrade = if (s.spanRec l).spans.any (fun e => e.holds ⟨k.base, c⟩ && e.kind == .knot) then
      s.modSpanRec l (·.onOpen ⟨k.base, c⟩ SpanEntry.upgraded) else s) ∧
    ∀ b, s.submit l k c (.close b) = s.modSpanRec l (·.onOpen ⟨k.base, c⟩ (·.closed b)) := by
  simp only [State.submit, hrun, hheld, Bool.true_eq_false, if_false, if_true, implies_true, and_self]

theorem submit_of_lost (hrun : s.runOpen l = true) (hheld : (s.spanRec l).spans.any (·.holds ⟨k.base, c⟩) = false)
    (hlost : ⟨k.base, c⟩ ∈ (s.spanRec l).lostKeys) :
    (∀ x, (∀ b, x ≠ .close b) → s.submit l k c x = s) ∧
    ∀ b, s.submit l k c (.close b) =
      s.modSpanRec l fun r => { r with lostKeys := r.lostKeys.filter fun y => decide (y ≠ ⟨k.base, c⟩) } := by
  have hcontains : (s.spanRec l).lostKeys.contains ⟨k.base, c⟩ = true := List.contains_iff_mem.mpr hlost
  simp only [State.submit, hrun, hheld, hcontains, Bool.true_eq_false, Bool.false_eq_true, if_false,
    if_true]
  refine ⟨fun x hx => ?_, fun b => ?_⟩
  · cases x with
    | close b => exact absurd rfl (hx b)
    | _ => rfl
  · congr
    funext r
    congr
    funext y
    rw [decide_not]
    rfl

theorem submit_of_free (hrun : s.runOpen l = true) (hheld : (s.spanRec l).spans.any (·.holds ⟨k.base, c⟩) = false)
    (hfree : ⟨k.base, c⟩ ∉ (s.spanRec l).lostKeys) :
    (∀ a b w, s.submit l k c (.openOrExtend a b w) = s.storeSpan l k c a (some b) w) ∧
    (∀ a b w, s.submit l k c (.openSpan a b w) = s.storeSpan l k c a b w) ∧
    (∀ b w, s.submit l k c (.extend b w) = s) ∧ s.submit l k c .upgrade = s ∧ ∀ b, s.submit l k c (.close b) = s := by
  have hcontains : (s.spanRec l).lostKeys.contains ⟨k.base, c⟩ = false := by
    rw [Bool.eq_false_iff]; exact mt List.contains_iff_mem.mp hfree
  simp only [State.submit, hrun, hheld, hcontains, Bool.true_eq_false, Bool.false_eq_true, if_false,
    implies_true, and_self]

theorem storeSpan_of_room {a : Nat} {b : Option Nat} {w : Nat} (hroom : (s.spanRec l).spans.length < 48) :
    s.storeSpan l k c a b w = s.modSpanRec l fun r => SpanRec.bump { r with
      spans := insertEntry ⟨k, c, max a (s.coilStart l), b.map (max · (max a (s.coilStart l))), true, w,
        decide (a < s.coilStart l), r.arrival⟩ r.spans
      arrival := r.arrival + 1 } := by
  simp only [State.storeSpan, if_neg (Nat.not_le.mpr hroom)]

/-- A span counted as lost, with its key. -/
def spanLost (s : State) (l : LineId) (k : SpanKind) (c : SpanSource) : State :=
  s.modSpanRec l fun r => { r with lostSpans := min 65535 (r.lostSpans + 1), lostKeys := r.lostKeys ++ [⟨k.base, c⟩] }

theorem storeSpan_of_full {a : Nat} {b : Option Nat} {w : Nat} (hfull : 48 ≤ (s.spanRec l).spans.length) :
    s.storeSpan l k c a b w = if (s.spanRec l).lostSpans = 0 then (spanLost s l k c).notify (some l)
      (.spanOverflow k c (max a (s.coilStart l) / 1000000) ((s.pos l).position / 1000000)) else spanLost s l k c := by
  simp only [State.storeSpan, if_pos hfull]
  rfl

/-- The place of a new entry is after the entries that come before it. -/
theorem insertEntry_eq (n : SpanEntry) (es : List SpanEntry) :
    insertEntry n es =
      es.takeWhile (fun e => decide (e.start < n.start ∨ (e.start = n.start ∧ e.arrival ≤ n.arrival))) ++
        n :: es.dropWhile (fun e => decide (e.start < n.start ∨ (e.start = n.start ∧ e.arrival ≤ n.arrival))) := by
  induction es with
  | nil => rfl
  | cons e es ih =>
    by_cases hbefore : e.start < n.start ∨ (e.start = n.start ∧ e.arrival ≤ n.arrival)
    · simp only [insertEntry, if_pos hbefore, List.takeWhile_cons, List.dropWhile_cons, decide_eq_true hbefore, if_true, ih]
      rfl
    · simp only [insertEntry, if_neg hbefore, List.takeWhile_cons, List.dropWhile_cons, decide_eq_false hbefore,
        Bool.false_eq_true, if_false, List.nil_append]

theorem insertEntry_perm (n : SpanEntry) (es : List SpanEntry) : (insertEntry n es).Perm (n :: es) := by
  rw [insertEntry_eq]
  refine List.perm_middle.trans ?_
  rw [List.takeWhile_append_dropWhile]

theorem orderEntries_perm (es : List SpanEntry) : (orderEntries es).Perm es := by
  induction es with
  | nil => exact .refl _
  | cons e es ih => exact (insertEntry_perm e _).trans (ih.cons e)

/-! ## The take at a cut (R121, R122) -/

theorem copyAt_eq (cut : Nat) (e : SpanEntry) : e.copyAt cut = copiedAt cut e := by
  unfold SpanEntry.copyAt copiedAt closedBelow
  by_cases hstart : cut ≤ e.start
  · rw [if_pos hstart, if_pos hstart]
  · rw [if_neg hstart, if_neg hstart]
    cases hopen : e.isOpen with
    | true => simp [mm, nmPerMm]
    | false =>
      cases hstop : e.stop with
      | none => simp [mm, nmPerMm]
      | some x =>
        by_cases hx : x ≤ cut
        · simp [hx, mm, nmPerMm]
        · simp [hx, mm, nmPerMm]

theorem restAt_eq (cut : Nat) (e : SpanEntry) : e.restAt cut = staysAt cut e := by
  unfold SpanEntry.restAt staysAt closedBelow
  by_cases hstart : cut ≤ e.start
  · rw [if_pos hstart, if_pos hstart]
  · rw [if_neg hstart, if_neg hstart]
    cases hopen : e.isOpen with
    | true => simp
    | false =>
      cases hstop : e.stop with
      | none => simp
      | some x =>
        by_cases hx : x ≤ cut
        · simp [hx]
        · simp [hx]

theorem copyAt_isSome (cut : Nat) (e : SpanEntry) : (e.copyAt cut).isSome = decide (e.start < cut) := by
  rw [copyAt_eq, copiedAt]
  by_cases hstart : cut ≤ e.start
  · rw [if_pos hstart, decide_eq_false (Nat.not_lt.mpr hstart)]; rfl
  · rw [if_neg hstart, decide_eq_true (Nat.not_le.mp hstart)]
    split <;> rfl

/-- No copy ends beyond the cut. -/
theorem copyAt_stop_le {cut : Nat} {e : SpanEntry} {x : SpanCopy} (h : e.copyAt cut = some x) : x.stop ≤ cut / 1000000 := by
  unfold SpanEntry.copyAt at h
  split at h
  · exact nomatch h
  · split at h
    · split at h
      · rename_i hx
        cases h
        exact Nat.div_le_div_right hx
      · cases h; exact Nat.le_refl _
    · cases h; exact Nat.le_refl _

theorem restAt_start {cut : Nat} {e r : SpanEntry} (h : e.restAt cut = some r) : cut ≤ r.start := by
  unfold SpanEntry.restAt at h
  split at h
  · rename_i hstart; cases h; exact hstart
  · split at h
    · split at h
      · exact nomatch h
      · cases h; exact Nat.le_refl _
    · cases h; exact Nat.le_refl _

theorem filterMap_restAt (cut : Nat) (es : List SpanEntry) : es.filterMap (·.restAt cut) = es.filterMap (staysAt cut) := by
  simp only [restAt_eq]

theorem take_spans (r : SpanRec) (cut : Nat) : (r.take cut).spans = (r.spans.filterMap (copiedAt cut)).take 12 := by
  simp only [SpanRec.take, copyAt_eq]

theorem take_lostSpans (r : SpanRec) (cut : Nat) : (r.take cut).lostSpans =
    min 65535 ((r.spans.countP fun e => decide (e.start < cut)) - 12 + r.lostSpans) := by
  have hlength : (r.spans.filterMap (·.copyAt cut)).length = r.spans.countP fun e => decide (e.start < cut) := by
    rw [List.length_filterMap_eq_countP]
    simp only [copyAt_isSome]
  simp only [SpanRec.take, hlength]

theorem take_splices (r : SpanRec) (cut : Nat) :
    (r.take cut).splices = ((r.splices.filter (· < cut)).take 8).map (· / 1000000) := rfl

theorem take_lostSplices (r : SpanRec) (cut : Nat) : (r.take cut).lostSplices =
    min 65535 ((r.splices.countP fun x => decide (x < cut)) - 8 + r.lostSplices) := by
  simp only [SpanRec.take, List.countP_eq_length_filter]

theorem afterTake_takenAt (r : SpanRec) (cut : Nat) : TakenAt (r.afterTake cut) cut := by
  refine ⟨fun e he => ?_, fun x hx => ?_, rfl, rfl⟩
  · obtain ⟨e', -, hrest⟩ := List.mem_filterMap.mp (mem_orderEntries.mp he)
    exact restAt_start hrest
  · exact of_decide_eq_true (List.mem_filter.mp hx).2

/-! ## The statement -/

/-- A submission that finds its key, or room, leaves the notices alone. -/
theorem submit_link_of_room (x : Submission) (h : (s.spanRec l).spans.any (·.holds ⟨k.base, c⟩) = true ∨
    ⟨k.base, c⟩ ∈ (s.spanRec l).lostKeys ∨ (s.spanRec l).spans.length < 48) : (s.submit l k c x).link = s.link := by
  cases hrun : s.runOpen l with
  | false => rw [submit_idle s hrun]
  | true =>
    cases hheld : (s.spanRec l).spans.any (·.holds ⟨k.base, c⟩) with
    | true =>
      obtain ⟨hopen, hbegin, hextend, hupgrade, hclose⟩ := submit_of_held hrun hheld
      cases x with
      | openOrExtend => rw [hopen]; rfl
      | openSpan => rw [hbegin]; rfl
      | extend => rw [hextend]; rfl
      | upgrade =>
        rw [hupgrade]
        split
        · rfl
        · rfl
      | close => rw [hclose]; rfl
    | false =>
      by_cases hlost : ⟨k.base, c⟩ ∈ (s.spanRec l).lostKeys
      · obtain ⟨hkeep, hclose⟩ := submit_of_lost hrun hheld hlost
        cases x with
        | close => rw [hclose]; rfl
        | _ => exact congrArg State.link (hkeep _ nofun)
      · have hroom : (s.spanRec l).spans.length < 48 := (h.resolve_left (by simp [hheld])).resolve_left hlost
        obtain ⟨hopen, hbegin, hextend, hupgrade, hclose⟩ := submit_of_free hrun hheld hlost
        cases x with
        | openOrExtend => rw [hopen, storeSpan_of_room hroom]; rfl
        | openSpan => rw [hbegin, storeSpan_of_room hroom]; rfl
        | extend => rw [hextend]
        | upgrade => rw [hupgrade]
        | close => rw [hclose]

/-- The test of an upgrade: the key's open entry is a KNOT. -/
theorem any_knot_iff {es : List SpanEntry} {key : SpanKey} : es.any (fun e => e.holds key && e.kind == .knot) = true ↔
    ∃ e ∈ es, e.holds key = true ∧ e.kind = .knot := by
  simp only [List.any_eq_true, Bool.and_eq_true, beq_iff_eq]

theorem spanLost_spanRec (s : State) (l : LineId) (k : SpanKind) (c : SpanSource) : (spanLost s l k c).spanRec l =
    { s.spanRec l with
      lostSpans := min 65535 ((s.spanRec l).lostSpans + 1), lostKeys := (s.spanRec l).lostKeys ++ [⟨k.base, c⟩] } :=
  modSpanRec_spanRec_self s l _

theorem storeSpan_spanRec_of_full {a : Nat} {b : Option Nat} {w : Nat} (hfull : 48 ≤ (s.spanRec l).spans.length) :
    (s.storeSpan l k c a b w).spanRec l = (spanLost s l k c).spanRec l := by
  rw [storeSpan_of_full hfull]
  split
  · simp
  · rfl

/-- An opening of a span that finds the list full tells the first loss (R119, R125). -/
theorem storeSpan_told {a : Nat} {b : Option Nat} {w : Nat} (hfull : 48 ≤ (s.spanRec l).spans.length) :
    ((s.spanRec l).lostSpans ≠ 0 → (s.storeSpan l k c a b w).link = s.link) ∧
    ((s.spanRec l).lostSpans = 0 → ∃ u : State, u = { s with spanRecs := u.spanRecs } ∧
      s.storeSpan l k c a b w = u.notify (some l)
        (.spanOverflow k c (max a (s.coilStart l) / 1000000) ((s.pos l).position / 1000000))) := by
  rw [storeSpan_of_full hfull]
  exact ⟨fun hsome => by rw [if_neg hsome]; rfl, fun hnone => ⟨spanLost s l k c, rfl, by rw [if_pos hnone]⟩⟩

theorem submit_openSpan_some (s : State) (l : LineId) (k : SpanKind) (c : SpanSource) (a b w : Nat) :
    s.submit l k c (.openSpan a (some b) w) = s.submit l k c (.openOrExtend a b w) := by
  unfold State.submit
  rfl

/-- Settles O58: a submission by the state of its key (open, lost, free with room, free with a full list), and the take. -/
theorem spanSubmissionsAndTakeKeepList : Obligations.SpanSubmissionsAndTakeKeepList := by
  intro s l kind source start stop worst
  dsimp only
  rw [← base_eq kind]
  refine ⟨fun hidle x => submit_idle s hidle _ _ x, fun hrun hheld => ?_, fun hrun hheld hlost => ?_,
    fun hrun hheld hfree => ?_, submit_openSpan_some .., fun x => ⟨submit_frame .., fun y hy => submit_spanRec_of_ne s hy _ _ x,
      submit_link_of_room x⟩, fun cut => ?_⟩
  · obtain ⟨hopen, hbegin, hextend, hupgrade, hclose⟩ := submit_of_held hrun hheld
    rw [hopen, hclose, hbegin, hextend, hupgrade]
    simp only [modSpanRec_spanRec_self]
    refine ⟨rfl, rfl, rfl, trivial, fun e he hkey hknot => ?_, fun hnone => ?_⟩
    · rw [if_pos (any_knot_iff.mpr ⟨e, he, hkey, hknot⟩), modSpanRec_spanRec_self]; rfl
    · rw [if_neg]
      rintro hany
      obtain ⟨e, he, hkey, hknot⟩ := any_knot_iff.mp hany
      exact hnone e he hkey hknot
  · obtain ⟨hkeep, hclose⟩ := submit_of_lost hrun hheld hlost
    have hsame : ∀ x, (∀ b, x ≠ Submission.close b) → (s.submit l kind source x).spanRec l = s.spanRec l :=
      fun x hx => by rw [hkeep x hx]
    refine ⟨hsame _ nofun, hsame _ nofun, hsame _ nofun, hsame _ nofun, ?_⟩
    rw [hclose, modSpanRec_spanRec_self]
  · obtain ⟨hopen, hbegin, hextend, hupgrade, hclose⟩ := submit_of_free hrun hheld hfree
    rw [hopen, hbegin, hextend, hupgrade, hclose]
    refine ⟨rfl, rfl, rfl, fun hroom => ?_, fun hfull => ⟨?_, ?_, fun x hx => ?_⟩⟩
    · rw [storeSpan_of_room hroom, storeSpan_of_room hroom, modSpanRec_spanRec_self, modSpanRec_spanRec_self,
        insertEntry_eq, insertEntry_eq]
      exact ⟨rfl, rfl⟩
    · rw [storeSpan_spanRec_of_full hfull, spanLost_spanRec]
    · rw [storeSpan_spanRec_of_full hfull, storeSpan_spanRec_of_full hfull]
    · simp only [List.mem_cons, List.not_mem_nil, or_false] at hx
      rcases hx with rfl | rfl | rfl
      · rw [hopen]; exact storeSpan_told hfull
      · rw [hbegin]; exact storeSpan_told hfull
      · rw [hbegin]; exact storeSpan_told hfull
  · refine ⟨afterTake_takenAt _ cut, spansInOrder_orderEntries _, ?_, rfl, take_spans _ cut, take_lostSpans _ cut,
      take_splices _ cut, take_lostSplices _ cut, fun x hx => ?_⟩
    · rw [← filterMap_restAt]; exact orderEntries_perm _
    · obtain ⟨e, -, he⟩ := List.mem_filterMap.mp (List.mem_of_mem_take hx)
      exact copyAt_stop_le he

end Sys2Proof.Proofs

/-! Events on a channel: the input filter, counts in quadrature and their consumers, level changes that count nothing, and the
statements O21, O23, O24 and O25. -/

namespace Sys2Proof.Proofs

open Sys2Proof.Machine Sys2Proof.Safety

variable {s : State} {ch : ChannelId}

/-! ## The input filter (R22) -/

theorem advanceTo_of_le {n : Nat} (h : n ≤ s.now) : s.advanceTo n = s := if_pos h

theorem advanceTo_of_lt {n : Nat} (h : s.now < n) : s.advanceTo n = { s with
    now := n
    drivenDuty := if s.now / 1000 < n / 1000 then s.heads.map HeadRec.duty else s.drivenDuty } :=
  if_neg (Nat.not_le.mpr h)

/-- An accepted change is taken as the state stands. -/
theorem filtered_of_accepted {w : ChannelChange} (h : Accepted s w) (take : State → State) : s.filtered w take = take s := by
  rw [State.filtered_of_le h.1, advanceTo_of_le h.2]

/-- A change taken later is one taken of the state at its instant. -/
theorem filtered_later {w : ChannelChange} (hheld : 2 ≤ w.held) (take : State → State) :
    s.filtered w take = (s.advanceTo (w.date + 2)).filtered w take := by
  have hreached : w.date + 2 ≤ (s.advanceTo (w.date + 2)).now := by
    rw [advanceTo_now]; split <;> omega
  rw [State.filtered_of_le hheld, State.filtered_of_le hheld, advanceTo_of_le hreached]

/-! ## The decoding of levels (R23 to R25) -/

theorem takeLevels_of_quadrature (h : quadrature (s.channel ch)) (date : Nat) (a b : Bool) : s.takeLevels ch date a b =
    if (s.channel ch).refA != a then
      if (s.channel ch).refB != b then s.illegalStep ch date else s.quadratureStep ch date .a
    else if (s.channel ch).refB != b then s.quadratureStep ch date .b else s := by
  rcases h with h | h | h <;> simp only [State.takeLevels, h] <;> cases (s.channel ch).refA != a <;>
    cases (s.channel ch).refB != b <;> rfl

theorem exec_quadratureCount {w : ChannelChange} (p : Phase) (hacc : Accepted s w) (hq : quadrature (s.channel w.channel)) :
    exec (.quadratureCount w p) s = .next (s.quadratureStep w.channel w.date p).chooseFrame := by
  refine congrArg done ((filtered_of_accepted hacc _).trans ?_)
  cases p <;> dsimp only <;> rw [takeLevels_of_quadrature hq]
  · rw [if_pos (by simp), if_neg (by simp)]
  · rw [if_neg (by simp), if_pos (by simp)]

/-! ## A count in quadrature (R24, R27, R28) -/

theorem forwardStep_eq (c : Channel) (p : Phase) :
    forwardStep c.refA c.refB p = alongCycle (c.refA, c.refB) (levelsAfter c p) := by
  obtain ⟨_, _, _, _, a, b, _, _, _, _⟩ := c
  cases p <;> cases a <;> cases b <;> rfl

theorem timerValue_eq (date start : Nat) : timerValue date start =
    if date - start < 1 then 1 else if 10000000 < date - start then 10000000 else date - start := by
  unfold timerValue
  split
  · omega
  · split <;> omega

theorem timed_of_qualifies {c : Channel} {date : Nat} {a : Bool} (h : qualifies c a) :
    c.timed date a = { c with timerFrom := some date, lastPeriod := periodAt c date } := by
  have htimed : c.timed date a = c.qualifyingEdge date := if_pos h
  rw [htimed]
  unfold Channel.qualifyingEdge periodAt
  cases hfrom : c.timerFrom with
  | none => rfl
  | some f =>
    dsimp only
    rw [timerValue_eq]

theorem timed_of_not {c : Channel} {date : Nat} {a : Bool} (h : ¬qualifies c a) : c.timed date a = c := if_neg h

/-- A channel's entry after a count in quadrature. -/
def channelCounted (c : Channel) (date : Nat) (p : Phase) : Channel :=
  { c.timed date (levelsAfter c p).1 with
    refA := (levelsAfter c p).1, refB := (levelsAfter c p).2, count := if countsUp c p then c.count + 1 else c.count - 1 }

theorem timed_same (c : Channel) (date : Nat) (a : Bool) : c.timed date a =
    { c with timerFrom := (c.timed date a).timerFrom, lastPeriod := (c.timed date a).lastPeriod } := by
  by_cases h : qualifies c a
  · rw [timed_of_qualifies h]
  · rw [timed_of_not h]

theorem channelCounted_of_qualifies {c : Channel} {date : Nat} {p : Phase} (h : qualifies c (levelsAfter c p).1) :
    channelCounted c date p = { c with
      refA := (levelsAfter c p).1, refB := (levelsAfter c p).2
      count := if countsUp c p then c.count + 1 else c.count - 1
      timerFrom := some date, lastPeriod := periodAt c date } := by
  rw [channelCounted, timed_of_qualifies h]

theorem channelCounted_of_not {c : Channel} {date : Nat} {p : Phase} (h : ¬qualifies c (levelsAfter c p).1) :
    channelCounted c date p = { c with
      refA := (levelsAfter c p).1, refB := (levelsAfter c p).2
      count := if countsUp c p then c.count + 1 else c.count - 1 } := by
  rw [channelCounted, timed_of_not h]

/-- The state with a count entered in a channel. -/
def counted (s : State) (ch : ChannelId) (date : Nat) (p : Phase) : State :=
  s.modChannel ch fun _ => channelCounted (s.channel ch) date p

theorem quadratureStep_eq (s : State) (ch : ChannelId) (date : Nat) (p : Phase) :
    s.quadratureStep ch date p = (counted s ch date p).handCount ch (countsUp (s.channel ch) p) := by
  have hcount : ∀ c : Channel, ∀ a, (c.timed date a).count = c.count := fun c a => by rw [timed_same]
  unfold State.quadratureStep counted channelCounted countsUp
  dsimp only
  rw [forwardStep_eq]
  cases p <;> simp only [Channel.withLevels, hcount] <;> rfl

theorem counted_channel (s : State) (ch : ChannelId) (date : Nat) (p : Phase) :
    (counted s ch date p).channel ch = channelCounted (s.channel ch) date p := modChannel_channel_self s ch _

/-! ## Which line a channel serves (R32) -/

/-- The line served depends on the role and the consumer of the channel, on the lines and on the heads. -/
theorem servedLine_modChannel {f : Channel → Channel} (hrole : (f (s.channel ch)).role = (s.channel ch).role)
    (hconsumer : (f (s.channel ch)).consumer = (s.channel ch).consumer) :
    (s.modChannel ch f).servedLine ch = s.servedLine ch := by
  unfold State.servedLine
  rw [modChannel_channel_self, hrole, hconsumer]
  rfl

theorem counted_role (s : State) (ch : ChannelId) (date : Nat) (p : Phase) :
    ((counted s ch date p).channel ch).role = (s.channel ch).role ∧
      ((counted s ch date p).channel ch).consumer = (s.channel ch).consumer := by
  rw [counted_channel, channelCounted, timed_same]
  exact ⟨rfl, rfl⟩

theorem counted_servedLine (s : State) (ch : ChannelId) (date : Nat) (p : Phase) :
    (counted s ch date p).servedLine ch = s.servedLine ch := by
  obtain ⟨hrole, hconsumer⟩ := counted_role s ch date p
  rw [counted_channel] at hrole hconsumer
  exact servedLine_modChannel hrole hconsumer

theorem servedLine_flyer {h : HeadId} {u : HeadSettings} (hrole : (s.channel ch).role = .flyer)
    (hconsumer : (s.channel ch).consumer = some (.head h)) (hu : (s.head h).settings = some u) :
    s.servedLine ch = if u.channel = ch then some u.line else none := by
  simp only [State.servedLine, hrole, hconsumer, hu]

/-! ## A count handed to its consumer (R23, R38, R80) -/

theorem handCount_of_haul {l : LineId} (hrole : (s.channel ch).role = .haul) (hserved : s.servedLine ch = some l) (b : Bool) :
    s.handCount ch b = s.lineCount l .haul b := by
  simp only [State.handCount, hrole, hserved]

theorem handCount_of_wheel {l : LineId} (hrole : (s.channel ch).role = .wheel) (hserved : s.servedLine ch = some l) (b : Bool) :
    s.handCount ch b = s.lineCount l .wheel b := by
  simp only [State.handCount, hrole, hserved]

theorem handCount_of_flyer {l : LineId} {h : HeadId} (hrole : (s.channel ch).role = .flyer)
    (hserved : s.servedLine ch = some l) (hconsumer : (s.channel ch).consumer = some (.head h)) (b : Bool) :
    s.handCount ch b = s.flyerCount h (if b then 1 else -1) := by
  simp only [State.handCount, hrole, hserved, hconsumer]

theorem lineCount_of_idle {l : LineId} (h : s.runOpen l = false) (r : Role) (b : Bool) : s.lineCount l r b = s := by
  simp only [State.lineCount, h, Bool.false_eq_true, if_false]

theorem flyerCount_of_idle {h : HeadId} (hidle : ∀ u, (s.head h).settings = some u → s.runOpen u.line = false) (n : Int) :
    s.flyerCount h n = s := by
  cases hu : (s.head h).settings with
  | none => simp only [State.flyerCount, hu]
  | some u => simp only [State.flyerCount, hu, hidle u hu, Bool.false_eq_true, if_false]

/-- A count of a channel that serves no line with a run open is handed to nobody. -/
theorem handCount_of_idle (hidle : ∀ l, s.servedLine ch = some l → s.runOpen l = false) (b : Bool) :
    s.handCount ch b = s := by
  unfold State.handCount
  split
  · rename_i l _ hserved; exact lineCount_of_idle (hidle l hserved) _ b
  · rename_i l _ hserved; exact lineCount_of_idle (hidle l hserved) _ b
  · rename_i l hrole hserved
    split
    · rename_i h hconsumer
      refine flyerCount_of_idle (fun u hu => ?_) _
      rw [servedLine_flyer hrole hconsumer hu] at hserved
      split at hserved
      · rename_i hch
        exact hidle u.line (by rw [servedLine_flyer hrole hconsumer hu, if_pos hch])
      · exact nomatch hserved
    · rfl
  · rfl

theorem authorityCount_channels (s : State) (l : LineId) (pitch : Nat) (b : Bool) :
    (s.authorityCount l pitch b).channels = s.channels := by
  unfold State.authorityCount State.inOrder
  refine (Steady.countEvents l _ _).channels.trans ?_
  dsimp only
  split <;> rfl

theorem handCount_channels (s : State) (ch : ChannelId) (b : Bool) : (s.handCount ch b).channels = s.channels := by
  have hline : ∀ l r, (s.lineCount l r b).channels = s.channels := by
    intro l r
    unfold State.lineCount
    split
    · dsimp only
      split
      · exact authorityCount_channels _ _ _ _
      · rfl
    · rfl
  have hflyer : ∀ h n, (s.flyerCount h n).channels = s.channels := by
    intro h n
    unfold State.flyerCount
    split
    · split
      · dsimp only
        split
        · simp
        · rfl
      · rfl
    · rfl
  unfold State.handCount
  split
  · exact hline _ _
  · exact hline _ _
  · split
    · exact hflyer _ _
    · rfl
  · rfl

/-- The entries of the channel table after a count in quadrature. -/
theorem quadratureStep_channel (s : State) (ch : ChannelId) (date : Nat) (p : Phase) (d : ChannelId) :
    (s.quadratureStep ch date p).channel d = if d = ch then channelCounted (s.channel ch) date p else s.channel d := by
  have hchannels := handCount_channels (counted s ch date p) ch (countsUp (s.channel ch) p)
  rw [quadratureStep_eq]
  unfold State.channel at hchannels ⊢
  rw [hchannels]
  exact modChannel_channel s ch _ d

theorem chooseFrame_channel (s : State) (d : ChannelId) : s.chooseFrame.channel d = s.channel d := by
  rw [chooseFrame_eq_link]; rfl

theorem surroundings_chooseFrame {t : State} (h : SameSurroundings s t) : SameSurroundings s t.chooseFrame := by
  rw [chooseFrame_eq_link]; exact h

/-- Settles O21: the entry is counted and then handed on, and no consumer touches the channel table. -/
theorem quadratureCountUpdatesItsChannel : Obligations.QuadratureCountUpdatesItsChannel := by
  intro s w p hacc hq
  have hchannel : ∀ d, (s.quadratureStep w.channel w.date p).chooseFrame.channel d =
      if d = w.channel then channelCounted (s.channel w.channel) w.date p else s.channel d := fun d => by
    rw [chooseFrame_channel, quadratureStep_channel]
  refine ⟨_, exec_quadratureCount p hacc hq, fun h => ?_, fun h => ?_, fun d hd => ?_,
    surroundings_chooseFrame ((Calm.refl s).quadratureStep _ _ _).surroundings, fun hidle => ?_⟩
  · rw [hchannel, if_pos rfl, channelCounted_of_qualifies h]
  · rw [hchannel, if_pos rfl, channelCounted_of_not h]
  · rw [hchannel, if_neg hd]
  · have hstep : s.quadratureStep w.channel w.date p = counted s w.channel w.date p := by
      rw [quadratureStep_eq]
      refine handCount_of_idle (fun l hserved => ?_) _
      rw [counted_servedLine] at hserved
      exact hidle l hserved
    have hchannels : (counted s w.channel w.date p).chooseFrame.channels = (counted s w.channel w.date p).channels := by
      rw [chooseFrame_eq_link]
    rw [hstep, hchannels]
    rfl

end Sys2Proof.Proofs

/-! The consumers of a count but for the authority channel, the slip test, and level changes that count nothing; the statements
O23, O24 and O25. -/

namespace Sys2Proof.Proofs

open Sys2Proof.Machine Sys2Proof.Safety

variable {s : State} {ch : ChannelId} {l : LineId}

/-! ## The other channel of the pair, and the slip test (R49, R50) -/

theorem clampAbs_eq (b : Nat) (x : Int) : clampAbs b x = max (-(b : Int)) (min (b : Int) x) := by
  unfold clampAbs
  split
  · omega
  · split <;> omega

/-- A count of a HAUL or WHEEL channel that serves a line is one of the line. -/
theorem handCount_of_line (hrole : (s.channel ch).role = .haul ∨ (s.channel ch).role = .wheel)
    (hserved : s.servedLine ch = some l) (b : Bool) : s.handCount ch b = s.lineCount l (s.channel ch).role b := by
  rcases hrole with h | h
  · rw [handCount_of_haul h hserved, h]
  · rw [handCount_of_wheel h hserved, h]

theorem lineCount_of_other {r : Role} (hrun : s.runOpen l = true) (hother : r ≠ (s.line l).cfg.authority.role) (b : Bool) :
    s.lineCount l r b = s.otherCount l ((s.line l).cfg.pitchOf r) b := by
  simp only [State.lineCount, hrun, if_true, if_neg hother]

theorem lineCount_of_authority {r : Role} (hrun : s.runOpen l = true) (hauth : r = (s.line l).cfg.authority.role) (b : Bool) :
    s.lineCount l r b = s.authorityCount l ((s.line l).cfg.pitchOf r) b := by
  simp only [State.lineCount, hrun, if_true, if_pos hauth]

theorem slipDue_iff {w : SlipWindow} (hw : (s.pos l).slip = some w) :
    s.slipDue l = true ↔ ((s.line l).cfg.slipWindow : Int) * 1000000 ≤ w.authAdvance := by
  simp only [State.slipDue, hw, decide_eq_true_eq]
  rw [nmPerMm, Int.natCast_mul]
  rfl

theorem testSlip_of_early {w : SlipWindow} (hw : (s.pos l).slip = some w)
    (hearly : w.authAdvance < ((s.line l).cfg.slipWindow : Int) * 1000000) : s.testSlip l = s := by
  have hnot : ¬s.slipDue l = true := mt (slipDue_iff hw).mp (Int.not_le.mpr hearly)
  simp only [State.testSlip, hw, if_neg hnot]

/-- The span that the judgment of a slip window submits. -/
def slipSpan (s : State) (l : LineId) (w : SlipWindow) : Submission :=
  if (s.line l).cfg.slipLimit < (slipOf w.authAdvance w.otherAdvance).natAbs then
    .openOrExtend w.start (s.pos l).position (slipOf w.authAdvance w.otherAdvance).natAbs
  else .close w.start

theorem testSlip_of_due {w : SlipWindow} (hw : (s.pos l).slip = some w)
    (hdue : ((s.line l).cfg.slipWindow : Int) * 1000000 ≤ w.authAdvance) : s.testSlip l =
    (s.submit l .slip .line (slipSpan s l w)).modPos l fun r => { r with slip := some ⟨(s.pos l).position, 0, 0⟩ } := by
  have hyes : s.slipDue l = true := (slipDue_iff hw).mpr hdue
  simp only [State.testSlip, hw, if_pos hyes, slipSpan]
  split
  · rfl
  · rfl

theorem submit_pos (s : State) (l : LineId) (k : SpanKind) (c : SpanSource) (x : Submission) (y : LineId) :
    (s.submit l k c x).pos y = s.pos y := by simp

/-- Settles O23: the other count changes the open window alone, and a due window is judged and opened again. -/
theorem otherCountFeedsSlipWindowOnly : Obligations.OtherCountFeedsSlipWindowOnly := by
  refine ⟨fun s w p l hacc hserved hrun hrole hother => ?_, fun A O _ => clampAbs_eq 999 _, fun s l w hw =>
    ⟨testSlip_of_early hw, fun hdue => ?_⟩⟩
  · have hq : quadrature (s.channel w.channel) := hrole.elim .inl fun h => .inr (.inl h)
    have hsame := (counted_role s w.channel w.date p).1
    have hstep : s.quadratureStep w.channel w.date p = (counted s w.channel w.date p).otherCount l
        ((s.line l).cfg.pitchOf (s.channel w.channel).role) (countsUp (s.channel w.channel) p) := by
      rw [quadratureStep_eq, handCount_of_line (by rwa [hsame]) (by rw [counted_servedLine, hserved]), hsame]
      exact lineCount_of_other (s := counted s w.channel w.date p) hrun hother _
    refine ⟨_, exec_quadratureCount p hacc hq, ?_, ?_, fun x hx => ?_⟩
    · rw [hstep]; rfl
    · rw [hstep]; exact modPos_pos_self _ l _
    · rw [hstep]; exact modPos_pos_of_ne _ l _ hx
  · dsimp only
    rw [testSlip_of_due hw hdue]
    refine ⟨?_, fun x hx => ?_, fun hwithin => ?_, fun hbeyond => ?_⟩
    · rw [modPos_pos_self, submit_pos]
    · rw [modPos_pos_of_ne _ _ _ hx, submit_pos]
    · rw [slipSpan, if_neg (Nat.not_lt.mpr hwithin)]; rfl
    · rw [slipSpan, if_pos hbeyond]; rfl

/-! ## Flyer counts (R80, R91) -/

/-- The end of a head's stall: its span closed at the position as its flyer sees it (R91). -/
def stallEnded (s : State) (h : HeadId) (u : HeadSettings) : State :=
  if (s.head h).stall then
    (s.submit u.line .stall (.head h) (.close ((s.pos u.line).position + u.offset * 1000000))).modHead h
      fun r => { r with stall := false }
  else s

theorem flyerCount_of_running {h : HeadId} {u : HeadSettings} (hu : (s.head h).settings = some u)
    (hrun : s.runOpen u.line = true) (n : Int) : s.flyerCount h n = (stallEnded s h u).modHead h fun r => { r with
      window := r.window.map fun w => { w with count := w.count + n, stallRef := (s.pos u.line).position } } := by
  simp only [State.flyerCount, hu, hrun, if_true, stallEnded]
  rfl

theorem stallEnded_frame (s : State) (h : HeadId) (u : HeadSettings) :
    stallEnded s h u = { s with heads := (stallEnded s h u).heads, spanRecs := (stallEnded s h u).spanRecs } := by
  unfold stallEnded
  split
  · rw [submit_close_frame]; rfl
  · rfl

theorem stallEnded_head (s : State) (h : HeadId) (u : HeadSettings) (x : HeadId) :
    (stallEnded s h u).head x = if x = h then { s.head h with stall := false } else s.head x := by
  unfold stallEnded
  split
  · rw [modHead_head]; simp
  · rename_i hstall
    split
    · rename_i hx
      rw [hx]
      generalize s.head h = r at hstall
      obtain ⟨_, _, _, stall, _, _, _, _, _⟩ := r
      simp only [Bool.not_eq_true] at hstall
      rw [hstall]
    · rfl

/-- Settles O24: a flyer count ends a stall, and then enters the head's window. -/
theorem flyerCountFeedsItsHead : Obligations.FlyerCountFeedsItsHead := by
  intro s w p h u hacc hrole hconsumer hu hch hrun
  obtain ⟨hrole', hconsumer'⟩ := counted_role s w.channel w.date p
  have hserved : (counted s w.channel w.date p).servedLine w.channel = some u.line := by
    rw [counted_servedLine, servedLine_flyer hrole hconsumer hu, if_pos hch]
  have hstep : s.quadratureStep w.channel w.date p =
      (counted s w.channel w.date p).flyerCount h (if countsUp (s.channel w.channel) p then 1 else -1) := by
    rw [quadratureStep_eq]
    exact handCount_of_flyer (hrole'.trans hrole) hserved (hconsumer'.trans hconsumer) _
  have hcount : s.quadratureStep w.channel w.date p = (stallEnded (counted s w.channel w.date p) h u).modHead h fun r =>
      { r with window := r.window.map fun x => { x with
        count := x.count + (if countsUp (s.channel w.channel) p then 1 else -1)
        stallRef := (s.pos u.line).position } } := by
    rw [hstep]; exact flyerCount_of_running (s := counted s w.channel w.date p) hu hrun _
  have hhead := stallEnded_head (counted s w.channel w.date p) h u
  have hspans : ∀ stop, ((counted s w.channel w.date p).submit u.line .stall (.head h) (.close stop)).spanRecs =
      (s.submit u.line .stall (.head h) (.close stop)).spanRecs := fun stop =>
    (SpansAs.submit (s := counted s w.channel w.date p) (t := s) (.of_same rfl rfl rfl rfl rfl rfl) _ _ _).spanRecs
  refine ⟨_, exec_quadratureCount p hacc (.inr (.inr hrole)), ?_, fun x hx => ?_, ?_, fun hstall => ?_, fun hstall => ?_⟩
  · rw [hcount, modHead_head_self, hhead, if_pos rfl]; rfl
  · rw [hcount, modHead_head_of_ne _ _ _ hx, hhead, if_neg hx]; rfl
  · rw [hcount, stallEnded_frame]; rfl
  · rw [hcount]
    have hnot : ¬((counted s w.channel w.date p).head h).stall = true := by
      have : ((counted s w.channel w.date p).head h).stall = false := hstall
      simp [this]
    have hnone : stallEnded (counted s w.channel w.date p) h u = counted s w.channel w.date p := if_neg hnot
    rw [hnone]; rfl
  · rw [hcount]
    have hyes : ((counted s w.channel w.date p).head h).stall = true := hstall
    rw [stallEnded, if_pos hyes]
    exact hspans _

/-! ## Level changes that count nothing (R21, R22, R25, R28) -/

theorem exec_illegalTransition {w : ChannelChange} (hacc : Accepted s w) (hq : quadrature (s.channel w.channel)) :
    exec (.illegalTransition w) s = .next (s.illegalStep w.channel w.date).chooseFrame := by
  refine congrArg done ((filtered_of_accepted hacc _).trans ?_)
  rw [takeLevels_of_quadrature hq, if_pos (by simp), if_pos (by simp)]

/-- A channel's entry after a transition of both phases (R25). -/
def channelTallied (c : Channel) (date : Nat) : Channel :=
  { c.timed date (!c.refA) with refA := !c.refA, refB := !c.refB, tally := min 32 (c.tally + 1) }

/-- The state with an illegal transition entered in a channel. -/
def tallied (s : State) (ch : ChannelId) (date : Nat) : State := s.modChannel ch fun _ => channelTallied (s.channel ch) date

theorem tallied_channel (s : State) (ch : ChannelId) (date : Nat) :
    (tallied s ch date).channel ch = channelTallied (s.channel ch) date := modChannel_channel_self s ch _

theorem tallied_servedLine (s : State) (ch : ChannelId) (date : Nat) :
    (tallied s ch date).servedLine ch = s.servedLine ch := by
  refine servedLine_modChannel ?_ ?_ <;> rw [channelTallied, timed_same]

/-- An offered cause changes the lines and the notices alone. -/
theorem offerCause_frame (s : State) (l : LineId) (x : StopCause) :
    s.offerCause l x = { s with lines := (s.offerCause l x).lines, link := (s.offerCause l x).link } := by
  unfold State.offerCause
  split
  · dsimp only
    split
    · rfl
    · rw [notify_eq]; rfl
  · rfl
  · split
    · rfl
    · rfl

theorem illegalStep_eq (s : State) (ch : ChannelId) (date : Nat) : s.illegalStep ch date =
    if 31 ≤ (s.channel ch).tally then
      ((s.servedLine ch).map fun l => (tallied s ch date).offerCause l .sensor).getD (tallied s ch date)
    else tallied s ch date := by
  have htally : ∀ c : Channel, ∀ a, (c.timed date a).tally = c.tally := fun c a => by rw [timed_same]
  have hstate : (s.modChannel ch fun c => { (c.timed date (!c.refA)).withLevels (!c.refA) (!c.refB) with
      tally := min 32 (((c.timed date (!c.refA)).withLevels (!c.refA) (!c.refB)).tally + 1) }) = tallied s ch date := by
    simp only [Channel.withLevels, htally]
    rfl
  unfold State.illegalStep
  dsimp only
  rw [hstate, tallied_servedLine, tallied_channel]
  have hfull : (channelTallied (s.channel ch) date).tally = 32 ↔ 31 ≤ (s.channel ch).tally := by
    show min 32 ((s.channel ch).tally + 1) = 32 ↔ _
    omega
  by_cases h : 31 ≤ (s.channel ch).tally
  · rw [if_pos h, decide_eq_true (hfull.mpr h)]
    cases s.servedLine ch <;> rfl
  · rw [if_neg h, decide_eq_false (mt hfull.mp h)]

theorem illegalStep_of_full {date : Nat} (hserved : s.servedLine ch = some l) (hfull : 31 ≤ (s.channel ch).tally) :
    s.illegalStep ch date = (tallied s ch date).offerCause l .sensor := by
  rw [illegalStep_eq, if_pos hfull, hserved]; rfl

theorem illegalStep_of_not {date : Nat} (hnot : s.servedLine ch = none ∨ (s.channel ch).tally < 31) :
    s.illegalStep ch date = tallied s ch date := by
  rw [illegalStep_eq]
  split
  · rename_i hfull
    rw [hnot.resolve_right (Nat.not_lt.mpr hfull)]; rfl
  · rfl

theorem illegalStep_channel (s : State) (ch : ChannelId) (date : Nat) (d : ChannelId) : (s.illegalStep ch date).channel d =
    if d = ch then channelTallied (s.channel ch) date else s.channel d := by
  have htallied : (tallied s ch date).channel d = if d = ch then channelTallied (s.channel ch) date else s.channel d :=
    modChannel_channel s ch _ d
  rw [← htallied, illegalStep_eq]
  split
  · cases s.servedLine ch with
    | none => rfl
    | some l => simp
  · rfl

theorem chooseFrame_line (s : State) (l : LineId) : s.chooseFrame.line l = s.line l := by
  rw [chooseFrame_eq_link]; rfl

theorem risingEdge_eq_false {inv before after : Bool} (h : after = before ∨ after = inv) : risingEdge inv before after = false := by
  rcases h with rfl | rfl
  · simp [risingEdge]
  · simp [risingEdge]

theorem takeLevels_uncounted {a b : Bool} {date : Nat} (h : (s.channel ch).role = .free ∨
    ((s.channel ch).role = .shaft ∧ (a = (s.channel ch).refA ∨ a = (s.channel ch).invert) ∧
      (b = (s.channel ch).refB ∨ b = (s.channel ch).invert)) ∨
    ((s.channel ch).role = .splice ∧ (a = (s.channel ch).refA ∨ a = (s.channel ch).invert))) :
    s.takeLevels ch date a b = s.modChannel ch fun c => { c with refA := a, refB := b } := by
  rcases h with hfree | ⟨hshaft, ha, hb⟩ | ⟨hsplice, ha⟩
  · simp only [State.takeLevels, hfree]
    rfl
  · simp only [State.takeLevels, hshaft, State.shaftStep, risingEdge_eq_false ha, risingEdge_eq_false hb, Bool.or_false,
      Bool.false_eq_true, if_false]
    rfl
  · simp only [State.takeLevels, hsplice, State.spliceStep, risingEdge_eq_false ha, Bool.false_eq_true, if_false]
    rfl

/-- The period timer of a channel saturates at an instant (R28). -/
def saturatedAt (s : State) (ch : ChannelId) (n : Nat) : State :=
  (s.advanceTo n).modChannel ch fun c => { c with lastPeriod := some 10000000 }

theorem exec_periodSaturation {f : Nat} (hf : (s.channel ch).timerFrom = some f) :
    exec (.periodSaturation ch) s = .next (saturatedAt s ch (f + 10000000)).chooseFrame := by
  show execPeriodSaturation ch s = _
  simp only [execPeriodSaturation, hf, saturatedAt, done]

theorem advanceTo_channel (s : State) (n : Nat) (d : ChannelId) : (s.advanceTo n).channel d = s.channel d := by
  simp [State.channel]

theorem saturatedAt_channel (s : State) (ch : ChannelId) (n : Nat) :
    (saturatedAt s ch n).channel ch = { s.channel ch with lastPeriod := some 10000000 } := by
  rw [saturatedAt, modChannel_channel_self, advanceTo_channel]

theorem saturatedAt_other (s : State) (n : Nat) {d : ChannelId} (hd : d ≠ ch) :
    (saturatedAt s ch n).channel d = s.channel d := by
  rw [saturatedAt, modChannel_channel_of_ne _ _ _ hd, advanceTo_channel]

theorem saturatedAt_now (s : State) (ch : ChannelId) (n : Nat) : (saturatedAt s ch n).now = if s.now < n then n else s.now := by
  rw [saturatedAt, modChannel_now, advanceTo_now]

theorem saturatedAt_frame (s : State) (ch : ChannelId) (n : Nat) : saturatedAt s ch n = { s with
    channels := (saturatedAt s ch n).channels, now := (saturatedAt s ch n).now
    drivenDuty := (saturatedAt s ch n).drivenDuty } := by
  unfold saturatedAt
  by_cases hlate : n ≤ s.now
  · rw [advanceTo_of_le hlate]; rfl
  · rw [advanceTo_of_lt (Nat.not_le.mp hlate)]; rfl

/-- A change of a channel that holds too briefly is ignored, and one that comes later is taken at its instant. -/
theorem channelEvent_filtered {w : ChannelChange} {p : Phase} {a b : Bool} {c : Instr}
    (hc : c ∈ [Instr.quadratureCount w p, .illegalTransition w, .shaftEdge w a b, .spliceEdge w a b,
      .phaseLevelChange w a b]) :
    (w.held < 2 → exec c s = .next s.chooseFrame) ∧
      (2 ≤ w.held → exec c s = exec c (s.advanceTo (w.date + 2))) := by
  have hevent : ∃ take : Channel → State → State, ∀ u : State,
      exec c u = done (u.filtered w (take (u.channel w.channel))) := by
    simp only [List.mem_cons, List.not_mem_nil, or_false] at hc
    rcases hc with rfl | rfl | rfl | rfl | rfl
    · exact ⟨fun c s => match p with
        | .a => s.takeLevels w.channel w.date (!c.refA) c.refB
        | .b => s.takeLevels w.channel w.date c.refA (!c.refB), fun u => by cases p <;> rfl⟩
    · exact ⟨fun c s => s.takeLevels w.channel w.date (!c.refA) (!c.refB), fun u => rfl⟩
    · exact ⟨fun _ s => s.takeLevels w.channel w.date a b, fun u => rfl⟩
    · exact ⟨fun _ s => s.takeLevels w.channel w.date a b, fun u => rfl⟩
    · exact ⟨fun _ s => s.takeLevels w.channel w.date a b, fun u => rfl⟩
  obtain ⟨take, htake⟩ := hevent
  refine ⟨fun hbrief => ?_, fun hheld => ?_⟩
  · rw [htake, State.filtered_of_lt hbrief]; rfl
  · have hchannel : (s.advanceTo (w.date + 2)).channel w.channel = s.channel w.channel := by simp [State.channel]
    rw [htake, htake, hchannel, ← filtered_later hheld]

/-- Any other change of a field input that holds too briefly is ignored. -/
theorem inputEvent_filtered {held : Nat} {active : Bool} {c : Instr} (hbrief : held < 2)
    (hc : c ∈ [Instr.guardEvent held, .guardInputChange active held, .coilReadyActive l held, .coilReadyInactive l held,
      .headAtLane held, .bandDone held, .clampSlip held, .labelDone held, .holdReqActive held, .holdReqInactive held]) :
    exec c s = .next s.chooseFrame := by
  have hevent : ∃ take : State → State, exec c s = done (s.ifHeld held take) := by
    simp only [List.mem_cons, List.not_mem_nil, or_false] at hc
    rcases hc with rfl | rfl | rfl | rfl | rfl | rfl | rfl | rfl | rfl | rfl <;> exact ⟨_, rfl⟩
  obtain ⟨take, htake⟩ := hevent
  rw [htake, State.ifHeld_of_lt hbrief]
  rfl

/-- Settles O25: the filter for every event, and each event that counts nothing on its own. -/
theorem uncountedChannelEvents : Obligations.UncountedChannelEvents := by
  refine ⟨fun s w p a b c hc => ⟨(channelEvent_filtered hc).1, fun hheld hahead => ?_⟩,
    fun s held l active c hbrief hc => inputEvent_filtered hbrief hc, fun s w hacc hq => ?_, fun s ch f hf => ?_,
    fun s w a b hacc h => ?_⟩
  · rw [(channelEvent_filtered hc).2 hheld, advanceTo_of_lt hahead]
  · have hframe : ∀ u : State, u.chooseFrame.channels = u.channels ∧ u.chooseFrame.lines = u.lines := fun u => by
      rw [chooseFrame_eq_link]; exact ⟨rfl, rfl⟩
    refine ⟨_, exec_illegalTransition hacc hq, fun hqual => ?_, fun hqual => ?_, fun d hd => ?_, fun l hserved hfull => ?_,
      fun l hnot => ?_, fun l hserved hfull => ?_, fun hnot => ?_, ?_⟩
    · rw [chooseFrame_channel, illegalStep_channel, if_pos rfl, channelTallied, timed_of_qualifies hqual]
    · rw [chooseFrame_channel, illegalStep_channel, if_pos rfl, channelTallied, timed_of_not hqual]
    · rw [chooseFrame_channel, illegalStep_channel, if_neg hd]
    · rw [chooseFrame_line, illegalStep_of_full hserved hfull, offerCause_line_self]
      rfl
    · rw [chooseFrame_line]
      by_cases hfull : 31 ≤ (s.channel w.channel).tally
      · cases hserved : s.servedLine w.channel with
        | none => rw [illegalStep_of_not (.inl hserved)]; rfl
        | some y =>
          have hy : l ≠ y := fun e => hnot.elim (fun hne => hne (e ▸ hserved)) fun hlt => by omega
          rw [illegalStep_of_full hserved hfull, offerCause_line_of_ne _ hy]
          rfl
      · rw [illegalStep_of_not (.inr (Nat.not_le.mp hfull))]; rfl
    · rw [illegalStep_of_full hserved hfull]
      exact chooseFrame_link (TellsAs.offerCause (s := tallied s w.channel w.date) (t := s) ⟨rfl, rfl⟩ rfl _).link
    · rw [illegalStep_of_not hnot]
      exact chooseFrame_link rfl
    · rw [chooseFrame_eq_link]
      by_cases hfull : 31 ≤ (s.channel w.channel).tally
      · cases hserved : s.servedLine w.channel with
        | none => rw [illegalStep_of_not (.inl hserved)]; rfl
        | some y => rw [illegalStep_of_full hserved hfull, offerCause_frame]; rfl
      · rw [illegalStep_of_not (.inr (Nat.not_le.mp hfull))]; rfl
  · exact ⟨_, exec_periodSaturation hf, saturatedAt_channel s ch _, fun d hd => saturatedAt_other s _ hd,
      saturatedAt_now s ch _, saturatedAt_frame s ch _⟩
  · refine ⟨_, congrArg done ((filtered_of_accepted hacc _).trans (takeLevels_uncounted h)), modChannel_channel_self _ _ _,
      fun d hd => modChannel_channel_of_ne _ _ _ hd, rfl⟩

end Sys2Proof.Proofs

/-! A count of the authority channel: the position, and what falls due on the count; the statement O22. -/

namespace Sys2Proof.Proofs

open Sys2Proof.Machine Sys2Proof.Safety

variable {s : State} {l : LineId}

/-! ## What is due (R38, R49, R54, R84, R90, R130) -/

theorem markDue_iff : s.markDue l = true ↔ ∃ m, (s.pos l).markTarget = some m ∧ m ≤ (s.pos l).position := by
  unfold State.markDue
  cases (s.pos l).markTarget <;> simp

theorem slipDue_iff_exists : s.slipDue l = true ↔
    ∃ x, (s.pos l).slip = some x ∧ ((s.line l).cfg.slipWindow : Int) * 1000000 ≤ x.authAdvance := by
  cases hw : (s.pos l).slip with
  | none => simp [State.slipDue, hw]
  | some w => simp [slipDue_iff hw]

theorem coilRecipe_of_some {c : OpenCoil} (hc : (s.coilRec l).coil = some c) : s.coilRecipe l = s.recipe c.slot := by
  simp only [State.coilRecipe, hc, Option.bind_some]

/-- The model's test whether a cut falls due is the condition of the rules. -/
theorem cutPending_iff : s.cutPending l = true ↔ CutFalls s l := by
  unfold State.cutPending CutFalls
  cases hstage : (s.coilRec l).stage with
  | placed p => simp
  | held p => simp
  | none =>
    cases hc : (s.coilRec l).coil with
    | none => simp
    | some c =>
      cases hr : s.recipe c.slot with
      | none => simp [coilRecipe_of_some hc, hr]
      | some r =>
        simp only [coilRecipe_of_some hc, hr, Bool.and_eq_true, placesOwnCuts_iff, decide_eq_true_eq, State.nominalCut,
          coilStart_of_some hc, nmPerMm]
        simp [hr]

theorem windowDue_of {h : HeadId} {w : TwistWindow} {r : Recipe} (hw : (s.head h).window = some w)
    (hr : s.boundRecipe l = some r) (hdue : r.window * 1000000 ≤ (s.pos l).position - w.start) :
    s.windowDue l h = true := by
  simp only [State.windowDue, hw, hr, nmPerMm]
  exact decide_eq_true hdue

theorem stallDue_of {h : HeadId} {w : TwistWindow} {r : Recipe} (hw : (s.head h).window = some w)
    (hr : s.boundRecipe l = some r) (hstall : (s.head h).stall = false)
    (hdue : r.stallLength * 1000000 ≤ (s.pos l).position - w.stallRef) : s.stallDue l h = true := by
  simp only [State.stallDue, hw, hr, hstall, Bool.not_false, Bool.true_and, nmPerMm]
  exact decide_eq_true hdue

/-! ## The events that fall on a count (R38) -/

theorem headsOf_nodup (s : State) (l : LineId) : (s.headsOf l).Nodup := (List.nodup_finRange 16).filter _

/-- The tests of heads on a count: those due, and all of them where a due cut brings a new recipe. -/
def headTests (s : State) (l : LineId) (due : HeadId → Bool) : List HeadId :=
  (s.headsOf l).filter fun h => due h || (s.cutPending l && (s.line l).pendingRecipe.isSome)

theorem mem_headTests {due : HeadId → Bool} {h : HeadId} (hmem : h ∈ headTests s l due) : AssignedTo s h l :=
  mem_headsOf_iff_assigned.mp (List.mem_filter.mp hmem).1

theorem mem_headTests_of_due {due : HeadId → Bool} {h : HeadId} (hassigned : AssignedTo s h l) (hdue : due h = true) :
    h ∈ headTests s l due :=
  List.mem_filter.mpr ⟨mem_headsOf_iff_assigned.mpr hassigned, by rw [hdue, Bool.true_or]⟩

theorem countEvents_eq (s : State) (l : LineId) (clamped moved : Bool) : s.countEvents l clamped moved =
    (if clamped then [.runLimit] else []) ++ (if s.slipDue l then [.slip] else []) ++
      (if moved then (if s.markDue l then [.mark] else []) ++ (headTests s l (s.windowDue l)).map .window ++
        (headTests s l (s.stallDue l)).map .stall ++ (if s.cutPending l then [.cut] else []) else []) := rfl

theorem mem_countEvents {clamped moved : Bool} :
    (.runLimit ∈ s.countEvents l clamped moved ↔ clamped = true) ∧
    (.slip ∈ s.countEvents l clamped moved ↔ s.slipDue l = true) ∧
    (.mark ∈ s.countEvents l clamped moved ↔ moved = true ∧ s.markDue l = true) ∧
    (.cut ∈ s.countEvents l clamped moved ↔ moved = true ∧ s.cutPending l = true) ∧
    (∀ h, .window h ∈ s.countEvents l clamped moved ↔ moved = true ∧ h ∈ headTests s l (s.windowDue l)) ∧
    ∀ h, .stall h ∈ s.countEvents l clamped moved ↔ moved = true ∧ h ∈ headTests s l (s.stallDue l) := by
  rw [countEvents_eq]
  cases moved <;> simp

/-- Every event that can fall on a count, once. -/
def allCountEvents : List CountEvent :=
  [.runLimit] ++ [.slip] ++ ([.mark] ++ allHeads.map .window ++ allHeads.map .stall ++ [.cut])

theorem ite_sublist {α : Type} (b : Bool) (x : α) : (if b then [x] else []).Sublist [x] := by
  cases b
  · exact List.nil_sublist _
  · exact List.Sublist.refl _

theorem countEvents_sublist (s : State) (l : LineId) (clamped moved : Bool) :
    (s.countEvents l clamped moved).Sublist allCountEvents := by
  have htests : ∀ due, (headTests s l due).Sublist allHeads := fun _ =>
    List.filter_sublist.trans List.filter_sublist
  rw [countEvents_eq]
  refine ((ite_sublist _ _).append (ite_sublist _ _)).append ?_
  split
  · exact (((ite_sublist _ _).append ((htests _).map _)).append ((htests _).map _)).append (ite_sublist _ _)
  · exact List.nil_sublist _

theorem countEvents_nodup (s : State) (l : LineId) (clamped moved : Bool) : (s.countEvents l clamped moved).Nodup :=
  (countEvents_sublist s l clamped moved).nodup (by decide)

/-- The part's own events on a count are in the order R38 gives them. -/
theorem countEvents_filter (s : State) (l : LineId) (clamped moved : Bool) :
    ((s.countEvents l clamped moved).filter CountEvent.ofLpu).Sublist [.runLimit, .slip, .mark] :=
  (countEvents_sublist s l clamped moved).filter CountEvent.ofLpu

/-! ## The move of the position (R39, R40) -/

/-- The state with a count of the authority channel entered, before the tests it brings. -/
def authorityMoved (s : State) (l : LineId) (pitch : Nat) (up : Bool) : State :=
  let m := movedPosition (s.coilStart l) pitch (s.pos l).position up
  let s1 := s.modPos l fun p => { p with
    position := m.1
    slip := p.slip.map fun w => { w with authAdvance := addAdvance w.authAdvance (signedPitch pitch up) } }
  if m.2.1 then s1.modLine l fun r => { r with reverseClamp := true } else s1

/-- The events that fall on a count of the authority channel. -/
def authorityEvents (s : State) (l : LineId) (pitch : Nat) (up : Bool) : List CountEvent :=
  let m := movedPosition (s.coilStart l) pitch (s.pos l).position up
  (authorityMoved s l pitch up).countEvents l m.2.2 (m.1 != (s.pos l).position)

theorem authorityCount_eq (s : State) (l : LineId) (pitch : Nat) (up : Bool) : s.authorityCount l pitch up =
    (authorityMoved s l pitch up).inOrder (inLpuOrder (freelyOrdered (authorityMoved s l pitch up).choices
      (authorityEvents s l pitch up)) ((authorityEvents s l pitch up).filter CountEvent.ofLpu)) (State.countEvent l) := rfl

theorem countTest_eq (l : LineId) : countTest l = State.countEvent l := by
  funext s e
  cases e <;> rfl

theorem authorityMoved_frame (s : State) (l : LineId) (pitch : Nat) (up : Bool) : authorityMoved s l pitch up =
    { s with positions := (authorityMoved s l pitch up).positions, lines := (authorityMoved s l pitch up).lines } := by
  unfold authorityMoved
  dsimp only
  split
  · rfl
  · rfl

theorem authorityMoved_pos (s : State) (l : LineId) (pitch : Nat) (up : Bool) (x : LineId) :
    (authorityMoved s l pitch up).pos x = if x = l then { s.pos l with
      position := (movedPosition (s.coilStart l) pitch (s.pos l).position up).1
      slip := (s.pos l).slip.map fun w => { w with
        authAdvance := clampAbs 140737488355327 (w.authAdvance + if up then (pitch : Int) else -pitch) } }
    else s.pos x := by
  unfold authorityMoved
  dsimp only
  split
  · rw [modLine_pos]
    exact modPos_pos s l _ x
  · exact modPos_pos s l _ x

theorem authorityMoved_line (s : State) (l : LineId) (pitch : Nat) (up : Bool) (x : LineId) :
    (authorityMoved s l pitch up).line x = if x = l then { s.line l with
      reverseClamp := (movedPosition (s.coilStart l) pitch (s.pos l).position up).2.1 || (s.line l).reverseClamp }
    else s.line x := by
  unfold authorityMoved
  dsimp only
  split
  · rename_i hclamp
    rw [hclamp]
    exact modLine_line _ l _ x
  · rename_i hclamp
    rw [Bool.not_eq_true] at hclamp
    rw [hclamp, Bool.false_or]
    split
    · rename_i hx; rw [hx]; rfl
    · rfl

theorem movedPosition_cases (floor pitch before : Nat) :
    (floor + pitch ≤ before → movedPosition floor pitch before false = (before - pitch, false, false)) ∧
    (before < floor + pitch → movedPosition floor pitch before false = (floor, true, false)) ∧
    (before + pitch ≤ 140737488355327 → movedPosition floor pitch before true = (before + pitch, false, false)) ∧
    (140737488355327 < before + pitch → movedPosition floor pitch before true = (140737488355327, false, true)) :=
  ⟨fun h => if_pos h, fun h => if_neg (Nat.not_le.mpr h), fun h => if_pos h, fun h => if_neg (Nat.not_le.mpr h)⟩

/-- The ceiling is met by a count up beyond it alone. -/
theorem movedPosition_clamped (floor pitch before : Nat) (up : Bool) :
    (movedPosition floor pitch before up).2.2 = true ↔ up = true ∧ 140737488355327 < before + pitch := by
  obtain ⟨hdown, hfloor, hfree, hceiling⟩ := movedPosition_cases floor pitch before
  cases up with
  | false =>
    rcases Nat.lt_or_ge before (floor + pitch) with h | h
    · simp [hfloor h]
    · simp [hdown h]
  | true =>
    rcases Nat.lt_or_ge 140737488355327 (before + pitch) with h | h
    · simp [hceiling h, h]
    · simp [hfree h, Nat.not_lt.mpr h]

/-- A line whose run is open and to which RUN_LIMIT is offered among the events of a count ends stopped for it. -/
theorem stoppedFor_of_mem {es : List CountEvent} (hrun : (s.line l).state ≠ .idle) (hmem : .runLimit ∈ es) :
    StoppedFor ((es.foldl (State.countEvent l) s).line l) .runLimit := by
  obtain ⟨before, after, rfl⟩ := List.append_of_mem hmem
  rw [List.foldl_append, List.foldl_cons]
  refine ((Steady.countEvents l after _).line l).stopped ?_
  have hopen := ((Steady.countEvents l before s).line l).runs hrun
  generalize before.foldl (State.countEvent l) s = t at hopen
  show StoppedFor ((t.offerCause l .runLimit).line l) .runLimit
  rw [offerCause_line_self]
  cases hstate : (t.line l).state with
  | idle => exact absurd hstate hopen
  | running => simp only [Safety.afterOffer, hstate]; exact ⟨rfl, rfl⟩
  | stopRequested => simp only [Safety.afterOffer, hstate]; exact ⟨rfl, rfl⟩

/-- The tests of a count are made of the state moved, in an order that keeps the LPU's. -/
theorem authorityCount_tests (s : State) (l : LineId) (pitch : Nat) (up : Bool) : ∃ (u : State) (order : List CountEvent),
    s.authorityCount l pitch up = order.foldl (countTest l) u ∧
    u = { authorityMoved s l pitch up with choices := u.choices } ∧ order.Perm (authorityEvents s l pitch up) ∧
    order.filter CountEvent.ofLpu = (authorityEvents s l pitch up).filter CountEvent.ofLpu := by
  obtain ⟨hperm, hfilter⟩ := lpuOrdered_spec (authorityMoved s l pitch up).choices (authorityEvents s l pitch up)
  rw [authorityCount_eq, countTest_eq]
  generalize inLpuOrder _ _ = order at hperm hfilter
  exact ⟨{ authorityMoved s l pitch up with choices := (authorityMoved s l pitch up).choices + (order.length - 1) }, order, rfl,
    rfl, hperm, hfilter⟩

/-- A count of a line's authority channel is a count of the line. -/
theorem quadratureStep_of_authority {w : ChannelChange} {p : Phase} (hserved : s.servedLine w.channel = some l)
    (hrun : s.runOpen l = true) (hrole : (s.channel w.channel).role = (s.line l).cfg.authority.role) :
    s.quadratureStep w.channel w.date p = (counted s w.channel w.date p).authorityCount l (s.line l).cfg.authorityPitch
      (countsUp (s.channel w.channel) p) := by
  have hsame := (counted_role s w.channel w.date p).1
  have hserved' : (counted s w.channel w.date p).servedLine w.channel = some l := by rw [counted_servedLine, hserved]
  have hpitch : (s.line l).cfg.pitchOf (s.channel w.channel).role = (s.line l).cfg.authorityPitch := by
    rw [hrole]
    unfold LineConfig.authorityPitch
    cases (s.line l).cfg.authority <;> rfl
  have hpair : (s.channel w.channel).role = .haul ∨ (s.channel w.channel).role = .wheel := by
    rw [hrole]
    cases (s.line l).cfg.authority
    · exact .inl rfl
    · exact .inr rfl
  rw [quadratureStep_eq, handCount_of_line (by rwa [hsame]) hserved', hsame, ← hpitch]
  exact lineCount_of_authority (s := counted s w.channel w.date p) hrun hrole _

theorem chooseFrame_pos (s : State) (l : LineId) : s.chooseFrame.pos l = s.pos l := by
  rw [chooseFrame_eq_link]; rfl

theorem quadrature_of_authority {c : Channel} {a : Authority} (h : c.role = a.role) : quadrature c := by
  rw [quadrature, h]
  cases a
  · exact .inl rfl
  · exact .inr (.inl rfl)

/-- Settles O22: the position moves, and then the tests due are made, none of which moves it again. -/
theorem authorityCountMovesPosition : Obligations.AuthorityCountMovesPosition := by
  intro s w p l hacc hserved hrun hrole pitch before up
  obtain ⟨u, order, htests, hu, hperm, hfilter⟩ := authorityCount_tests (counted s w.channel w.date p) l pitch up
  have hstep : s.quadratureStep w.channel w.date p = order.foldl (countTest l) u := by
    rw [quadratureStep_of_authority hserved hrun hrole, htests]
  have hpos : ∀ x, u.pos x = if x = l then { s.pos l with
      position := (movedPosition (s.coilStart l) pitch before up).1
      slip := (s.pos l).slip.map fun w => { w with
        authAdvance := clampAbs 140737488355327 (w.authAdvance + if up then (pitch : Int) else -pitch) } }
      else s.pos x := fun x => by
    rw [hu]; exact authorityMoved_pos (counted s w.channel w.date p) l pitch up x
  have hline : ∀ x, u.line x = if x = l then { s.line l with
      reverseClamp := (movedPosition (s.coilStart l) pitch before up).2.1 || (s.line l).reverseClamp } else s.line x :=
    fun x => by rw [hu]; exact authorityMoved_line (counted s w.channel w.date p) l pitch up x
  have hsteady : Steady u (order.foldl (countTest l) u) := by rw [countTest_eq]; exact .countEvents l order u
  have hposition : ∀ x, ((order.foldl (countTest l) u).chooseFrame.pos x).position = (u.pos x).position := fun x => by
    rw [chooseFrame_pos]; exact hsteady.position x
  have hclamp : ((order.foldl (countTest l) u).chooseFrame.line l).reverseClamp =
      ((movedPosition (s.coilStart l) pitch before up).2.1 || (s.line l).reverseClamp) := by
    rw [chooseFrame_line, (hsteady.line l).clamp, hline, if_pos rfl]
  have hself : ((order.foldl (countTest l) u).chooseFrame.pos l).position =
      (movedPosition (s.coilStart l) pitch before up).1 := by rw [hposition, hpos, if_pos rfl]
  have hupos : (u.pos l).position = (movedPosition (s.coilStart l) pitch before up).1 := by rw [hpos, if_pos rfl]
  obtain ⟨hdown, hfloor, hfree, hceiling⟩ := movedPosition_cases (s.coilStart l) pitch before
  have hmoved : ((movedPosition (s.coilStart l) pitch before up).1 != before) = true ↔ (u.pos l).position ≠ before := by
    rw [bne_iff_ne, hupos]
  obtain ⟨hlimit, hslip, hmark, hcut, hwindow, hstall⟩ := mem_countEvents
    (s := authorityMoved (counted s w.channel w.date p) l pitch up) (l := l)
    (clamped := (movedPosition (s.coilStart l) pitch before up).2.2)
    (moved := (movedPosition (s.coilStart l) pitch before up).1 != before)
  have hmem : ∀ e, e ∈ order ↔ e ∈ (authorityMoved (counted s w.channel w.date p) l pitch up).countEvents l
      (movedPosition (s.coilStart l) pitch before up).2.2
      ((movedPosition (s.coilStart l) pitch before up).1 != before) := fun e => hperm.mem_iff
  have hlimit' : .runLimit ∈ order ↔ up = true ∧ 140737488355327 < before + pitch := by
    rw [hmem, hlimit, movedPosition_clamped]
  have hdue : u.slipDue l = (authorityMoved (counted s w.channel w.date p) l pitch up).slipDue l ∧
      u.markDue l = (authorityMoved (counted s w.channel w.date p) l pitch up).markDue l ∧
      u.cutPending l = (authorityMoved (counted s w.channel w.date p) l pitch up).cutPending l ∧
      (∀ h, u.windowDue l h = (authorityMoved (counted s w.channel w.date p) l pitch up).windowDue l h) ∧
      ∀ h, u.stallDue l h = (authorityMoved (counted s w.channel w.date p) l pitch up).stallDue l h := by
    rw [hu]; exact ⟨rfl, rfl, rfl, fun _ => rfl, fun _ => rfl⟩
  have hhead : ∀ h, u.head h = s.head h := fun h => by rw [hu, authorityMoved_frame]; rfl
  have hbound : u.boundRecipe l = s.boundRecipe l := by
    have hrecipe : u.recipe = s.recipe := by rw [hu, authorityMoved_frame]; rfl
    have hslot : (u.line l).bound = (s.line l).bound := by rw [hline, if_pos rfl]
    show (u.line l).bound.bind u.recipe = (s.line l).bound.bind s.recipe
    rw [hslot, hrecipe]
  have hassign : ∀ h, AssignedTo (authorityMoved (counted s w.channel w.date p) l pitch up) h l ↔ AssignedTo s h l :=
    fun h => by rw [authorityMoved_frame]; rfl
  refine ⟨_, u, order, exec_quadratureCount p hacc (quadrature_of_authority hrole), ?_⟩
  rw [hstep]
  refine ⟨fun hup habove => ?_, fun hup hbelow => ?_, fun hup hbelow => ?_, fun hup habove => ?_, fun x hx => ?_, rfl, ?_, ?_,
    fun x hx => ?_, ?_, ?_, ?_, hlimit', ?_, ?_, ?_, fun h => ⟨fun hmemh => ?_, fun hne hassigned x r hw hr => ⟨fun hreached => ?_,
    fun hst hreached => ?_⟩⟩⟩
  · rw [hself, hclamp, hup, hdown habove]; exact ⟨rfl, rfl⟩
  · rw [hself, hclamp, hup, hfloor hbelow]; exact ⟨rfl, rfl⟩
  · rw [hself, hclamp, hup, hfree hbelow]; exact ⟨rfl, rfl⟩
  · rw [hself, hclamp, chooseFrame_line, hup, hceiling habove]
    refine ⟨rfl, ?_, rfl⟩
    rw [countTest_eq]
    refine stoppedFor_of_mem ?_ (hlimit'.mpr ⟨hup, habove⟩)
    rw [hline, if_pos rfl]
    simpa [State.runOpen] using hrun
  · rw [hposition, hpos, if_neg hx]
  · rw [hu, authorityMoved_frame]; rfl
  · rw [hpos, if_pos rfl, hself]
  · rw [hpos, hline, if_neg hx, if_neg hx]; exact ⟨rfl, rfl⟩
  · rw [hline, if_pos rfl]
  · exact hperm.nodup_iff.mpr (countEvents_nodup _ _ _ _)
  · rw [hfilter]; exact countEvents_filter _ _ _ _
  · rw [hmem, hslip, ← hdue.1, slipDue_iff_exists, hline, if_pos rfl]
  · rw [hmem, hmark, hmoved, ← hdue.2.1, markDue_iff, hpos, if_pos rfl]
  · rw [hmem, hcut, hmoved, ← hdue.2.2.1, cutPending_iff]
  · rw [hmem, hmem, hwindow, hstall, hmoved] at hmemh
    rcases hmemh with ⟨hne, htest⟩ | ⟨hne, htest⟩
    · exact ⟨hne, (hassign h).mp (mem_headTests htest)⟩
    · exact ⟨hne, (hassign h).mp (mem_headTests htest)⟩
  · rw [hmem, hwindow, hmoved]
    refine ⟨hne, mem_headTests_of_due ((hassign h).mpr hassigned) ?_⟩
    rw [← hdue.2.2.2.1 h]
    exact windowDue_of (s := u) (by rw [hhead, hw]) (by rw [hbound, hr]) hreached
  · rw [hmem, hstall, hmoved]
    refine ⟨hne, mem_headTests_of_due ((hassign h).mpr hassigned) ?_⟩
    rw [← hdue.2.2.2.2 h]
    exact stallDue_of (s := u) (by rw [hhead, hw]) (by rw [hbound, hr]) (by rw [hhead, hst]) hreached

end Sys2Proof.Proofs

/-! SPLICE_EDGE: the count, the spacing test and the splice list; the statement O27. -/

namespace Sys2Proof.Proofs

open Sys2Proof.Machine Sys2Proof.Safety

variable {s : State} {ch : ChannelId} {l : LineId}

/-! ## The splice list (R120) -/

/-- The spacing of a line's splices, in nanometres. -/
def spliceSpacing (s : State) (l : LineId) : Nat := (s.line l).cfg.spliceSpacing.getD 0 * 1000000

/-- A coordinate is held by the splice list, or one nearer than the spacing is. -/
def SpliceHeld (s : State) (l : LineId) (x : Nat) : Prop :=
  ∃ y ∈ (s.spanRec l).splices, x = y ∨ x < y + spliceSpacing s l ∧ y < x + spliceSpacing s l

theorem distance_lt_iff (x y d : Nat) : distance x y < d ↔ x < y + d ∧ y < x + d := by
  unfold distance
  omega

theorem not_spliceHeld_of {x : Nat} (h : ∀ y ∈ (s.spanRec l).splices, x ≠ y ∧
    (x + spliceSpacing s l ≤ y ∨ y + spliceSpacing s l ≤ x)) : ¬SpliceHeld s l x := by
  rintro ⟨y, hy, rfl | ⟨hlt, hlt'⟩⟩
  · exact (h _ hy).1 rfl
  · have := (h y hy).2
    omega

theorem not_spliceHeld_iff {x : Nat} : ¬SpliceHeld s l x ↔ ∀ y ∈ (s.spanRec l).splices, x ≠ y ∧
    (x + spliceSpacing s l ≤ y ∨ y + spliceSpacing s l ≤ x) := by
  refine ⟨fun h y hy => ⟨fun e => h ⟨y, hy, .inl e⟩, ?_⟩, not_spliceHeld_of⟩
  exact Classical.byContradiction fun hnear => h ⟨y, hy, .inr (by omega)⟩

theorem insertSplice_eq (x : Nat) (ys : List Nat) :
    insertSplice x ys = ys.takeWhile (· ≤ x) ++ x :: ys.dropWhile (· ≤ x) := by
  induction ys with
  | nil => rfl
  | cons y ys ih =>
    by_cases hy : x < y
    · simp [insertSplice, hy, Nat.not_le.mpr hy]
    · simp [insertSplice, hy, Nat.not_lt.mp hy, ih]

theorem submitSplice_of_held {x : Nat} (h : SpliceHeld s l x) : s.submitSplice l x = s := by
  obtain ⟨y, hy, hnear⟩ := h
  unfold State.submitSplice
  dsimp only
  split
  · rfl
  · split
    · rfl
    · rename_i hany
      split
      · rfl
      · rename_i hcontains
        rcases hnear with rfl | hnear
        · exact absurd (List.contains_iff_mem.mpr hy) hcontains
        · exact absurd (List.any_eq_true.mpr ⟨y, hy, decide_eq_true ((distance_lt_iff x y _).mpr hnear)⟩) hany

/-- A splice coordinate counted as lost. -/
def spliceLost (s : State) (l : LineId) : State := s.modSpanRec l fun r => { r with lostSplices := min 65535 (r.lostSplices + 1) }

theorem submitSplice_of_new {x : Nat} (hrun : s.runOpen l = true) (h : ¬SpliceHeld s l x) : s.submitSplice l x =
    if (s.spanRec l).splices.length < 16 then
      s.modSpanRec l fun r => SpanRec.bump { r with splices := insertSplice x r.splices }
    else if (s.spanRec l).lostSplices = 0 then
      (spliceLost s l).notify (some l) (.spliceOverflow (x / 1000000) ((s.pos l).position / 1000000))
    else spliceLost s l := by
  have hany : ¬((s.spanRec l).splices.any fun y =>
      decide (distance x y < (s.line l).cfg.spliceSpacing.getD 0 * nmPerMm)) = true := fun hany => by
    obtain ⟨y, hy, hlt⟩ := List.any_eq_true.mp hany
    exact h ⟨y, hy, .inr ((distance_lt_iff x y _).mp (of_decide_eq_true hlt))⟩
  have hcontains : ¬(s.spanRec l).splices.contains x = true := fun hmem =>
    h ⟨x, List.contains_iff_mem.mp hmem, .inl rfl⟩
  unfold State.submitSplice
  dsimp only
  rw [if_neg (by simp [hrun]), if_neg hany, if_neg hcontains]
  rfl

theorem submitSplice_frame (s : State) (l : LineId) (x : Nat) :
    s.submitSplice l x = { s with spanRecs := (s.submitSplice l x).spanRecs, link := (s.submitSplice l x).link } := by
  unfold State.submitSplice
  dsimp only
  split
  · rfl
  split
  · rfl
  split
  · rfl
  split
  · rfl
  split
  · rw [notify_eq]; rfl
  · rfl

/-! ## SPLICE_EDGE (R31, R43) -/

/-- The spacing test of an edge passes where the channel's capture is no nearer than the spacing. -/
theorem spacingPasses_iff (capture : Option Nat) (p n : Nat) : spacingPasses capture p n = true ↔
    ∀ y, capture = some y → p + n * 1000000 ≤ y ∨ y + n * 1000000 ≤ p := by
  cases capture with
  | none => simp [spacingPasses]
  | some x =>
    show decide (n * nmPerMm ≤ distance p x) = true ↔ _
    rw [decide_eq_true_eq]
    simp only [Option.some.injEq, forall_eq', nmPerMm, distance]
    omega

/-- The state with a splice edge counted in its channel. -/
def spliceCounted (s : State) (ch : ChannelId) (a b : Bool) : State :=
  s.modChannel ch fun c => { c with refA := a, refB := b, count := c.count + 1 }

theorem exec_spliceEdge {w : ChannelChange} {a b : Bool} (hacc : Accepted s w) (hrole : (s.channel w.channel).role = .splice) :
    exec (.spliceEdge w a b) s = .next (s.spliceStep w.channel a b).chooseFrame := by
  refine congrArg done ((filtered_of_accepted hacc _).trans ?_)
  simp only [State.takeLevels, hrole]

theorem risingEdge_eq_true {inv before after : Bool} (h : after ≠ before) (h' : after ≠ inv) :
    risingEdge inv before after = true := by
  simp [risingEdge, h', Ne.symm h]

theorem spliceCounted_servedLine (s : State) (ch : ChannelId) (a b : Bool) :
    (spliceCounted s ch a b).servedLine ch = s.servedLine ch := servedLine_modChannel rfl rfl

theorem spliceStep_eq {a b : Bool} (ha : a ≠ (s.channel ch).refA) (ha' : a ≠ (s.channel ch).invert) :
    s.spliceStep ch a b = ((s.servedLine ch).map fun l =>
      if s.runOpen l && spacingPasses (s.channel ch).capture (s.pos l).position ((s.line l).cfg.spliceSpacing.getD 0) then
        ((spliceCounted s ch a b).modChannel ch fun c => { c with capture := some (s.pos l).position }).spliceCaptured l
          (s.pos l).position
      else spliceCounted s ch a b).getD (spliceCounted s ch a b) := by
  have hedge := risingEdge_eq_true ha ha'
  unfold State.spliceStep
  dsimp only
  rw [hedge]
  have hserved := spliceCounted_servedLine s ch a b
  have hstate : (s.modChannel ch fun c => { c.withLevels a b with count := if true then c.count + 1 else c.count }) =
      spliceCounted s ch a b := rfl
  rw [hstate, hserved]
  cases s.servedLine ch <;> rfl

/-- The state with a splice edge counted and captured in its channel. -/
def spliceTaken (s : State) (ch : ChannelId) (a b : Bool) (p : Nat) : State :=
  (spliceCounted s ch a b).modChannel ch fun c => { c with capture := some p }

theorem spliceStep_of_idle {a b : Bool} (ha : a ≠ (s.channel ch).refA) (ha' : a ≠ (s.channel ch).invert)
    (hidle : ∀ l, s.servedLine ch = some l → s.runOpen l = false) : s.spliceStep ch a b = spliceCounted s ch a b := by
  rw [spliceStep_eq ha ha']
  cases hserved : s.servedLine ch with
  | none => rfl
  | some l => simp [hidle l hserved]

theorem spliceStep_of_near {a b : Bool} (ha : a ≠ (s.channel ch).refA) (ha' : a ≠ (s.channel ch).invert)
    (hserved : s.servedLine ch = some l)
    (hnear : ¬∀ y, (s.channel ch).capture = some y →
      (s.pos l).position + spliceSpacing s l ≤ y ∨ y + spliceSpacing s l ≤ (s.pos l).position) :
    s.spliceStep ch a b = spliceCounted s ch a b := by
  have hfails := Bool.eq_false_iff.mpr (mt (spacingPasses_iff _ _ _).mp hnear)
  rw [spliceStep_eq ha ha', hserved, Option.map_some, Option.getD_some, hfails, Bool.and_false]
  exact if_neg nofun

theorem spliceStep_of_passed {a b : Bool} (ha : a ≠ (s.channel ch).refA) (ha' : a ≠ (s.channel ch).invert)
    (hserved : s.servedLine ch = some l) (hrun : s.runOpen l = true)
    (hpass : ∀ y, (s.channel ch).capture = some y →
      (s.pos l).position + spliceSpacing s l ≤ y ∨ y + spliceSpacing s l ≤ (s.pos l).position) :
    s.spliceStep ch a b = (spliceTaken s ch a b (s.pos l).position).submitSplice l
      ((s.pos l).position + (s.line l).cfg.spliceOffset.getD 0 * 1000000) := by
  have hpasses := (spacingPasses_iff _ _ _).mpr hpass
  rw [spliceStep_eq ha ha', hserved, Option.map_some, Option.getD_some, hpasses, hrun]
  rfl

theorem spliceCounted_channel (s : State) (ch : ChannelId) (a b : Bool) (d : ChannelId) : (spliceCounted s ch a b).channel d =
    if d = ch then { s.channel ch with refA := a, refB := b, count := (s.channel ch).count + 1 } else s.channel d :=
  modChannel_channel s ch _ d

theorem spliceTaken_channel (s : State) (ch : ChannelId) (a b : Bool) (p : Nat) (d : ChannelId) :
    (spliceTaken s ch a b p).channel d = if d = ch then
      { s.channel ch with refA := a, refB := b, count := (s.channel ch).count + 1, capture := some p } else s.channel d := by
  rw [spliceTaken, modChannel_channel, spliceCounted_channel, spliceCounted_channel, if_pos rfl]
  split
  · rfl
  · rfl

theorem chooseFrame_spanRec (s : State) (l : LineId) : s.chooseFrame.spanRec l = s.spanRec l := by
  rw [chooseFrame_eq_link]; rfl

theorem submitSplice_channel (s : State) (l : LineId) (x : Nat) (d : ChannelId) :
    (s.submitSplice l x).channel d = s.channel d := by
  rw [submitSplice_frame]; rfl

/-- A splice submitted to a list with room joins it in order, and tells nothing. -/
theorem submitSplice_of_room {x : Nat} (hrun : s.runOpen l = true) (h : ¬SpliceHeld s l x)
    (hroom : (s.spanRec l).splices.length < 16) :
    ((s.submitSplice l x).spanRec l).splices =
        (s.spanRec l).splices.takeWhile (· ≤ x) ++ x :: (s.spanRec l).splices.dropWhile (· ≤ x) ∧
      ((s.submitSplice l x).spanRec l).lostSplices = (s.spanRec l).lostSplices ∧ (s.submitSplice l x).link = s.link := by
  rw [submitSplice_of_new hrun h, if_pos hroom, modSpanRec_spanRec_self]
  exact ⟨insertSplice_eq x _, rfl, rfl⟩

/-- A splice submitted to a full list is lost, and the first loss is told. -/
theorem submitSplice_of_full {x : Nat} (hrun : s.runOpen l = true) (h : ¬SpliceHeld s l x)
    (hfull : 16 ≤ (s.spanRec l).splices.length) :
    (s.submitSplice l x).spanRec l =
        { s.spanRec l with lostSplices := min 65535 ((s.spanRec l).lostSplices + 1) } ∧
      ((s.spanRec l).lostSplices = 0 → (s.submitSplice l x).link =
        (s.notify (some l) (.spliceOverflow (x / 1000000) ((s.pos l).position / 1000000))).link) ∧
      ((s.spanRec l).lostSplices ≠ 0 → (s.submitSplice l x).link = s.link) := by
  rw [submitSplice_of_new hrun h, if_neg (by omega)]
  have hlost : (spliceLost s l).spanRec l =
      { s.spanRec l with lostSplices := min 65535 ((s.spanRec l).lostSplices + 1) } := modSpanRec_spanRec_self s l _
  split
  next hzero =>
    exact ⟨by rw [notify_eq]; exact hlost,
      fun _ => (TellsAs.notify (s := spliceLost s l) (t := s) ⟨rfl, rfl⟩ _ _).link, fun h => absurd hzero h⟩
  next hzero => exact ⟨hlost, fun h => absurd h hzero, fun _ => rfl⟩

/-- Settles O27: an edge that does not pass the spacing test is counted alone; one that passes is captured, and its coordinate
held already, stored or lost. -/
theorem spliceEdgeCapturesSplice : Obligations.SpliceEdgeCapturesSplice := by
  intro s w a b hacc hrole ha ha' ch c c'
  refine ⟨fun hidle => ?_, fun l hserved hrun => ?_⟩
  · have hstep := spliceStep_of_idle (b := b) ha ha' hidle
    refine ⟨_, exec_spliceEdge hacc hrole, ?_, fun d hd => ?_, ?_⟩
    · rw [hstep, spliceCounted_channel, if_pos rfl]
    · rw [hstep, spliceCounted_channel, if_neg hd]
    · rw [hstep]; rfl
  intro p x spacing
  refine ⟨_, exec_spliceEdge hacc hrole, ?_⟩
  by_cases hpass : ∀ y, c.capture = some y → p + spacing ≤ y ∨ y + spacing ≤ p
  case neg =>
    rw [spliceStep_of_near ha ha' hserved hpass]
    refine ⟨fun d hd => ?_, ?_, fun y _ => chooseFrame_spanRec _ y, fun y _ _ _ => ⟨?_, chooseFrame_spanRec _ l⟩,
      fun h => absurd h hpass, fun h => absurd h.1 hpass, fun _ => chooseFrame_link rfl⟩
    · rw [chooseFrame_channel, spliceCounted_channel, if_neg hd]
    · rw [chooseFrame_eq_link]; rfl
    · rw [chooseFrame_channel, spliceCounted_channel, if_pos rfl]
  case pos =>
    rw [spliceStep_of_passed ha ha' hserved hrun hpass]
    have hchannel : ∀ d, ((spliceTaken s ch a b p).submitSplice l x).chooseFrame.channel d = if d = ch then
        { c' with capture := some p } else s.channel d := fun d => by
      rw [chooseFrame_channel, submitSplice_channel, spliceTaken_channel]
    have hrun' : (spliceTaken s ch a b p).runOpen l = true := hrun
    refine ⟨fun d hd => by rw [hchannel, if_neg hd], ?_, fun y hy => ?_, fun y hy hlt hlt' => ?_,
      fun _ => ⟨by rw [hchannel, if_pos rfl], fun hheld => ?_, fun hnew => ⟨fun hroom => ?_, fun hfull => ?_⟩⟩,
      fun hlost hzero => ?_, fun hkept => ?_⟩
    · rw [chooseFrame_eq_link, submitSplice_frame]; rfl
    · rw [chooseFrame_spanRec, submitSplice_spanRec_of_ne _ hy]; rfl
    · have := hpass y hy
      omega
    · rw [chooseFrame_spanRec, submitSplice_of_held (s := spliceTaken s ch a b p) hheld]; rfl
    · obtain ⟨hsplices, hlost, -⟩ := submitSplice_of_room hrun' (not_spliceHeld_of hnew) hroom
      rw [chooseFrame_spanRec]
      exact ⟨hlost, hsplices⟩
    · obtain ⟨hrec, -, -⟩ := submitSplice_of_full hrun' (not_spliceHeld_of hnew) hfull
      rw [chooseFrame_spanRec, hrec]
      exact ⟨rfl, rfl⟩
    · obtain ⟨-, hnew, hfull⟩ := hlost
      obtain ⟨-, htold, -⟩ := submitSplice_of_full hrun' (not_spliceHeld_of hnew) hfull
      exact chooseFrame_link ((htold hzero).trans 
        (TellsAs.notify (s := spliceTaken s ch a b p) (t := s) ⟨rfl, rfl⟩ _ _).link)
    · refine chooseFrame_link ?_
      by_cases hheld : SpliceHeld (spliceTaken s ch a b p) l x
      · rw [submitSplice_of_held hheld]; rfl
      by_cases hfull : 16 ≤ (s.spanRec l).splices.length
      · obtain ⟨-, -, hquiet⟩ := submitSplice_of_full hrun' hheld hfull
        rcases hkept with hkept | hkept
        · exact absurd ⟨hpass, not_spliceHeld_iff.mp hheld, hfull⟩ hkept
        · exact hquiet hkept
      · exact (submitSplice_of_room hrun' hheld (Nat.lt_of_not_le hfull)).2.2

end Sys2Proof.Proofs

/-! The judgment of a row: what each step leaves, and which states are judged alike; the statement O56. -/

namespace Sys2Proof.Proofs

open Sys2Proof.Machine Sys2Proof.Safety

variable {s t : State} {l : LineId}

/-! ## What the judgment of a row leaves -/

/-- A line record that stop causes have been offered to. -/
structure LineOffered (r q : LineRec) : Prop where
  frame : q = { r with state := q.state, causes := q.causes }
  idle : q.state = .idle ↔ r.state = .idle
  stopped : ∀ x, StoppedFor r x → StoppedFor q x

theorem LineOffered.refl (r : LineRec) : LineOffered r r := ⟨rfl, .rfl, fun _ => id⟩

theorem LineOffered.of_eq {r q : LineRec} (h : q = r) : LineOffered r q := h ▸ .refl q

theorem LineOffered.trans {r q p : LineRec} (a : LineOffered r q) (b : LineOffered q p) : LineOffered r p :=
  ⟨by rw [b.frame, a.frame], b.idle.trans a.idle, fun x => b.stopped x ∘ a.stopped x⟩

theorem LineOffered.runs {r q : LineRec} (h : LineOffered r q) (hrun : r.state ≠ .idle) : q.state ≠ .idle := mt h.idle.mp hrun

theorem LineOffered.afterOffer (r : LineRec) (x : StopCause) : LineOffered r (afterOffer r x) := by
  refine ⟨?_, afterOffer_idle_iff r x, fun y => ?_⟩ <;> unfold Safety.afterOffer
  · split
    · rfl
    · rfl
    · split <;> rfl
  · split
    · exact fun h => ⟨rfl, has_add_of_has h.2⟩
    · exact fun h => ⟨h.1, has_add_of_has h.2⟩
    · split
      · exact fun h => ⟨h.1, has_add_of_has h.2⟩
      · exact id

/-- A state that differs from another in the KS record, the line record and the span record of a line, and in the link. -/
structure RowFrame (l : LineId) (s t : State) : Prop where
  frame : t = { s with knots := t.knots, lines := t.lines, spanRecs := t.spanRecs, link := t.link }
  others : ∀ y, y ≠ l → t.knot y = s.knot y ∧ t.line y = s.line y ∧ t.spanRec y = s.spanRec y
  line : LineOffered (s.line l) (t.line l)

namespace RowFrame

theorem refl (s : State) : RowFrame l s s := ⟨rfl, fun _ _ => ⟨rfl, rfl, rfl⟩, .refl _⟩

theorem trans {u : State} (h : RowFrame l s t) (g : RowFrame l t u) : RowFrame l s u := by
  refine ⟨?_, fun y hy => ?_, h.line.trans g.line⟩
  · rw [g.frame, h.frame]
  · obtain ⟨hknot, hline, hspan⟩ := h.others y hy
    obtain ⟨gknot, gline, gspan⟩ := g.others y hy
    exact ⟨gknot.trans hknot, gline.trans hline, gspan.trans hspan⟩

theorem modKnot (h : RowFrame l s t) (f : KnotRec → KnotRec) : RowFrame l s (t.modKnot l f) :=
  h.trans ⟨rfl, fun _ hy => ⟨modKnot_knot_of_ne _ _ _ hy, rfl, rfl⟩, .refl _⟩

theorem submit (h : RowFrame l s t) (k : SpanKind) (c : SpanSource) (x : Submission) : RowFrame l s (t.submit l k c x) := by
  refine h.trans ⟨?_, fun y hy => ⟨?_, ?_, submit_spanRec_of_ne _ hy _ _ _⟩, .of_eq ?_⟩ <;> rw [submit_frame] <;> rfl

theorem notify (h : RowFrame l s t) (x : Option LineId) (b : NoticeBody) : RowFrame l s (t.notify x b) := by
  refine h.trans ⟨?_, fun y hy => ?_, .of_eq ?_⟩ <;> rw [notify_eq]
  · exact ⟨rfl, rfl, rfl⟩
  · rfl

theorem offerCause (h : RowFrame l s t) (x : StopCause) : RowFrame l s (t.offerCause l x) := by
  refine h.trans ⟨?_, fun y hy => ⟨?_, offerCause_line_of_ne _ hy _, ?_⟩, ?_⟩
  · rw [offerCause_frame]
  · rw [offerCause_frame]; rfl
  · rw [offerCause_frame]; rfl
  · rw [offerCause_line_self]
    exact .afterOffer _ _

end RowFrame

/-! ## The columns (R106 to R108) -/

theorem onColumn_column (k : KnotRec) {c : Nat} (hc : c < 64) (f : ColumnHistory → ColumnHistory) (d : Nat) :
    (k.onColumn c f).column d = if d = c then f (k.column d) else k.column d := by
  simp only [KnotRec.column, KnotRec.onColumn, Vector.getElem?_mapIdx]
  cases hd : k.columns[d]? with
  | none =>
    have : 64 ≤ d := by simpa using hd
    rw [if_neg (by omega)]
    rfl
  | some h =>
    by_cases hdc : d = c
    · simp [hdc]
    · simp [hdc]

theorem onColumn_onColumn (k : KnotRec) (c : Nat) (x y : ColumnHistory) :
    (k.onColumn c fun _ => x).onColumn c (fun _ => y) = k.onColumn c fun _ => y := by
  simp only [KnotRec.onColumn]
  congr 1
  ext i hi : 1
  simp only [Vector.getElem_mapIdx]
  split <;> rfl

/-- The miss count of a column missed (R107). -/
def missCount (h : ColumnHistory) : Nat := min 15 (h.misses + 1)

/-- The span a column missed holds (R107). -/
def missSpan (h : ColumnHistory) (coord : Nat) : ColumnSpanKind × Nat := h.span.getD (.knot, coord)

/-- The submission of a column missed (R107). -/
def missSubmitted (s : State) (l : LineId) (c coord : Nat) : State :=
  match ((s.knot l).column c).span with
  | none => s.submit l .knot (.column (c + 1)) (.openSpan coord (some coord) (missCount ((s.knot l).column c)))
  | some (kind, start) =>
    s.submit l kind.kind (.column (c + 1)) (.extend (max coord start) (missCount ((s.knot l).column c)))

/-- The column missed, with its count and the span it holds. -/
def missMarked (s : State) (l : LineId) (c coord : Nat) : State :=
  (missSubmitted s l c coord).modKnot l (·.onColumn c fun _ =>
    ⟨missCount ((s.knot l).column c), some (missSpan ((s.knot l).column c) coord)⟩)

/-- A column missed reaches the break threshold with a KNOT span: the span is upgraded (R108). -/
def breakMarked (s : State) (l : LineId) (c coord : Nat) : State :=
  ((missMarked s l c coord).submit l .break (.column (c + 1)) .upgrade).modKnot l (·.onColumn c fun _ =>
    ⟨missCount ((s.knot l).column c), some (.break, (missSpan ((s.knot l).column c) coord).2)⟩)

/-- TWINE_BREAK is told of the upgrade (R108). -/
def breakTold (s : State) (l : LineId) (k : KnotSpec) (c coord : Nat) : State :=
  (breakMarked s l c coord).notify (some l) (.twineBreak (c + 1) ((breakMarked s l c coord).knot l).rowIndex
    (mm (missSpan ((s.knot l).column c) coord).2) (missCount ((s.knot l).column c))
    (k.stopOnBreak && !((breakMarked s l c coord).line l).causes.twineBreak))

/-- The column missed, before TWINE_BREAK is offered. -/
def breakJudged (s : State) (l : LineId) (k : KnotSpec) (c coord : Nat) : State :=
  match (missSpan ((s.knot l).column c) coord).1 with
  | .knot => breakTold s l k c coord
  | .break => missMarked s l c coord

theorem columnMissed_eq (s : State) (l : LineId) (k : KnotSpec) (c coord : Nat) : s.columnMissed l k c coord =
    if missCount ((s.knot l).column c) < k.breakThreshold then missMarked s l c coord
    else if k.stopOnBreak then (breakJudged s l k c coord).offerCause l .twineBreak else breakJudged s l k c coord := by
  rfl

theorem submit_knot (s : State) (l : LineId) (k : SpanKind) (c : SpanSource) (x : Submission) (y : LineId) :
    (s.submit l k c x).knot y = s.knot y := by
  rw [submit_frame]; rfl

theorem missSubmitted_knot (s : State) (l : LineId) (c coord : Nat) (y : LineId) :
    (missSubmitted s l c coord).knot y = s.knot y := by
  unfold missSubmitted
  split <;> exact submit_knot ..

theorem RowFrame.missSubmitted (s : State) (l : LineId) (c coord : Nat) : RowFrame l s (missSubmitted s l c coord) := by
  unfold Proofs.missSubmitted
  split <;> exact (RowFrame.refl s).submit ..

theorem missMarked_knot (s : State) (l : LineId) (c coord : Nat) : (missMarked s l c coord).knot l =
    (s.knot l).onColumn c fun _ =>
      ⟨missCount ((s.knot l).column c), some (missSpan ((s.knot l).column c) coord)⟩ := by
  rw [missMarked, modKnot_knot_self, missSubmitted_knot]

theorem breakMarked_knot (s : State) (l : LineId) (c coord : Nat) : (breakMarked s l c coord).knot l =
    (s.knot l).onColumn c fun _ =>
      ⟨missCount ((s.knot l).column c), some (.break, (missSpan ((s.knot l).column c) coord).2)⟩ := by
  rw [breakMarked, modKnot_knot_self, submit_knot, missMarked_knot, onColumn_onColumn]

theorem RowFrame.missMarked (s : State) (l : LineId) (c coord : Nat) : RowFrame l s (missMarked s l c coord) :=
  (RowFrame.missSubmitted s l c coord).modKnot _

theorem RowFrame.breakMarked (s : State) (l : LineId) (c coord : Nat) : RowFrame l s (breakMarked s l c coord) :=
  ((RowFrame.missMarked s l c coord).submit ..).modKnot _

theorem RowFrame.breakJudged (s : State) (l : LineId) (k : KnotSpec) (c coord : Nat) :
    RowFrame l s (breakJudged s l k c coord) := by
  unfold Proofs.breakJudged
  split
  · exact (RowFrame.breakMarked s l c coord).notify ..
  · exact RowFrame.missMarked s l c coord

theorem RowFrame.judgedColumn (h : RowFrame l s t) (k : KnotSpec) (c coord : Nat) (m : ColumnMark) :
    RowFrame l s (t.judgedColumn l k c coord m) := by
  cases m with
  | unknown => exact h
  | tied =>
    unfold State.judgedColumn State.columnTied
    refine RowFrame.modKnot ?_ _
    split
    · exact h.submit ..
    · exact h
  | missed =>
    refine h.trans ?_
    show RowFrame l t (t.columnMissed l k c coord)
    rw [columnMissed_eq]
    split
    · exact RowFrame.missMarked ..
    · split
      · exact (RowFrame.breakJudged ..).offerCause _
      · exact RowFrame.breakJudged ..

/-- The kind of the span of a column judged missed. -/
def missKind (h : ColumnHistory) (k : KnotSpec) (coord : Nat) : ColumnSpanKind :=
  if missCount h < k.breakThreshold then (missSpan h coord).1 else .break

theorem breakTold_knot (s : State) (l : LineId) (k : KnotSpec) (c coord : Nat) :
    (breakTold s l k c coord).knot l = (breakMarked s l c coord).knot l := by
  rw [breakTold, notify_eq]; rfl

theorem breakJudged_knot (s : State) (l : LineId) (k : KnotSpec) (c coord : Nat) : (breakJudged s l k c coord).knot l =
    (s.knot l).onColumn c fun _ =>
      ⟨missCount ((s.knot l).column c), some (.break, (missSpan ((s.knot l).column c) coord).2)⟩ := by
  unfold breakJudged
  split
  next => rw [breakTold_knot, breakMarked_knot]
  next hkind => rw [missMarked_knot, ← hkind]

theorem offerCause_knot (s : State) (l : LineId) (x : StopCause) (y : LineId) : (s.offerCause l x).knot y = s.knot y := by
  rw [offerCause_frame]; rfl

theorem columnMissed_knot (s : State) (l : LineId) (k : KnotSpec) (c coord : Nat) : (s.columnMissed l k c coord).knot l =
    (s.knot l).onColumn c fun _ => ⟨missCount ((s.knot l).column c),
      some (missKind ((s.knot l).column c) k coord, (missSpan ((s.knot l).column c) coord).2)⟩ := by
  rw [columnMissed_eq, missKind]
  split
  · rw [missMarked_knot]
  · split
    · rw [offerCause_knot, breakJudged_knot]
    · rw [breakJudged_knot]

theorem columnTied_knot (s : State) (l : LineId) (c coord : Nat) :
    (s.columnTied l c coord).knot l = (s.knot l).onColumn c fun _ => ⟨0, none⟩ := by
  unfold State.columnTied
  rw [modKnot_knot_self]
  split
  · rw [submit_knot]
  · rfl

/-- The judgment of a column changes the columns alone of its line's KS record. -/
theorem judgedColumn_knot (s : State) (l : LineId) (k : KnotSpec) (c coord : Nat) (m : ColumnMark) :
    (s.judgedColumn l k c coord m).knot l =
      { s.knot l with columns := ((s.judgedColumn l k c coord m).knot l).columns } := by
  cases m with
  | unknown => rfl
  | tied => rw [show s.judgedColumn l k c coord .tied = s.columnTied l c coord from rfl, columnTied_knot]; rfl
  | missed => rw [show s.judgedColumn l k c coord .missed = s.columnMissed l k c coord from rfl, columnMissed_knot]; rfl

/-- The columns of a row judged in order. -/
def columnsJudged (s : State) (l : LineId) (k : KnotSpec) (coord : Nat) (marks : List (ColumnMark × Nat)) : State :=
  marks.foldl (fun a m => a.judgedColumn l k m.2 coord m.1) s

theorem RowFrame.columnsJudged (h : RowFrame l s t) (k : KnotSpec) (coord : Nat) (marks : List (ColumnMark × Nat)) :
    RowFrame l s (columnsJudged t l k coord marks) :=
  foldl_keeps (fun _ _ _ hu => hu.judgedColumn _ _ _ _) h

theorem columnsJudged_knot (s : State) (l : LineId) (k : KnotSpec) (coord : Nat) (marks : List (ColumnMark × Nat)) :
    (columnsJudged s l k coord marks).knot l =
      { s.knot l with columns := ((columnsJudged s l k coord marks).knot l).columns } := by
  induction marks generalizing s with
  | nil => rfl
  | cons m marks ih => exact (ih _).trans (by rw [judgedColumn_knot]; rfl)

/-- Columns without a judgment change nothing. -/
theorem columnsJudged_of_unknown {marks : List (ColumnMark × Nat)} (h : ∀ m ∈ marks, m.1 = .unknown) (s : State)
    (k : KnotSpec) (coord : Nat) : columnsJudged s l k coord marks = s := by
  induction marks with
  | nil => rfl
  | cons m marks ih =>
    have hm : s.judgedColumn l k m.2 coord m.1 = s := by rw [h m (.head _)]; rfl
    show columnsJudged (s.judgedColumn l k m.2 coord m.1) l k coord marks = s
    rw [hm, ih fun x hx => h x (.tail _ hx)]

/-! ## The UNSEEN and MESH steps (R109, R110) -/

theorem judgeUnseen_of_free (h : (s.knot l).unseenSpan = none) (lo hi : Nat) : s.judgeUnseen l true lo hi =
    (s.submit l .unseen .line (.openOrExtend lo hi 0)).modKnot l fun k => { k with unseenSpan := some lo } := by
  simp only [State.judgeUnseen, h]

theorem judgeUnseen_of_held {start : Nat} (h : (s.knot l).unseenSpan = some start) (lo hi : Nat) :
    s.judgeUnseen l true lo hi = s.submit l .unseen .line (.extend (max hi start) 0) ∧
      s.judgeUnseen l false lo hi =
        (s.submit l .unseen .line (.close (max lo start))).modKnot l fun k => { k with unseenSpan := none } := by
  simp only [State.judgeUnseen, h, and_self]

theorem judgeUnseen_of_none (h : (s.knot l).unseenSpan = none) (lo hi : Nat) : s.judgeUnseen l false lo hi = s := by
  simp only [State.judgeUnseen, h]

theorem RowFrame.judgeUnseen (h : RowFrame l s t) (overrun : Bool) (lo hi : Nat) :
    RowFrame l s (t.judgeUnseen l overrun lo hi) := by
  unfold State.judgeUnseen
  split
  · exact (h.submit ..).modKnot _
  · exact h.submit ..
  · exact (h.submit ..).modKnot _
  · exact h

theorem judgeUnseen_knot (s : State) (l : LineId) (overrun : Bool) (lo hi : Nat) : (s.judgeUnseen l overrun lo hi).knot l =
    { s.knot l with unseenSpan := if overrun then some ((s.knot l).unseenSpan.getD lo) else none } := by
  cases hheld : (s.knot l).unseenSpan with
  | none =>
    cases overrun
    · rw [judgeUnseen_of_none hheld]
      simp [← hheld]
    · rw [judgeUnseen_of_free hheld, modKnot_knot_self, submit_knot]
      rfl
  | some start =>
    cases overrun
    · rw [(judgeUnseen_of_held hheld _ _).2, modKnot_knot_self, submit_knot]
      rfl
    · rw [(judgeUnseen_of_held hheld _ _).1, submit_knot]
      show s.knot l = { s.knot l with unseenSpan := some start }
      rw [← hheld]

theorem RowFrame.knot_of_ne (h : RowFrame l s t) (y : LineId) (hy : y ≠ l) : t.knot y = s.knot y := (h.others y hy).1

theorem judgeUnseen_frame (s : State) (l : LineId) (overrun : Bool) (lo hi : Nat) : s.judgeUnseen l overrun lo hi =
    { s with knots := (s.judgeUnseen l overrun lo hi).knots, spanRecs := (s.judgeUnseen l overrun lo hi).spanRecs,
             link := (s.judgeUnseen l overrun lo hi).link } := by
  unfold State.judgeUnseen
  split
  · rw [submit_frame]; rfl
  · rw [submit_frame]
  · rw [submit_frame]; rfl
  · rfl

/-- The deviation of a row's pitch from the mesh pitch, without its sign (R110). -/
def meshMiss (spec : KnotSpec) (closePos last : Nat) : Nat := (meshDeviation ((closePos : Int) - last) spec.meshPitch).natAbs

theorem judgeMesh_of_first (h : (s.knot l).lastRowPos = none) (spec : KnotSpec) (p lo hi : Nat) :
    s.judgeMesh l spec p lo hi = s := by
  simp only [State.judgeMesh, h]

theorem judgeMesh_of_last {last : Nat} (h : (s.knot l).lastRowPos = some last) (spec : KnotSpec) (p lo hi : Nat) :
    s.judgeMesh l spec p lo hi = match decide (spec.meshTolerance < meshMiss spec p last), (s.knot l).meshSpan with
      | true, none => (s.submit l .mesh .line (.openOrExtend lo hi (meshMiss spec p last))).modKnot l fun k =>
          { k with meshSpan := some lo }
      | true, some start => s.submit l .mesh .line (.extend (max hi start) (meshMiss spec p last))
      | false, some start => (s.submit l .mesh .line (.close (max lo start))).modKnot l fun k => { k with meshSpan := none }
      | false, none => s := by
  simp only [State.judgeMesh, h]
  rfl

theorem meshMiss_eq {spec : KnotSpec} {p last : Nat} : meshMiss spec p last = (max (-999) (min 999
    ((((p : Int) - last - (spec.meshPitch : Int) * 1000000) * 1000).tdiv ((spec.meshPitch : Int) * 1000000)))).natAbs := by
  unfold meshMiss meshDeviation nmPerMm
  rw [clampAbs_eq, Int.natCast_mul]
  rfl

theorem judgeMesh_frame (s : State) (l : LineId) (spec : KnotSpec) (p lo hi : Nat) : s.judgeMesh l spec p lo hi =
    { s with knots := (s.judgeMesh l spec p lo hi).knots, spanRecs := (s.judgeMesh l spec p lo hi).spanRecs,
             link := (s.judgeMesh l spec p lo hi).link } := by
  unfold State.judgeMesh
  split
  · rfl
  · dsimp only
    split
    · rw [submit_frame]; rfl
    · rw [submit_frame]
    · rw [submit_frame]; rfl
    · rfl

theorem RowFrame.judgeMesh (h : RowFrame l s t) (spec : KnotSpec) (p lo hi : Nat) :
    RowFrame l s (t.judgeMesh l spec p lo hi) := by
  unfold State.judgeMesh
  split
  · exact h
  · dsimp only
    split
    · exact (h.submit ..).modKnot _
    · exact h.submit ..
    · exact (h.submit ..).modKnot _
    · exact h

theorem judgeMesh_knot {last : Nat} (h : (s.knot l).lastRowPos = some last) (spec : KnotSpec) (p lo hi : Nat) :
    (s.judgeMesh l spec p lo hi).knot l = { s.knot l with
      meshSpan := if spec.meshTolerance < meshMiss spec p last then some ((s.knot l).meshSpan.getD lo) else none } := by
  rw [judgeMesh_of_last h]
  by_cases hmiss : spec.meshTolerance < meshMiss spec p last
  · rw [decide_eq_true hmiss, if_pos hmiss]
    cases hheld : (s.knot l).meshSpan with
    | none => dsimp only; rw [modKnot_knot_self, submit_knot]; rfl
    | some start =>
      dsimp only
      rw [submit_knot]
      show s.knot l = { s.knot l with meshSpan := some start }
      rw [← hheld]
  · rw [decide_eq_false hmiss, if_neg hmiss]
    cases hheld : (s.knot l).meshSpan with
    | none =>
      show s.knot l = { s.knot l with meshSpan := none }
      rw [← hheld]
    | some start => dsimp only; rw [modKnot_knot_self, submit_knot]

theorem judgeMesh_knot_frame (s : State) (l : LineId) (spec : KnotSpec) (p lo hi : Nat) :
    (s.judgeMesh l spec p lo hi).knot l =
      { s.knot l with meshSpan := ((s.judgeMesh l spec p lo hi).knot l).meshSpan } := by
  cases h : (s.knot l).lastRowPos with
  | none => rw [judgeMesh_of_first h]
  | some last => rw [judgeMesh_knot h]

/-! ## The judgment of a row (R105) -/

/-- The row counted in the KS record. -/
def rowCounted (s : State) (l : LineId) : State :=
  s.modKnot l fun k => { k with rowIndex := (k.rowIndex + 1) % 4294967296 }

/-- The coordinate of a row. -/
def rowCoord (s : State) (l : LineId) (scan : Scan) : Nat :=
  max (scan.closePos + (s.line l).cfg.knotOffset.getD 0 * 1000000) (s.coilStart l)

/-- The coordinate of the row before, that of the row itself in the first row of a run. -/
def rowBefore (s : State) (l : LineId) (scan : Scan) : Nat := (s.knot l).lastRowCoord.getD (rowCoord s l scan)

/-- The judgments of the columns used. -/
def rowMarks (spec : KnotSpec) (scan : Scan) (overrun : Bool) : List ColumnMark :=
  (List.range spec.columnsUsed).map (judgeColumn scan.frames overrun)

/-- The steps of a row's judgment before its result is stored. -/
def rowJudged (s : State) (l : LineId) (spec : KnotSpec) (scan : Scan) (overrun : Bool) : State :=
  ((columnsJudged (rowCounted s l) l spec (rowCoord s l scan) (rowMarks spec scan overrun).zipIdx).judgeUnseen l overrun
    (min (rowBefore s l scan) (rowCoord s l scan)) (max (rowBefore s l scan) (rowCoord s l scan))).judgeMesh l spec
      scan.closePos (min (rowBefore s l scan) (rowCoord s l scan)) (max (rowBefore s l scan) (rowCoord s l scan))

/-- The result of a row's judgment. -/
def rowResult (s : State) (l : LineId) (spec : KnotSpec) (scan : Scan) (outcome : ScanOutcome) (endBoard : Option Nat)
    (row : Nat) : ScanResult where
  row := row
  coordinate := rowCoord s l scan
  outcome := outcome
  boards := (List.range ((s.line l).cfg.boardCount.getD 0)).map (boardMark scan.frames)
  endBoard := endBoard
  columns := rowMarks spec scan (decide (outcome = .overrun))

theorem judgeRow_eq {spec : KnotSpec} (hspec : s.knotSpec l = some spec) (scan : Scan) (outcome : ScanOutcome)
    (endBoard : Option Nat) : s.judgeRow l scan outcome endBoard =
      (rowJudged s l spec scan (decide (outcome = .overrun))).modKnot l fun k => { k with
        lastRowPos := some scan.closePos
        lastRowCoord := some (rowCoord s l scan)
        lastScan := some (rowResult s l spec scan outcome endBoard k.rowIndex) } := by
  have hcount : (s.modKnot l fun k => { k with rowIndex := (k.rowIndex + 1) % 4294967296 }) = rowCounted s l := rfl
  have hcoord : (rowCounted s l).rowCoordinate l scan.closePos = rowCoord s l scan := rfl
  have hbefore : ((rowCounted s l).knot l).lastRowCoord.getD (rowCoord s l scan) = rowBefore s l scan := by
    rw [rowCounted, modKnot_knot_self, rowBefore]
  simp only [State.judgeRow, hspec, hcount, hcoord, hbefore]
  rfl

theorem RowFrame.rowJudged (s : State) (l : LineId) (spec : KnotSpec) (scan : Scan) (overrun : Bool) :
    RowFrame l s (rowJudged s l spec scan overrun) :=
  ((((RowFrame.refl s).modKnot _).columnsJudged _ _ _).judgeUnseen _ _ _).judgeMesh _ _ _ _

theorem RowFrame.judgeRow (h : RowFrame l s t) (scan : Scan) (outcome : ScanOutcome) (endBoard : Option Nat) :
    RowFrame l s (t.judgeRow l scan outcome endBoard) := by
  cases hspec : t.knotSpec l with
  | none => simpa only [State.judgeRow, hspec] using h
  | some spec =>
    rw [judgeRow_eq hspec]
    exact (h.trans (RowFrame.rowJudged t l spec scan _)).modKnot _

/-- The steps before the result is stored leave the shaft, the gate counts and the row before. -/
theorem rowJudged_knot (s : State) (l : LineId) (spec : KnotSpec) (scan : Scan) (overrun : Bool) :
    (rowJudged s l spec scan overrun).knot l = { s.knot l with
      rowIndex := ((s.knot l).rowIndex + 1) % 4294967296
      columns := ((rowJudged s l spec scan overrun).knot l).columns
      unseenSpan := ((rowJudged s l spec scan overrun).knot l).unseenSpan
      meshSpan := ((rowJudged s l spec scan overrun).knot l).meshSpan } := by
  unfold rowJudged
  rw [judgeMesh_knot_frame, judgeUnseen_knot, columnsJudged_knot, rowCounted, modKnot_knot_self]

theorem rowJudged_rowIndex (s : State) (l : LineId) (spec : KnotSpec) (scan : Scan) (overrun : Bool) :
    ((rowJudged s l spec scan overrun).knot l).rowIndex = ((s.knot l).rowIndex + 1) % 4294967296 := by
  rw [rowJudged_knot]

theorem judgeRow_knot {spec : KnotSpec} (hspec : s.knotSpec l = some spec) (scan : Scan) (outcome : ScanOutcome)
    (endBoard : Option Nat) : (s.judgeRow l scan outcome endBoard).knot l =
      { (rowJudged s l spec scan (decide (outcome = .overrun))).knot l with
        lastRowPos := some scan.closePos
        lastRowCoord := some (rowCoord s l scan)
        lastScan := some (rowResult s l spec scan outcome endBoard (((s.knot l).rowIndex + 1) % 4294967296)) } := by
  rw [judgeRow_eq hspec, modKnot_knot_self, ← rowJudged_rowIndex s l spec scan (decide (outcome = .overrun))]

theorem judgeColumn_judged (frames : List BoardRead) (overrun : Bool) (c : Nat) :
    ColumnJudged frames overrun c (judgeColumn frames overrun c) := by
  refine ⟨fun h => by simp only [judgeColumn, h, if_true], fun h => ⟨fun hnone => ?_, fun b hb => ⟨fun hbad => ?_, fun hgood =>
    ⟨fun htied => ?_, fun hmissed => ?_⟩⟩⟩⟩
  · simp [judgeColumn, h, hnone]
  · simp [judgeColumn, h, hb, hbad]
  · simp [judgeColumn, h, hb, hgood, htied]
  · simp [judgeColumn, h, hb, hgood, hmissed]

theorem rowMarks_judged {spec : KnotSpec} {scan : Scan} {overrun : Bool} {c : Nat} {m : ColumnMark}
    (h : (rowMarks spec scan overrun)[c]? = some m) : ColumnJudged scan.frames overrun c m := by
  simp only [rowMarks, List.getElem?_map, Option.map_eq_some_iff] at h
  obtain ⟨d, hd, rfl⟩ := h
  obtain ⟨hlt, rfl⟩ := List.getElem?_eq_some_iff.mp hd
  rw [List.getElem_range]
  exact judgeColumn_judged _ _ _

theorem boardMark_of_range {n i : Nat} {frames : List BoardRead} {m : BoardMark}
    (h : ((List.range n).map (boardMark frames))[i]? = some m) : m = boardMark frames i := by
  simp only [List.getElem?_map, Option.map_eq_some_iff] at h
  obtain ⟨d, hd, rfl⟩ := h
  obtain ⟨hlt, rfl⟩ := List.getElem?_eq_some_iff.mp hd
  rw [List.getElem_range]

/-! ## The statement O56 -/

theorem columnTied_frame (s : State) (l : LineId) (c coord : Nat) : s.columnTied l c coord =
    { s with knots := (s.columnTied l c coord).knots, spanRecs := (s.columnTied l c coord).spanRecs } := by
  unfold State.columnTied
  split
  next kind start hspan =>
    have hlink : (s.submit l kind.kind (.column (c + 1)) (.close (max coord start))).link = s.link :=
      submit_link_of_not_open ⟨nofun, nofun⟩
    dsimp only
    rw [submit_frame, hlink]
    rfl
  next => rfl

theorem columnTied_spanRecs (s : State) (l : LineId) (c coord : Nat) :
    (((s.knot l).column c).span = none → (s.columnTied l c coord).spanRecs = s.spanRecs) ∧
    ∀ kind start, ((s.knot l).column c).span = some (kind, start) →
      (s.columnTied l c coord).spanRecs = (s.submit l kind.kind (.column (c + 1)) (.close (max coord start))).spanRecs := by
  refine ⟨fun h => ?_, fun kind start h => ?_⟩ <;> simp only [State.columnTied, h] <;> rfl

theorem missSubmitted_of_none {c : Nat} (h : ((s.knot l).column c).span = none) (coord : Nat) : missSubmitted s l c coord =
    s.submit l .knot (.column (c + 1)) (.openSpan coord (some coord) (missCount ((s.knot l).column c))) := by
  rw [missSubmitted, h]

theorem missSubmitted_of_some {c : Nat} {kind : ColumnSpanKind} {start : Nat}
    (h : ((s.knot l).column c).span = some (kind, start)) (coord : Nat) : missSubmitted s l c coord =
    s.submit l kind.kind (.column (c + 1)) (.extend (max coord start) (missCount ((s.knot l).column c))) := by
  rw [missSubmitted, h]

theorem missCount_eq (h : ColumnHistory) : missCount h = if h.misses < 15 then h.misses + 1 else 15 := by
  unfold missCount
  split <;> omega

theorem missSpan_snd (h : ColumnHistory) (coord : Nat) : (missSpan h coord).2 = (h.span.map Prod.snd).getD coord := by
  unfold missSpan
  cases h.span <;> rfl

theorem missKind_eq_break (h : ColumnHistory) (k : KnotSpec) (coord : Nat) : missKind h k coord = .break ↔
    (∃ start, h.span = some (.break, start)) ∨ k.breakThreshold ≤ missCount h := by
  unfold missKind missSpan
  split
  next hlt =>
    cases hspan : h.span with
    | none => simp [Nat.not_le.mpr hlt]
    | some x => obtain ⟨kind, start⟩ := x; simp [Nat.not_le.mpr hlt]
  next hle => exact ⟨fun _ => .inr (Nat.le_of_not_lt hle), fun _ => rfl⟩

theorem has_add_self (c : CauseSet) (x : StopCause) : (c.add x).has x = true := by cases x <;> rfl

theorem stoppedFor_offered {x : StopCause} (hrun : s.runOpen l = true) : StoppedFor ((s.offerCause l x).line l) x := by
  rw [offerCause_line_self, afterOffer_of_ne_idle (by simpa [State.runOpen] using hrun)]
  exact ⟨rfl, has_add_self _ _⟩

/-- The upgrade to BREAK and its notice, as they are sent of the column's submission. -/
theorem breakTold_tells {c coord : Nat} {k : KnotSpec} :
    TellsAs (breakTold s l k c coord) (((missSubmitted s l c coord).submit l .break (.column (c + 1)) .upgrade).notify (some l)
      (.twineBreak (c + 1) (s.knot l).rowIndex ((missSpan ((s.knot l).column c) coord).2 / 1000000)
        (missCount ((s.knot l).column c)) (k.stopOnBreak && !(s.line l).causes.twineBreak))) := by
  have hrow : ((breakMarked s l c coord).knot l).rowIndex = (s.knot l).rowIndex := by rw [breakMarked_knot]; rfl
  have hline : (breakMarked s l c coord).line l = s.line l := by
    rw [breakMarked, missMarked, submit_frame]
    unfold missSubmitted
    split <;> rw [submit_frame] <;> rfl
  have htells := (SpansAs.submit (s := missMarked s l c coord) (t := missSubmitted s l c coord) (l := l)
    (.of_same rfl rfl rfl rfl rfl rfl) .break (.column (c + 1)) .upgrade).tells
  unfold breakTold
  rw [hrow, hline]
  exact TellsAs.notify (s := breakMarked s l c coord) ⟨htells.link, htells.stamp⟩ _ _

/-- A column missed: its count, its span, and what is submitted and told below and at the break threshold. -/
theorem columnMissed_cases {k : KnotSpec} {c coord : Nat} :
    (missCount ((s.knot l).column c) < k.breakThreshold → s.columnMissed l k c coord = missMarked s l c coord) ∧
    (k.breakThreshold ≤ missCount ((s.knot l).column c) →
      ((∃ start, ((s.knot l).column c).span = some (.break, start)) → s.columnMissed l k c coord =
        if k.stopOnBreak then (missMarked s l c coord).offerCause l .twineBreak else missMarked s l c coord) ∧
      ((∀ start, ((s.knot l).column c).span ≠ some (.break, start)) → s.columnMissed l k c coord =
        if k.stopOnBreak then (breakTold s l k c coord).offerCause l .twineBreak else breakTold s l k c coord)) := by
  rw [columnMissed_eq]
  refine ⟨fun h => if_pos h, fun h => ?_⟩
  rw [if_neg (Nat.not_lt.mpr h), breakJudged, missSpan]
  refine ⟨fun ⟨start, hbreak⟩ => by rw [hbreak]; rfl, fun hnot => ?_⟩
  cases hspan : ((s.knot l).column c).span with
  | none => rfl
  | some x =>
    obtain ⟨kind, start⟩ := x
    match kind, hspan with
    | .knot, _ => rfl
    | .break, hbreak => exact absurd hbreak (hnot start)

theorem breakTold_spanRecs {c coord : Nat} {k : KnotSpec} : (breakTold s l k c coord).spanRecs =
    ((missSubmitted s l c coord).submit l .break (.column (c + 1)) .upgrade).spanRecs := by
  unfold breakTold
  rw [notify_eq]
  exact (SpansAs.submit (s := missMarked s l c coord) (t := missSubmitted s l c coord) (l := l)
    (.of_same rfl rfl rfl rfl rfl rfl) .break (.column (c + 1)) .upgrade).spanRecs

theorem offerCause_spanRecs (s : State) (l : LineId) (x : StopCause) : (s.offerCause l x).spanRecs = s.spanRecs := by
  rw [offerCause_frame]

theorem missMarked_lines (s : State) (l : LineId) (c coord : Nat) : (missMarked s l c coord).lines = s.lines := by
  unfold missMarked missSubmitted
  split <;> rw [submit_frame] <;> rfl

theorem breakTold_lines (s : State) (l : LineId) (k : KnotSpec) (c coord : Nat) : (breakTold s l k c coord).lines = s.lines := by
  unfold breakTold breakMarked
  rw [notify_eq, submit_frame]
  exact missMarked_lines s l c coord

/-- The record and the notices of a column missed at the break threshold, offered TWINE_BREAK or not. -/
theorem offered_spanRecs_link {u w : State} (hspans : u.spanRecs = w.spanRecs) (htells : TellsAs u w)
    (hline : u.line l = w.line l) (stop : Bool) :
    (if stop then u.offerCause l .twineBreak else u).spanRecs = w.spanRecs ∧
      (if stop then u.offerCause l .twineBreak else u).link = (if stop then w.offerCause l .twineBreak else w).link := by
  cases stop
  · exact ⟨hspans, htells.link⟩
  · exact ⟨(offerCause_spanRecs ..).trans hspans, (htells.offerCause hline _).link⟩

theorem missSubmitted_line (s : State) (l : LineId) (c coord : Nat) : (missSubmitted s l c coord).line l = s.line l := by
  unfold missSubmitted
  split <;> rw [submit_frame] <;> rfl

/-- What a column missed at the break threshold does to the span list and to the link, by the span it held. -/
theorem columnMissed_at {k : KnotSpec} {c : Nat} (coord : Nat) (hle : k.breakThreshold ≤ missCount ((s.knot l).column c)) :
    let w := missSubmitted s l c coord
    let v := w.submit l .break (.column (c + 1)) .upgrade
    let told := v.notify (some l) (.twineBreak (c + 1) (s.knot l).rowIndex
      ((missSpan ((s.knot l).column c) coord).2 / 1000000) (missCount ((s.knot l).column c))
      (k.stopOnBreak && !(s.line l).causes.twineBreak))
    ((∃ start, ((s.knot l).column c).span = some (.break, start)) → (s.columnMissed l k c coord).spanRecs = w.spanRecs ∧
      (s.columnMissed l k c coord).link = (if k.stopOnBreak then w.offerCause l .twineBreak else w).link) ∧
    ((∀ start, ((s.knot l).column c).span ≠ some (.break, start)) → (s.columnMissed l k c coord).spanRecs = v.spanRecs ∧
      (s.columnMissed l k c coord).link = (if k.stopOnBreak then told.offerCause l .twineBreak else told).link) := by
  intro w v told
  obtain ⟨hbreak, hfree⟩ := columnMissed_cases.2 hle
  refine ⟨fun h => ?_, fun h => ?_⟩
  · rw [hbreak h]
    exact offered_spanRecs_link (u := missMarked s l c coord) (w := w) rfl ⟨rfl, rfl⟩ rfl _
  · rw [hfree h]
    have hline : (breakTold s l k c coord).line l = told.line l := by
      have htold : told.line l = w.line l := by
        rw [show told = _ from notify_eq .., show v = _ from submit_frame ..]; rfl
      rw [State.line, breakTold_lines, htold, missSubmitted_line]; rfl
    have hspans : told.spanRecs = v.spanRecs := by rw [show told = _ from notify_eq ..]
    obtain ⟨hspanRecs, hlink⟩ := offered_spanRecs_link (breakTold_spanRecs.trans hspans.symm) breakTold_tells hline k.stopOnBreak
    exact ⟨hspanRecs.trans hspans, hlink⟩

theorem breakJudged_lines (s : State) (l : LineId) (k : KnotSpec) (c coord : Nat) :
    (breakJudged s l k c coord).lines = s.lines := by
  unfold breakJudged
  split
  · exact breakTold_lines ..
  · exact missMarked_lines ..

theorem columnMissed_stopped {k : KnotSpec} {c : Nat} (coord : Nat) (hrun : s.runOpen l = true)
    (hle : k.breakThreshold ≤ missCount ((s.knot l).column c)) (hstop : k.stopOnBreak = true) :
    StoppedFor ((s.columnMissed l k c coord).line l) .twineBreak := by
  rw [columnMissed_eq, if_neg (Nat.not_lt.mpr hle), if_pos hstop]
  refine stoppedFor_offered ?_
  rw [State.runOpen, State.line, breakJudged_lines]
  exact hrun

theorem columnMissed_lines {k : KnotSpec} {c : Nat} (coord : Nat)
    (h : missCount ((s.knot l).column c) < k.breakThreshold ∨ k.stopOnBreak = false) :
    (s.columnMissed l k c coord).lines = s.lines := by
  rw [columnMissed_eq]
  split
  · exact missMarked_lines ..
  next hle =>
    rw [if_neg (by simp [h.resolve_left hle])]
    exact breakJudged_lines ..

/-- Settles O56: the steps of a row's judgment, the UNSEEN step and the mesh step by the span held, and a column by its mark. -/
theorem columnJudgmentCountsMisses : Obligations.ColumnJudgmentCountsMisses := by
  refine ⟨fun s l scan outcome endBoard spec hspec => ?row, fun s l overrun lo hi => ?unseen,
    fun s l spec closePos lo hi => ?mesh, fun s l spec c coord hc hrun => ⟨rfl, ⟨s.columnTied l c coord, rfl, ?tied,
      fun d hd => ?tiedOther, columnTied_frame s l c coord, columnTied_spanRecs s l c coord⟩, ?missed⟩⟩
  case row =>
    intro t coord last
    have ht : t = _ := judgeRow_eq hspec scan outcome endBoard
    refine ⟨rowCounted s l, rowJudged s l spec scan (decide (outcome = .overrun)),
      rowMarks spec scan (decide (outcome = .overrun)),
      rowResult s l spec scan outcome endBoard (((s.knot l).rowIndex + 1) % 4294967296), ?_, fun c m => rowMarks_judged, rfl,
      fun y hy => modKnot_knot_of_ne _ _ _ hy, modKnot_knot_self _ _ _, rfl, ?_, fun y hy => ?_, ?_, ?_, rfl, rfl, rfl, rfl, ?_,
      fun i m hm => ?_⟩
    · rw [rowMarks, List.length_map, List.length_range]
    · rw [ht]; rfl
    · rw [ht, modKnot_knot_of_ne _ _ _ hy]
    · exact judgeRow_knot hspec scan outcome endBoard
    · rw [rowCounted, modKnot_knot_self]; rfl
    · show ((List.range ((s.line l).cfg.boardCount.getD 0)).map (boardMark scan.frames)).length = _
      rw [List.length_map, List.length_range]
    · rw [boardMark_of_range hm]
      refine ⟨fun hnone => ?_, fun b hb => ?_⟩
      · simp only [boardMark, hnone]
      · simp only [boardMark, hb]
  case unseen =>
    intro t held
    refine ⟨judgeUnseen_frame .., ((RowFrame.refl s).judgeUnseen _ _ _).knot_of_ne, judgeUnseen_knot ..,
      fun hover hfree => ?_, fun start hover hheld => ?_, fun start hover hheld => ?_, fun hover hfree => ?_⟩ <;> subst hover
    · rw [show t = _ from judgeUnseen_of_free hfree lo hi]; rfl
    · rw [show t = _ from (judgeUnseen_of_held hheld lo hi).1]
    · rw [show t = _ from (judgeUnseen_of_held hheld lo hi).2]; rfl
    · exact judgeUnseen_of_none hfree lo hi
  case mesh =>
    refine ⟨fun h => judgeMesh_of_first h _ _ _ _, fun last hlast => ?_⟩
    intro dev
    have hdev : dev = meshMiss spec closePos last := meshMiss_eq.symm
    have hmesh := judgeMesh_of_last (l := l) hlast spec closePos lo hi
    rw [hdev]
    refine ⟨judgeMesh_frame .., ((RowFrame.refl s).judgeMesh _ _ _ _).knot_of_ne, judgeMesh_knot hlast _ _ _ _,
      fun hmiss hfree => ?_, fun start hmiss hheld => ?_, fun start hfits hheld => ?_, fun hfits hfree => ?_⟩
    · rw [hmesh, decide_eq_true hmiss, show (s.knot l).meshSpan = none from hfree]; rfl
    · rw [hmesh, decide_eq_true hmiss, show (s.knot l).meshSpan = some start from hheld]
    · rw [hmesh, decide_eq_false (Nat.not_lt.mpr hfits), show (s.knot l).meshSpan = some start from hheld]; rfl
    · rw [hmesh, decide_eq_false (Nat.not_lt.mpr hfits), show (s.knot l).meshSpan = none from hfree]
  case tied =>
    rw [columnTied_knot, onColumn_column _ hc, if_pos rfl]
  case tiedOther =>
    rw [columnTied_knot, onColumn_column _ hc, if_neg hd]
  case missed =>
    have hknot : (s.judgedColumn l spec c coord .missed).knot l = _ := columnMissed_knot s l spec c coord
    obtain ⟨hbelow, -⟩ := columnMissed_cases (s := s) (l := l) (k := spec) (c := c) (coord := coord)
    rw [← missCount_eq]
    refine ⟨_, rfl, ?_, fun d hd => ?_, ⟨missKind ((s.knot l).column c) spec coord, ?_, missKind_eq_break _ _ _⟩, fun hlt hnone => ?_,
      fun kind start hlt hsome => ?_, fun hle w hnone hsome => ?_, columnMissed_stopped coord hrun, columnMissed_lines coord,
      ((RowFrame.refl s).judgedColumn _ _ _ _).frame⟩
    · rw [hknot, onColumn_column _ hc, if_pos rfl]
    · rw [hknot, onColumn_column _ hc, if_neg hd]
    · rw [hknot, onColumn_column _ hc, if_pos rfl, missSpan_snd]
    · rw [show s.judgedColumn l spec c coord .missed = _ from hbelow hlt, missMarked, missSubmitted_of_none hnone]; rfl
    · rw [show s.judgedColumn l spec c coord .missed = _ from hbelow hlt, missMarked, missSubmitted_of_some hsome]; rfl
    · have hsubmitted : missSubmitted s l c coord = w := by
        cases hspan : ((s.knot l).column c).span with
        | none => rw [missSubmitted_of_none hspan, hnone hspan]
        | some x => rw [missSubmitted_of_some (kind := x.1) (start := x.2) hspan, hsome x.1 x.2 hspan]
      rw [← hsubmitted, ← missSpan_snd]
      exact columnMissed_at coord hle

end Sys2Proof.Proofs

/-! Which states a row is judged alike in: they may differ in the shaft, and, but for what is told, in stop causes. -/

namespace Sys2Proof.Proofs

open Sys2Proof.Machine Sys2Proof.Safety

variable {s t : State} {l : LineId} {told : Prop}

/-- KS records that differ in the shaft and the gate counts alone. -/
def ShaftAlike (a b : KnotRec) : Prop := ∃ x y z, a = { b with sync := x, angle := y, gateTaken := z }

/-- States in which the judgment of a line's rows does the same, and, if `told`, tells the same. -/
structure RowsAs (told : Prop) (l : LineId) (s t : State) : Prop where
  runOpen : s.runOpen l = t.runOpen l
  start : s.coilStart l = t.coilStart l
  spanRecs : s.spanRecs = t.spanRecs
  knot : ShaftAlike (s.knot l) (t.knot l)
  tells : told → TellsAs s t ∧ s.line l = t.line l ∧ (s.pos l).position = (t.pos l).position

theorem storeSpan_spanRecs_congr (hstart : s.coilStart l = t.coilStart l) (hspans : s.spanRecs = t.spanRecs) (k : SpanKind)
    (c : SpanSource) (start : Nat) (stop : Option Nat) (worst : Nat) :
    (s.storeSpan l k c start stop worst).spanRecs = (t.storeSpan l k c start stop worst).spanRecs := by
  have hrec : s.spanRec l = t.spanRec l := congrArg (PerLine.get · l) hspans
  have hmod : ∀ f, (s.modSpanRec l f).spanRecs = (t.modSpanRec l f).spanRecs := fun f => by
    show s.spanRecs.set l (f (s.spanRec l)) = t.spanRecs.set l (f (t.spanRec l))
    rw [hrec, hspans]
  have hnotify : ∀ (u : State) x b, (u.notify x b).spanRecs = u.spanRecs := fun u x b => by rw [notify_eq]
  simp only [State.storeSpan, hrec, hstart]
  split
  · split
    · exact (hnotify _ _ _).trans ((hmod _).trans (hnotify _ _ _).symm)
    · exact hmod _
  · exact hmod _

theorem submit_spanRecs_congr (hrun : s.runOpen l = t.runOpen l) (hstart : s.coilStart l = t.coilStart l)
    (hspans : s.spanRecs = t.spanRecs) (k : SpanKind) (c : SpanSource) (x : Submission) :
    (s.submit l k c x).spanRecs = (t.submit l k c x).spanRecs := by
  have hrec : s.spanRec l = t.spanRec l := congrArg (PerLine.get · l) hspans
  have hmod : ∀ f, (s.modSpanRec l f).spanRecs = (t.modSpanRec l f).spanRecs := fun f => by
    show s.spanRecs.set l (f (s.spanRec l)) = t.spanRecs.set l (f (t.spanRec l))
    rw [hrec, hspans]
  simp only [State.submit, hrun, hrec]
  split
  · exact hspans
  split
  · cases x with
    | upgrade =>
      dsimp only
      split
      · exact hmod _
      · exact hspans
    | _ => exact hmod _
  split
  · cases x with
    | close => exact hmod _
    | _ => exact hspans
  · cases x with
    | openOrExtend => exact storeSpan_spanRecs_congr hstart hspans ..
    | openSpan => exact storeSpan_spanRecs_congr hstart hspans ..
    | _ => exact hspans

theorem offerCause_runOpen (s : State) (l : LineId) (x : StopCause) : (s.offerCause l x).runOpen l = s.runOpen l := by
  simp only [State.runOpen, offerCause_line_self, ne_eq, afterOffer_idle_iff]

namespace RowsAs

theorem rowIndex (h : RowsAs told l s t) : (s.knot l).rowIndex = (t.knot l).rowIndex := by
  obtain ⟨x, y, z, h⟩ := h.knot; rw [h]
theorem column (h : RowsAs told l s t) (c : Nat) : (s.knot l).column c = (t.knot l).column c := by
  obtain ⟨x, y, z, h⟩ := h.knot; rw [h]; rfl
theorem unseenSpan (h : RowsAs told l s t) : (s.knot l).unseenSpan = (t.knot l).unseenSpan := by
  obtain ⟨x, y, z, h⟩ := h.knot; rw [h]
theorem meshSpan (h : RowsAs told l s t) : (s.knot l).meshSpan = (t.knot l).meshSpan := by
  obtain ⟨x, y, z, h⟩ := h.knot; rw [h]
theorem lastRowPos (h : RowsAs told l s t) : (s.knot l).lastRowPos = (t.knot l).lastRowPos := by
  obtain ⟨x, y, z, h⟩ := h.knot; rw [h]
theorem lastRowCoord (h : RowsAs told l s t) : (s.knot l).lastRowCoord = (t.knot l).lastRowCoord := by
  obtain ⟨x, y, z, h⟩ := h.knot; rw [h]

theorem modKnot (h : RowsAs told l s t) (f : KnotRec → KnotRec)
    (hf : ∀ b x y z, f { b with sync := x, angle := y, gateTaken := z } = { f b with sync := x, angle := y, gateTaken := z }) :
    RowsAs told l (s.modKnot l f) (t.modKnot l f) := by
  refine ⟨h.runOpen, h.start, h.spanRecs, ?_, fun htold => ?_⟩
  · obtain ⟨x, y, z, hknot⟩ := h.knot
    rw [modKnot_knot_self, modKnot_knot_self, hknot]
    exact ⟨x, y, z, hf _ _ _ _⟩
  · obtain ⟨htells, hline, hpos⟩ := h.tells htold
    exact ⟨⟨htells.link, htells.stamp⟩, hline, hpos⟩

theorem submit (h : RowsAs told l s t) (k : SpanKind) (c : SpanSource) (x : Submission) :
    RowsAs told l (s.submit l k c x) (t.submit l k c x) := by
  refine ⟨?_, ?_, submit_spanRecs_congr h.runOpen h.start h.spanRecs k c x, ?_, fun htold => ?_⟩
  · rw [submit_frame s, submit_frame t]; exact h.runOpen
  · rw [submit_frame s, submit_frame t]; exact h.start
  · rw [submit_frame s, submit_frame t]; exact h.knot
  · obtain ⟨htells, hline, hpos⟩ := h.tells htold
    refine ⟨(SpansAs.submit ⟨htells, h.runOpen, h.start, hpos, h.spanRecs⟩ k c x).tells, ?_⟩
    rw [submit_frame s, submit_frame t]
    exact ⟨hline, hpos⟩

theorem notify (h : RowsAs told l s t) {b b' : NoticeBody} (hbody : told → b = b') (x : Option LineId) :
    RowsAs told l (s.notify x b) (t.notify x b') := by
  refine ⟨?_, ?_, ?_, ?_, fun htold => ⟨?_, ?_⟩⟩
  · rw [notify_eq s, notify_eq t]; exact h.runOpen
  · rw [notify_eq s, notify_eq t]; exact h.start
  · rw [notify_eq s, notify_eq t]; exact h.spanRecs
  · rw [notify_eq s, notify_eq t]; exact h.knot
  · rw [← hbody htold]; exact (h.tells htold).1.notify x b
  · rw [notify_eq s, notify_eq t]; exact (h.tells htold).2

theorem offerCause (h : RowsAs told l s t) (x : StopCause) : RowsAs told l (s.offerCause l x) (t.offerCause l x) := by
  refine ⟨?_, ?_, ?_, ?_, fun htold => ⟨?_, ?_, ?_⟩⟩
  · rw [offerCause_runOpen, offerCause_runOpen]; exact h.runOpen
  · rw [offerCause_frame s, offerCause_frame t]; exact h.start
  · rw [offerCause_frame s, offerCause_frame t]; exact h.spanRecs
  · rw [offerCause_frame s, offerCause_frame t]; exact h.knot
  · obtain ⟨htells, hline, -⟩ := h.tells htold
    exact htells.offerCause hline x
  · rw [offerCause_line_self, offerCause_line_self, (h.tells htold).2.1]
  · rw [offerCause_frame s, offerCause_frame t]; exact (h.tells htold).2.2

theorem columnTied (h : RowsAs told l s t) (c coord : Nat) : RowsAs told l (s.columnTied l c coord) (t.columnTied l c coord) := by
  unfold State.columnTied
  rw [h.column]
  refine modKnot ?_ _ fun _ _ _ _ => rfl
  split
  · exact h.submit _ _ _
  · exact h

theorem missSubmitted (h : RowsAs told l s t) (c coord : Nat) :
    RowsAs told l (missSubmitted s l c coord) (missSubmitted t l c coord) := by
  unfold Proofs.missSubmitted
  rw [h.column]
  split <;> exact h.submit _ _ _

theorem missMarked (h : RowsAs told l s t) (c coord : Nat) :
    RowsAs told l (missMarked s l c coord) (missMarked t l c coord) := by
  unfold Proofs.missMarked
  rw [h.column]
  exact (h.missSubmitted c coord).modKnot _ fun _ _ _ _ => rfl

theorem breakMarked (h : RowsAs told l s t) (c coord : Nat) :
    RowsAs told l (breakMarked s l c coord) (breakMarked t l c coord) := by
  unfold Proofs.breakMarked
  rw [h.column]
  exact ((h.missMarked c coord).submit _ _ _).modKnot _ fun _ _ _ _ => rfl

theorem breakTold (h : RowsAs told l s t) (k : KnotSpec) (c coord : Nat) :
    RowsAs told l (breakTold s l k c coord) (breakTold t l k c coord) := by
  unfold Proofs.breakTold
  rw [h.column, (h.breakMarked c coord).rowIndex]
  exact (h.breakMarked c coord).notify (fun htold => by rw [((h.breakMarked c coord).tells htold).2.1]) _

theorem breakJudged (h : RowsAs told l s t) (k : KnotSpec) (c coord : Nat) :
    RowsAs told l (breakJudged s l k c coord) (breakJudged t l k c coord) := by
  unfold Proofs.breakJudged
  rw [h.column]
  split
  · exact h.breakTold k c coord
  · exact h.missMarked c coord

theorem judgedColumn (h : RowsAs told l s t) (k : KnotSpec) (c coord : Nat) (m : ColumnMark) :
    RowsAs told l (s.judgedColumn l k c coord m) (t.judgedColumn l k c coord m) := by
  cases m with
  | unknown => exact h
  | tied => exact h.columnTied c coord
  | missed =>
    show RowsAs told l (s.columnMissed l k c coord) (t.columnMissed l k c coord)
    rw [columnMissed_eq, columnMissed_eq, h.column]
    split
    · exact h.missMarked c coord
    · split
      · exact (h.breakJudged k c coord).offerCause _
      · exact h.breakJudged k c coord

theorem columnsJudged (h : RowsAs told l s t) (k : KnotSpec) (coord : Nat) (marks : List (ColumnMark × Nat)) :
    RowsAs told l (columnsJudged s l k coord marks) (columnsJudged t l k coord marks) := by
  induction marks generalizing s t with
  | nil => exact h
  | cons m marks ih => exact ih (h.judgedColumn k _ coord _)

theorem judgeUnseen (h : RowsAs told l s t) (overrun : Bool) (lo hi : Nat) :
    RowsAs told l (s.judgeUnseen l overrun lo hi) (t.judgeUnseen l overrun lo hi) := by
  unfold State.judgeUnseen
  rw [h.unseenSpan]
  split
  · exact (h.submit _ _ _).modKnot _ fun _ _ _ _ => rfl
  · exact h.submit _ _ _
  · exact (h.submit _ _ _).modKnot _ fun _ _ _ _ => rfl
  · exact h

theorem judgeMesh (h : RowsAs told l s t) (spec : KnotSpec) (p lo hi : Nat) :
    RowsAs told l (s.judgeMesh l spec p lo hi) (t.judgeMesh l spec p lo hi) := by
  unfold State.judgeMesh
  rw [h.lastRowPos, h.meshSpan]
  split
  · exact h
  · dsimp only
    split
    · exact (h.submit _ _ _).modKnot _ fun _ _ _ _ => rfl
    · exact h.submit _ _ _
    · exact (h.submit _ _ _).modKnot _ fun _ _ _ _ => rfl
    · exact h

/-- A row is judged alike in states alike that have the same recipe and configuration. -/
theorem judgeRow (h : RowsAs told l s t) (hspec : s.knotSpec l = t.knotSpec l) (hcfg : (s.line l).cfg = (t.line l).cfg)
    (scan : Scan) (outcome : ScanOutcome) (endBoard : Option Nat) :
    RowsAs told l (s.judgeRow l scan outcome endBoard) (t.judgeRow l scan outcome endBoard) := by
  cases hk : t.knotSpec l with
  | none =>
    simp only [State.judgeRow, hspec, hk]
    exact h
  | some spec =>
    have hcoord : rowCoord s l scan = rowCoord t l scan := by rw [rowCoord, rowCoord, hcfg, h.start]
    have hbefore : rowBefore s l scan = rowBefore t l scan := by rw [rowBefore, rowBefore, hcoord, h.lastRowCoord]
    have hresult : rowResult s l spec scan outcome endBoard = rowResult t l spec scan outcome endBoard := by
      funext row
      simp only [rowResult, hcoord, hcfg]
    rw [judgeRow_eq (hspec.trans hk), judgeRow_eq hk, hcoord, hresult]
    refine modKnot ?_ _ fun _ _ _ _ => rfl
    unfold rowJudged
    rw [hcoord, hbefore]
    exact (((h.modKnot _ fun _ _ _ _ => rfl).columnsJudged _ _ _).judgeUnseen _ _ _).judgeMesh _ _ _ _

end RowsAs

/-- The judgment of a row leaves the shaft and the gate counts. -/
theorem judgeRow_shaft (s : State) (l : LineId) (scan : Scan) (outcome : ScanOutcome) (endBoard : Option Nat) :
    ((s.judgeRow l scan outcome endBoard).knot l).sync = (s.knot l).sync ∧
      ((s.judgeRow l scan outcome endBoard).knot l).angle = (s.knot l).angle ∧
      ((s.judgeRow l scan outcome endBoard).knot l).gateTaken = (s.knot l).gateTaken := by
  cases hspec : s.knotSpec l with
  | none => simp only [State.judgeRow, hspec, and_self]
  | some spec =>
    rw [judgeRow_knot hspec, rowJudged_knot]
    exact ⟨rfl, rfl, rfl⟩

/-- Rows judged of states alike with the same shaft leave the same KS records. -/
theorem judgeRow_knots {u v : State} (h : RowsAs told l u v) (hspec : u.knotSpec l = v.knotSpec l)
    (hcfg : (u.line l).cfg = (v.line l).cfg) (hknots : u.knots = v.knots) (scan : Scan) (outcome : ScanOutcome)
    (endBoard : Option Nat) :
    (u.judgeRow l scan outcome endBoard).knots = (v.judgeRow l scan outcome endBoard).knots := by
  have hknot : ∀ y, u.knot y = v.knot y := fun y => by rw [State.knot, hknots]; rfl
  refine PerLine.ext_get fun y => ?_
  by_cases hy : y = l
  · subst hy
    obtain ⟨hsync, hangle, htaken⟩ := judgeRow_shaft u y scan outcome endBoard
    obtain ⟨hsync', hangle', htaken'⟩ := judgeRow_shaft v y scan outcome endBoard
    obtain ⟨a, b, c, hrow⟩ := (h.judgeRow hspec hcfg scan outcome endBoard).knot
    rw [hrow, hknot] at hsync hangle htaken
    show (u.judgeRow y scan outcome endBoard).knot y = (v.judgeRow y scan outcome endBoard).knot y
    rw [hrow, show a = _ from hsync, show b = _ from hangle, show c = _ from htaken, ← hsync', ← hangle', ← htaken']
  · exact ((RowFrame.refl u).judgeRow scan outcome endBoard |>.knot_of_ne y hy).trans
      ((hknot y).trans ((RowFrame.refl v).judgeRow scan outcome endBoard |>.knot_of_ne y hy).symm)

end Sys2Proof.Proofs

/-! SHAFT_EDGE: the shaft angle, its loss, and the gate; the statement O26. -/

namespace Sys2Proof.Proofs

open Sys2Proof.Machine Sys2Proof.Safety

variable {s t : State} {l : LineId} {k : ScanLink}

/-! ## What the gate and the scan link leave -/

/-- A state that differs from another in the KS, line and span records of a line, in the scan links and in the link. -/
structure ScanFrame (l : LineId) (s t : State) : Prop where
  frame : t = { s with knots := t.knots, lines := t.lines, spanRecs := t.spanRecs, linkK1 := t.linkK1, linkK2 := t.linkK2
                       link := t.link }
  others : ∀ y, y ≠ l → t.knot y = s.knot y ∧ t.line y = s.line y ∧ t.spanRec y = s.spanRec y
  line : LineOffered (s.line l) (t.line l)

namespace ScanFrame

theorem refl (s : State) : ScanFrame l s s := ⟨rfl, fun _ _ => ⟨rfl, rfl, rfl⟩, .refl _⟩

theorem trans {u : State} (h : ScanFrame l s t) (g : ScanFrame l t u) : ScanFrame l s u := by
  refine ⟨?_, fun y hy => ?_, h.line.trans g.line⟩
  · rw [g.frame, h.frame]
  · obtain ⟨hknot, hline, hspan⟩ := h.others y hy
    obtain ⟨gknot, gline, gspan⟩ := g.others y hy
    exact ⟨gknot.trans hknot, gline.trans hline, gspan.trans hspan⟩

theorem row {u : State} (h : ScanFrame l s t) (g : RowFrame l t u) : ScanFrame l s u := by
  refine h.trans ⟨?_, g.others, g.line⟩
  rw [g.frame]

theorem modScanLink (h : ScanFrame l s t) (k : ScanLink) (f : LinkRec → LinkRec) : ScanFrame l s (t.modScanLink k f) := by
  refine h.trans ?_
  cases k <;> exact ⟨rfl, fun _ _ => ⟨rfl, rfl, rfl⟩, .refl _⟩

theorem chooseFrame (h : ScanFrame l s t) : ScanFrame l s t.chooseFrame := by
  refine h.trans ?_
  rw [chooseFrame_eq_link]
  exact ⟨rfl, fun _ _ => ⟨rfl, rfl, rfl⟩, .refl _⟩

end ScanFrame

/-! ## The evaluation of the gate (R98, R100, R103) -/

theorem evaluateGate_of_same (hk : (s.line l).cfg.scanLink = some k) (h : s.gateLevel l = (s.scanLink k).gate) :
    s.evaluateGate l = s := by
  simp only [State.evaluateGate, hk, h]
  cases (s.scanLink k).gate <;> rfl

/-- The gate open, with the scan in progress ended. -/
def gateOpened (s : State) (k : ScanLink) : State := s.modScanLink k fun r => { r with gate := true }

/-- The state with no scan in progress on a scan link. -/
def scanEnded (s : State) (k : ScanLink) : State := s.modScanLink k fun r => { r with scan := none }

theorem evaluateGate_opens (hk : (s.line l).cfg.scanLink = some k) (h : s.gateLevel l = true)
    (hgate : (s.scanLink k).gate = false) (hscan : (s.scanLink k).scan = none) : s.evaluateGate l = gateOpened s k := by
  simp only [State.evaluateGate, hk, h, hgate, hscan]
  rfl

theorem evaluateGate_overruns {scan : Scan} (hk : (s.line l).cfg.scanLink = some k) (h : s.gateLevel l = true)
    (hgate : (s.scanLink k).gate = false) (hscan : (s.scanLink k).scan = some scan) :
    s.evaluateGate l = gateOpened ((scanEnded s k).judgeRow l scan .overrun none) k := by
  simp only [State.evaluateGate, hk, h, hgate, hscan]
  rfl

theorem evaluateGate_closes (hk : (s.line l).cfg.scanLink = some k) (h : s.gateLevel l = false)
    (hgate : (s.scanLink k).gate = true) : s.evaluateGate l =
      s.modScanLink k fun r => { r with gate := false, scan := some ⟨(s.pos l).position, []⟩ } := by
  simp only [State.evaluateGate, hk, h, hgate]

theorem ScanFrame.evaluateGate (s : State) (l : LineId) : ScanFrame l s (s.evaluateGate l) := by
  unfold State.evaluateGate
  split
  · exact .refl s
  · split
    · dsimp only
      refine ScanFrame.modScanLink ?_ _ _
      split
      · exact ((ScanFrame.refl s).modScanLink _ _).row ((RowFrame.refl _).judgeRow _ _ _)
      · exact .refl s
    · exact (ScanFrame.refl s).modScanLink _ _
    · exact .refl s

/-- The gate leaves the shaft, the gate counts, and the scan links that the line does not name. -/
theorem evaluateGate_shaft (s : State) (l : LineId) : ((s.evaluateGate l).knot l).sync = (s.knot l).sync ∧
    ((s.evaluateGate l).knot l).angle = (s.knot l).angle ∧
    ((s.evaluateGate l).knot l).gateTaken = (s.knot l).gateTaken := by
  have hmod : ∀ (u : State) j f, (u.modScanLink j f).knot l = u.knot l := fun u j f => by cases j <;> rfl
  unfold State.evaluateGate
  split
  · exact ⟨rfl, rfl, rfl⟩
  · split
    · dsimp only
      rw [hmod]
      split
      · have hrow := judgeRow_shaft (s.modScanLink ‹_› fun r => { r with scan := none }) l ‹_› .overrun none
        rwa [hmod] at hrow
      · exact ⟨rfl, rfl, rfl⟩
    · rw [hmod]; exact ⟨rfl, rfl, rfl⟩
    · exact ⟨rfl, rfl, rfl⟩

theorem judgeRow_scanLink (s : State) (l : LineId) (scan : Scan) (outcome : ScanOutcome) (e : Option Nat) (j : ScanLink) :
    (s.judgeRow l scan outcome e).scanLink j = s.scanLink j := by
  have hframe := ((RowFrame.refl s).judgeRow (l := l) scan outcome e).frame
  rw [hframe]
  cases j <;> rfl

theorem evaluateGate_scanLink_of_ne (hk : (s.line l).cfg.scanLink = some k) {j : ScanLink} (hj : j ≠ k) :
    (s.evaluateGate l).scanLink j = s.scanLink j := by
  simp only [State.evaluateGate, hk]
  split
  · rw [modScanLink_scanLink_of_ne _ _ _ hj]
    split
    · rw [judgeRow_scanLink, modScanLink_scanLink_of_ne _ _ _ hj]
    · rfl
  · rw [modScanLink_scanLink_of_ne _ _ _ hj]
  · rfl

/-! ## A shaft arrival (R95 to R98) -/

/-- A KS record whose shaft an arrival has moved. -/
def shaftTurned (turn : Nat) (index : Bool) (r : KnotRec) : KnotRec :=
  if index then { r with angle := 0, sync := .synced }
  else if r.sync = .lost then r
  else if turn ≤ r.angle + 1 then { r with angle := turn, sync := .lost }
  else { r with angle := r.angle + 1 }

/-- Twice the counts per revolution of a line. -/
def shaftTurn (s : State) (l : LineId) : Nat := 2 * (s.line l).cfg.countsPerRev.getD 0

/-- The state with the gate counts taken and the shaft moved. -/
def shaftMoved (s : State) (l : LineId) (index : Bool) : State :=
  s.modKnot l fun r => { shaftTurned (shaftTurn s l) index r with gateTaken := s.gateCountsOf l }

/-- An arrival that loses synchronisation. -/
def ShaftLost (s : State) (l : LineId) (index : Bool) : Prop :=
  index = false ∧ (s.knot l).sync ≠ .lost ∧ shaftTurn s l ≤ (s.knot l).angle + 1

theorem modKnot_modKnot (s : State) (l : LineId) (f g : KnotRec → KnotRec) :
    (s.modKnot l f).modKnot l g = s.modKnot l fun r => g (f r) := by
  have hset : (s.knots.set l (f (s.knot l))).set l (g ((s.modKnot l f).knot l)) = s.knots.set l (g (f (s.knot l))) := by
    rw [modKnot_knot_self]
    cases l <;> rfl
  show { s with knots := _ } = { s with knots := _ }
  rw [← hset]
  rfl

theorem modKnot_congr {f g : KnotRec → KnotRec} (h : f (s.knot l) = g (s.knot l)) : s.modKnot l f = s.modKnot l g := by
  show { s with knots := s.knots.set l (f (s.knot l)) } = { s with knots := s.knots.set l (g (s.knot l)) }
  rw [h]

theorem shaftMoved_of {index : Bool} {f : KnotRec → KnotRec} (h : f { s.knot l with gateTaken := s.gateCountsOf l } =
    { shaftTurned (shaftTurn s l) index (s.knot l) with gateTaken := s.gateCountsOf l }) :
    (s.takeGate l).modKnot l f = shaftMoved s l index := by
  rw [State.takeGate, modKnot_modKnot]
  exact modKnot_congr h

theorem shaftArrival_of_lost {index : Bool} (h : ShaftLost s l index) :
    s.shaftArrival l index = ((shaftMoved s l index).evaluateGate l).offerCause l .shaftIndex := by
  obtain ⟨rfl, hsync, hturn⟩ := h
  unfold State.shaftArrival
  dsimp only
  rw [if_neg nofun, if_neg hsync]
  refine (if_pos hturn).trans (congrArg (fun u => (u.evaluateGate l).offerCause l .shaftIndex) (shaftMoved_of ?_))
  rw [shaftTurned, if_neg nofun, if_neg hsync, if_pos hturn]
  rfl

theorem shaftArrival_of_kept {index : Bool} (h : ¬ShaftLost s l index) :
    s.shaftArrival l index = (shaftMoved s l index).evaluateGate l := by
  unfold State.shaftArrival
  dsimp only
  cases index with
  | true => exact congrArg (State.evaluateGate · l) (shaftMoved_of rfl)
  | false =>
    rw [if_neg nofun]
    by_cases hsync : (s.knot l).sync = .lost
    · rw [if_pos hsync]
      refine congrArg (State.evaluateGate · l) (modKnot_congr ?_)
      rw [shaftTurned, if_neg nofun, if_pos hsync]
    · have hturn : ¬shaftTurn s l ≤ (s.knot l).angle + 1 := fun hturn => h ⟨rfl, hsync, hturn⟩
      rw [if_neg hsync]
      refine (if_neg hturn).trans (congrArg (State.evaluateGate · l) (shaftMoved_of ?_))
      rw [shaftTurned, if_neg nofun, if_neg hsync, if_neg hturn]

/-- The state of an arrival with the gate evaluated, before SHAFT_INDEX is offered. -/
def shaftGated (s : State) (l : LineId) (index : Bool) : State := (shaftMoved s l index).evaluateGate l

/-- Past the gate an arrival offers SHAFT_INDEX where synchronisation is lost, and does nothing else. -/
theorem shaftArrival_cases (s : State) (l : LineId) (index : Bool) :
    (ShaftLost s l index ∧ s.shaftArrival l index = (shaftGated s l index).offerCause l .shaftIndex) ∨
      (¬ShaftLost s l index ∧ s.shaftArrival l index = shaftGated s l index) := by
  by_cases h : ShaftLost s l index
  · exact .inl ⟨h, shaftArrival_of_lost h⟩
  · exact .inr ⟨h, shaftArrival_of_kept h⟩

theorem shaftArrival_knot (s : State) (l : LineId) (index : Bool) :
    (s.shaftArrival l index).knot l = (shaftGated s l index).knot l := by
  rcases shaftArrival_cases s l index with ⟨-, h⟩ | ⟨-, h⟩ <;> rw [h]
  exact offerCause_knot ..

theorem shaftArrival_scanLink (s : State) (l : LineId) (index : Bool) (j : ScanLink) :
    (s.shaftArrival l index).scanLink j = (shaftGated s l index).scanLink j := by
  rcases shaftArrival_cases s l index with ⟨-, h⟩ | ⟨-, h⟩ <;> rw [h]
  rw [offerCause_frame]
  cases j <;> rfl

theorem shaftArrival_spanRecs (s : State) (l : LineId) (index : Bool) :
    (s.shaftArrival l index).spanRecs = (shaftGated s l index).spanRecs := by
  rcases shaftArrival_cases s l index with ⟨-, h⟩ | ⟨-, h⟩ <;> rw [h]
  exact offerCause_spanRecs ..

theorem ScanFrame.shaftGated (s : State) (l : LineId) (index : Bool) : ScanFrame l s (shaftGated s l index) :=
  ((ScanFrame.refl s).row ((RowFrame.refl s).modKnot _)).trans (.evaluateGate _ l)

theorem ScanFrame.shaftArrival (s : State) (l : LineId) (index : Bool) : ScanFrame l s (s.shaftArrival l index) := by
  have hgated := ScanFrame.shaftGated s l index
  rcases shaftArrival_cases s l index with ⟨-, h⟩ | ⟨-, h⟩ <;> rw [h]
  · exact hgated.row ((RowFrame.refl _).offerCause _)
  · exact hgated

/-- What an arrival tells is what a state that tells alike tells of the loss of synchronisation. -/
theorem shaftArrival_link {index : Bool} {x : State} (htells : TellsAs (shaftGated s l index) x)
    (hline : (shaftGated s l index).line l = x.line l) :
    (ShaftLost s l index → (s.shaftArrival l index).chooseFrame.link = (x.offerCause l .shaftIndex).chooseFrame.link) ∧
      (¬ShaftLost s l index → (s.shaftArrival l index).chooseFrame.link = x.chooseFrame.link) := by
  refine ⟨fun h => ?_, fun h => ?_⟩
  · rw [shaftArrival_of_lost h]
    exact chooseFrame_link (htells.offerCause hline _).link
  · rw [shaftArrival_of_kept h]
    exact chooseFrame_link htells.link

/-- The gate leaves the shaft as the arrival moved it, with the gate counts taken. -/
theorem shaftArrival_shaft (s : State) (l : LineId) (index : Bool) :
    ((s.shaftArrival l index).knot l).sync = (shaftTurned (shaftTurn s l) index (s.knot l)).sync ∧
      ((s.shaftArrival l index).knot l).angle = (shaftTurned (shaftTurn s l) index (s.knot l)).angle ∧
      ((s.shaftArrival l index).knot l).gateTaken = s.gateCountsOf l := by
  have hgate := evaluateGate_shaft (shaftMoved s l index) l
  rw [shaftArrival_knot]
  rwa [shaftMoved, modKnot_knot_self] at hgate

/-- The arrival moves the shaft alone of the KS record before the gate is evaluated. -/
theorem shaftMoved_knot (s : State) (l : LineId) (index : Bool) : (shaftMoved s l index).knot l =
    { s.knot l with
      sync := (shaftTurned (shaftTurn s l) index (s.knot l)).sync
      angle := (shaftTurned (shaftTurn s l) index (s.knot l)).angle
      gateTaken := s.gateCountsOf l } := by
  rw [shaftMoved, modKnot_knot_self, shaftTurned]
  split
  · rfl
  split
  · rfl
  split <;> rfl

theorem gateCountsOf_of_spec {spec : KnotSpec} {n : Nat} (hspec : s.knotSpec l = some spec)
    (hn : (s.line l).cfg.countsPerRev = some n) : s.gateCountsOf l = some (gateBounds spec n) := by
  simp only [State.gateCountsOf, hspec, hn, gateCounts_eq]

/-- The gate level an arrival is judged by: that of the shaft it leaves, between the gate counts of the bound recipe. -/
theorem shaftMoved_gateLevel {spec : KnotSpec} {n : Nat} (hspec : s.knotSpec l = some spec)
    (hn : (s.line l).cfg.countsPerRev = some n) (index : Bool) :
    (shaftMoved s l index).gateLevel l = true ↔ GateHigh ((s.shaftArrival l index).knot l) (gateBounds spec n) := by
  have hforce : (shaftMoved s l index).gateInForce l = some (gateBounds spec n) := by
    rw [gateInForce_of_spec (s := shaftMoved s l index) hspec hn, shaftMoved_knot, gateCountsOf_of_spec hspec hn]
    rfl
  obtain ⟨hsync, hangle, -⟩ := shaftArrival_shaft s l index
  rw [gateLevel_iff hforce, GateHigh, GateHigh, hsync, hangle, shaftMoved_knot]

/-! ## SHAFT_EDGE (R30) -/

/-- The levels of a SHAFT channel taken, with a count. -/
def shaftCounted (s : State) (ch : ChannelId) (a b count : Bool) : State :=
  s.modChannel ch fun c => { c.withLevels a b with count := if count then c.count + 1 else c.count }

theorem exec_shaftEdge {w : ChannelChange} {a b : Bool} (hacc : Accepted s w) (hrole : (s.channel w.channel).role = .shaft) :
    exec (.shaftEdge w a b) s = .next (s.shaftStep w.channel a b).chooseFrame := by
  refine congrArg done ((filtered_of_accepted hacc _).trans ?_)
  simp only [State.takeLevels, hrole]

theorem risingEdge_iff (inv before after : Bool) : risingEdge inv before after = true ↔ before ≠ after ∧ after ≠ inv := by
  simp [risingEdge]

theorem shaftStep_eq (s : State) (ch : ChannelId) (a b : Bool) :
    s.shaftStep ch a b =
      if risingEdge (s.channel ch).invert (s.channel ch).refA a || risingEdge (s.channel ch).invert (s.channel ch).refB b then
        ((s.servedLine ch).map fun l =>
          if s.runOpen l then
            (shaftCounted s ch a b (risingEdge (s.channel ch).invert (s.channel ch).refA a)).shaftArrival l
              (risingEdge (s.channel ch).invert (s.channel ch).refB b)
          else shaftCounted s ch a b (risingEdge (s.channel ch).invert (s.channel ch).refA a)).getD
            (shaftCounted s ch a b (risingEdge (s.channel ch).invert (s.channel ch).refA a))
      else shaftCounted s ch a b (risingEdge (s.channel ch).invert (s.channel ch).refA a) := by
  have hserved : (shaftCounted s ch a b (risingEdge (s.channel ch).invert (s.channel ch).refA a)).servedLine ch =
    s.servedLine ch := servedLine_modChannel rfl rfl
  unfold State.shaftStep
  dsimp only
  rw [show (s.modChannel ch fun c => { c.withLevels a b with
    count := if risingEdge (s.channel ch).invert (s.channel ch).refA a then c.count + 1 else c.count }) =
      shaftCounted s ch a b (risingEdge (s.channel ch).invert (s.channel ch).refA a) from rfl, hserved]
  cases s.servedLine ch <;> rfl

theorem shaftStep_of_idle {ch : ChannelId} {a b : Bool} (h : ∀ l, s.servedLine ch = some l → s.runOpen l = false) :
    s.shaftStep ch a b = shaftCounted s ch a b (risingEdge (s.channel ch).invert (s.channel ch).refA a) := by
  rw [shaftStep_eq]
  split
  · cases hserved : s.servedLine ch with
    | none => rfl
    | some l => simp [h l hserved]
  · rfl

theorem shaftStep_of_quiet {ch : ChannelId} {a b : Bool} (ha : risingEdge (s.channel ch).invert (s.channel ch).refA a = false)
    (hb : risingEdge (s.channel ch).invert (s.channel ch).refB b = false) :
    s.shaftStep ch a b = shaftCounted s ch a b false := by
  rw [shaftStep_eq, ha, hb]
  rfl

theorem shaftStep_of_running {ch : ChannelId} {a b : Bool} (hserved : s.servedLine ch = some l) (hrun : s.runOpen l = true)
    (hedge : risingEdge (s.channel ch).invert (s.channel ch).refA a = true ∨
      risingEdge (s.channel ch).invert (s.channel ch).refB b = true) :
    s.shaftStep ch a b = (shaftCounted s ch a b (risingEdge (s.channel ch).invert (s.channel ch).refA a)).shaftArrival l
      (risingEdge (s.channel ch).invert (s.channel ch).refB b) := by
  rw [shaftStep_eq, if_pos (by simpa using hedge), hserved, Option.map_some, Option.getD_some, if_pos hrun]

theorem shaftStep_frame (s : State) (ch : ChannelId) (a b : Bool) : s.shaftStep ch a b =
    { shaftCounted s ch a b (risingEdge (s.channel ch).invert (s.channel ch).refA a) with
      knots := (s.shaftStep ch a b).knots, lines := (s.shaftStep ch a b).lines, spanRecs := (s.shaftStep ch a b).spanRecs
      linkK1 := (s.shaftStep ch a b).linkK1, linkK2 := (s.shaftStep ch a b).linkK2, link := (s.shaftStep ch a b).link } := by
  rw [shaftStep_eq]
  split
  · cases s.servedLine ch with
    | none => rfl
    | some l =>
      simp only [Option.map_some, Option.getD_some]
      split
      · exact (ScanFrame.shaftArrival _ l _).frame
      · rfl
  · rfl

theorem chooseFrame_knot (s : State) (l : LineId) : s.chooseFrame.knot l = s.knot l := by
  rw [chooseFrame_eq_link]; rfl

theorem chooseFrame_scanLink (s : State) (k : ScanLink) : s.chooseFrame.scanLink k = s.scanLink k := by
  rw [chooseFrame_eq_link]
  cases k <;> rfl

theorem chooseFrame_spanRecs (s : State) : s.chooseFrame.spanRecs = s.spanRecs := by
  rw [chooseFrame_eq_link]

/-- What a shaft arrival does to the shaft, by what it is (R95, R96). -/
theorem shaftTurned_cases (turn : Nat) (r : KnotRec) :
    ((shaftTurned turn true r).angle = 0 ∧ (shaftTurned turn true r).sync = .synced) ∧
    (r.sync ≠ .lost → r.angle + 1 < turn →
      (shaftTurned turn false r).angle = r.angle + 1 ∧ (shaftTurned turn false r).sync = r.sync) ∧
    (r.sync ≠ .lost → turn ≤ r.angle + 1 →
      (shaftTurned turn false r).angle = turn ∧ (shaftTurned turn false r).sync = .lost) ∧
    (r.sync = .lost → (shaftTurned turn false r).angle = r.angle ∧ (shaftTurned turn false r).sync = .lost) := by
  simp only [shaftTurned]
  refine ⟨⟨rfl, rfl⟩, fun h hlt => ?_, fun h hle => ?_, fun h => ?_⟩
  · rw [if_neg nofun, if_neg h, if_neg (by omega)]
    exact ⟨rfl, rfl⟩
  · rw [if_neg nofun, if_neg h, if_pos hle]
    exact ⟨rfl, rfl⟩
  · rw [if_neg nofun, if_pos h]
    exact ⟨rfl, h⟩

/-- An arrival whose gate ends no scan changes the scan link at most, and moves the shaft alone of the KS record. -/
theorem shaftArrival_of_quiet {index : Bool} {f : LinkRec → LinkRec}
    (h : shaftGated s l index = (shaftMoved s l index).modScanLink k f) :
    TellsAs (shaftGated s l index) s ∧ (shaftGated s l index).line l = s.line l ∧
      (s.shaftArrival l index).spanRecs = s.spanRecs ∧
      (s.shaftArrival l index).knot l = { s.knot l with
        angle := ((s.shaftArrival l index).knot l).angle, sync := ((s.shaftArrival l index).knot l).sync
        gateTaken := s.gateCountsOf l } ∧
      (s.shaftArrival l index).scanLink k = f (s.scanLink k) := by
  have hknot : (s.shaftArrival l index).knot l = (shaftMoved s l index).knot l := by
    rw [shaftArrival_knot, h]
    cases k <;> rfl
  rw [shaftArrival_spanRecs, hknot, shaftArrival_scanLink, h, modScanLink_scanLink_self, shaftMoved_knot]
  cases k <;> exact ⟨⟨rfl, rfl⟩, rfl, rfl, rfl, rfl⟩

/-- The state an overrun row of an arrival is judged in. -/
def shaftOverrun (s : State) (l : LineId) (index : Bool) (k : ScanLink) : State := scanEnded (shaftMoved s l index) k

theorem shaftOverrun_knot (s : State) (l : LineId) (index : Bool) (k : ScanLink) :
    (shaftOverrun s l index k).knot l = (shaftMoved s l index).knot l := by cases k <;> rfl

theorem shaftOverrun_rowsAs (s : State) (l : LineId) (index : Bool) (k : ScanLink) :
    RowsAs True l (shaftOverrun s l index k) s := by
  have hshaft : ShaftAlike ((shaftMoved s l index).knot l) (s.knot l) := ⟨_, _, _, shaftMoved_knot s l index⟩
  cases k <;> exact ⟨rfl, rfl, rfl, hshaft, fun _ => ⟨⟨rfl, rfl⟩, rfl, rfl⟩⟩

theorem shaftOverrun_line (s : State) (l : LineId) (index : Bool) (k : ScanLink) :
    (shaftOverrun s l index k).line l = s.line l ∧ (shaftOverrun s l index k).knotSpec l = s.knotSpec l := by
  cases k <;> exact ⟨rfl, rfl⟩

/-- The gate of an arrival, of a line with a scan link and a NET recipe: what it does by its level before and after. -/
theorem shaftGated_cases {spec : KnotSpec} {n : Nat} (hk : (s.line l).cfg.scanLink = some k)
    (hspec : s.knotSpec l = some spec) (hn : (s.line l).cfg.countsPerRev = some n) (index : Bool) :
    let high := GateHigh ((s.shaftArrival l index).knot l) (gateBounds spec n)
    (high → (s.scanLink k).gate = false → (s.scanLink k).scan = none →
      shaftGated s l index = (shaftMoved s l index).modScanLink k fun r => { r with gate := true }) ∧
    (∀ scan, high → (s.scanLink k).gate = false → (s.scanLink k).scan = some scan →
      shaftGated s l index = gateOpened ((shaftOverrun s l index k).judgeRow l scan .overrun none) k) ∧
    (¬high → (s.scanLink k).gate = true → shaftGated s l index =
      (shaftMoved s l index).modScanLink k fun r => { r with gate := false, scan := some ⟨(s.pos l).position, []⟩ }) ∧
    ((high ↔ (s.scanLink k).gate = true) → shaftGated s l index = (shaftMoved s l index).modScanLink k id) := by
  intro high
  have hlevel : (shaftMoved s l index).gateLevel l = true ↔ high := shaftMoved_gateLevel hspec hn index
  have hlink : (shaftMoved s l index).scanLink k = s.scanLink k := by cases k <;> rfl
  refine ⟨fun hhigh hgate hscan => ?_, fun scan hhigh hgate hscan => ?_, fun hlow hgate => ?_, fun hsame => ?_⟩
  · exact evaluateGate_opens hk (hlevel.mpr hhigh) (by rwa [hlink]) (by rwa [hlink])
  · exact evaluateGate_overruns hk (hlevel.mpr hhigh) (by rwa [hlink]) (by rwa [hlink])
  · exact evaluateGate_closes hk (Bool.eq_false_iff.mpr (mt hlevel.mp hlow)) (by rwa [hlink])
  · have hkept : shaftGated s l index = shaftMoved s l index :=
      evaluateGate_of_same hk (by rw [hlink]; exact Bool.eq_iff_iff.mpr (hlevel.trans hsame))
    rw [hkept]
    cases k <;> rfl

/-- An overrun row gives no column a judgment. -/
theorem rowMarks_overrun (spec : KnotSpec) (scan : Scan) :
    rowMarks spec scan true = List.replicate spec.columnsUsed .unknown := by
  refine List.ext_getElem (by simp [rowMarks]) fun i _ _ => ?_
  simp [rowMarks, judgeColumn]

theorem rowJudged_columns_overrun (s : State) (l : LineId) (spec : KnotSpec) (scan : Scan) :
    ((rowJudged s l spec scan true).knot l).columns = (s.knot l).columns := by
  have hunknown : ∀ m ∈ (rowMarks spec scan true).zipIdx, m.1 = .unknown := fun m hm => by
    rw [rowMarks_overrun] at hm
    exact List.eq_of_mem_replicate (List.fst_mem_of_mem_zipIdx hm)
  unfold rowJudged
  rw [judgeMesh_knot_frame, judgeUnseen_knot, columnsJudged_of_unknown hunknown, rowCounted, modKnot_knot_self]

/-- Settles O26: the levels are taken, and an arrival of a running line moves the shaft and has the gate evaluated. -/
theorem shaftEdgeTurnsShaft : Obligations.ShaftEdgeTurnsShaft := by
  intro s w a b hacc hrole ch c count index
  let rises := risingEdge c.invert c.refA a
  let indexed := risingEdge c.invert c.refB b
  have hcount : rises = true ↔ count := risingEdge_iff ..
  have hindex : indexed = true ↔ index := risingEdge_iff ..
  have hframe := shaftStep_frame s ch a b
  have hchannels : (s.shaftStep ch a b).chooseFrame.channels = (shaftCounted s ch a b rises).channels := by
    rw [chooseFrame_eq_link, hframe]
  have hchannel : ∀ d, (s.shaftStep ch a b).chooseFrame.channel d =
      if d = ch then { c with refA := a, refB := b, count := if rises then c.count + 1 else c.count } else s.channel d :=
    fun d => by
      rw [State.channel, hchannels]
      exact modChannel_channel s ch _ d
  refine ⟨_, exec_shaftEdge hacc hrole, fun h => ?_, fun h => ?_, fun d hd => ?_,
    surroundings_chooseFrame ((Calm.refl s).shaftStep _ _ _).surroundings, ?_, fun hidle => ?_, fun l hserved hrun => ?_⟩
  · rw [hchannel, if_pos rfl, if_pos (hcount.mpr h)]
  · rw [hchannel, if_pos rfl, if_neg (mt hcount.mp h)]
  · rw [hchannel, if_neg hd]
  · rw [chooseFrame_eq_link, hframe]; rfl
  · rw [hchannels, shaftStep_of_idle hidle]; rfl
  intro turn
  by_cases hedge : rises = true ∨ indexed = true
  case neg =>
    obtain ⟨hquiet, hquiet'⟩ := not_or.mp hedge
    have hnone : ¬(count ∨ index) := fun h => hedge (h.imp hcount.mpr hindex.mpr)
    rw [shaftStep_of_quiet (Bool.eq_false_iff.mpr hquiet) (Bool.eq_false_iff.mpr hquiet')]
    refine ⟨fun h => absurd (.inr h) hnone, fun h => absurd (.inl h) hnone, fun h => absurd (.inl h) hnone,
      fun h => absurd (.inl h) hnone, fun x _ => ?_, fun _ _ => ⟨chooseFrame_knot _ _, fun j => chooseFrame_scanLink _ j⟩,
      fun _ _ _ _ _ _ h => absurd h hnone⟩
    exact ⟨chooseFrame_knot _ _, chooseFrame_line _ _, chooseFrame_spanRec _ _⟩
  case pos =>
    let u := shaftCounted s ch a b rises
    have hstep : s.shaftStep ch a b = u.shaftArrival l indexed := shaftStep_of_running hserved hrun hedge
    have hlost : ShaftLost u l indexed ↔ count ∧ ¬index ∧ (s.knot l).sync ≠ .lost ∧ turn ≤ (s.knot l).angle + 1 := by
      have hnot : indexed = false ↔ ¬index := by rw [← hindex, Bool.not_eq_true]
      refine ⟨fun ⟨hfalse, hrest⟩ => ⟨hcount.mp (hedge.resolve_right (by simp [hfalse])), hnot.mp hfalse, hrest⟩,
        fun ⟨_, hni, hrest⟩ => ⟨hnot.mpr hni, hrest⟩⟩
    have hothers := (ScanFrame.shaftArrival u l indexed).chooseFrame.others
    have hknot : (u.shaftArrival l indexed).chooseFrame.knot l = (u.shaftArrival l indexed).knot l := chooseFrame_knot _ _
    have hlink : ∀ j, (u.shaftArrival l indexed).chooseFrame.scanLink j = (u.shaftArrival l indexed).scanLink j :=
      chooseFrame_scanLink _
    have hspans := chooseFrame_spanRecs (u.shaftArrival l indexed)
    obtain ⟨hsync, hangle, htaken⟩ := shaftArrival_shaft u l indexed
    obtain ⟨hindexed, hcounted, hlosing, hkept⟩ := shaftTurned_cases turn (s.knot l)
    have hcountOnly : ¬index → indexed = false := fun h => Bool.eq_false_iff.mpr (mt hindex.mp h)
    rw [hstep]
    refine ⟨fun h => ?_, fun _ hni hs hlt => ?_, fun hc hni hs hle => ?_, fun _ hni hs => ?_, fun x hx => hothers x hx,
      fun hnc hni => absurd hedge ?_, fun k spec n hk hspec hn hci => ?_⟩
    · rw [hknot, hsync, hangle, hindex.mpr h]
      exact hindexed
    · rw [hknot, hsync, hangle, hcountOnly hni]
      exact hcounted hs hlt
    · have hstopped : StoppedFor ((u.shaftArrival l indexed).chooseFrame.line l) .shaftIndex := by
        rw [chooseFrame_line, shaftArrival_of_lost (hlost.mpr ⟨hc, hni, hs, hle⟩)]
        refine stoppedFor_offered (decide_eq_true ?_)
        exact (ScanFrame.shaftGated u l indexed).line.runs (of_decide_eq_true hrun)
      rw [hknot, hsync, hangle, hcountOnly hni]
      exact ⟨(hlosing hs hle).1, (hlosing hs hle).2, hcountOnly hni ▸ hstopped⟩
    · rw [hknot, hsync, hangle, hcountOnly hni]
      exact hkept hs
    · rw [hcount, hindex]
      exact not_or.mpr ⟨hnc, hni⟩
    intro high row gates lost linkFrom
    obtain ⟨hopens, hoverruns, hcloses, hsame⟩ := shaftGated_cases (s := u) (l := l) hk hspec hn indexed
    have htakenGates : u.gateCountsOf l = gates := gateCountsOf_of_spec hspec hn
    have hlinkFrom : ∀ x, TellsAs (shaftGated u l indexed) x → (shaftGated u l indexed).line l = x.line l → linkFrom x :=
      fun x htells hline => by
        obtain ⟨hlose, hkeep⟩ := shaftArrival_link htells hline
        exact ⟨fun h => hlose (hlost.mpr h), fun h => hkeep (mt hlost.mp h)⟩
    have hhigh : GateHigh ((u.shaftArrival l indexed).knot l) (gateBounds spec n) = high := by rw [← hknot]
    have hquiet : ∀ f, shaftGated u l indexed = (shaftMoved u l indexed).modScanLink k f → linkFrom s ∧
        (u.shaftArrival l indexed).chooseFrame.knot l = { row with
          angle := ((u.shaftArrival l indexed).chooseFrame.knot l).angle
          sync := ((u.shaftArrival l indexed).chooseFrame.knot l).sync, gateTaken := gates } ∧
        (u.shaftArrival l indexed).chooseFrame.spanRecs = s.spanRecs ∧
        (u.shaftArrival l indexed).chooseFrame.scanLink k = f (s.scanLink k) := fun f hf => by
      obtain ⟨htells, hline, hspanRecs, hrow, hscan⟩ := shaftArrival_of_quiet hf
      refine ⟨hlinkFrom s ⟨htells.link, htells.stamp⟩ hline, ?_, hspans.trans hspanRecs, (hlink k).trans ?_⟩
      · rw [hknot, ← htakenGates]; exact hrow
      · rw [hscan]; cases k <;> rfl
    rw [hhigh] at hopens hoverruns hcloses hsame
    refine ⟨by rw [hknot, htaken, htakenGates], fun hnot => ?_, fun j hj => ?_, fun hup hgate => ?_, fun hlow hgate => ?_,
      fun hiff => ?_⟩
    · by_cases hup : high
      · cases hgate : (s.scanLink k).gate with
        | true => exact (hquiet _ (hsame ⟨fun _ => hgate, fun _ => hup⟩)).1
        | false =>
          refine (hquiet _ (hopens hup hgate ?_)).1
          exact Classical.byContradiction fun hscan => hnot ⟨hup, hgate, hscan⟩
      · cases hgate : (s.scanLink k).gate with
        | true => exact (hquiet _ (hcloses hup hgate)).1
        | false =>
          have hdown : (u.scanLink k).gate = false := hgate
          exact (hquiet _ (hsame ⟨fun h => absurd h hup, fun h => absurd (hdown.symm.trans h) nofun⟩)).1
    · rw [hlink, shaftArrival_scanLink]
      refine (evaluateGate_scanLink_of_ne (s := shaftMoved u l indexed) hk hj).trans ?_
      cases j <;> rfl
    · cases hscan : (s.scanLink k).scan with
      | none =>
        obtain ⟨-, hrow, hspanRecs, hscanned⟩ := hquiet _ (hopens hup hgate hscan)
        refine ⟨?_, fun _ => ⟨hrow, hspanRecs⟩, nofun⟩
        rw [hscanned, ← hscan]
      | some scan =>
        have hgated := hoverruns scan hup hgate hscan
        obtain ⟨hoverLine, hoverSpec⟩ := shaftOverrun_line u l indexed k
        have hrows : RowsAs True l (shaftOverrun u l indexed k) s := by
          obtain ⟨hopen, hstart, hsr, hkn, htl⟩ := shaftOverrun_rowsAs u l indexed k
          exact ⟨hopen, hstart, hsr, hkn, fun h => ⟨⟨(htl h).1.link, (htl h).1.stamp⟩, (htl h).2⟩⟩
        have hjudged := hrows.judgeRow hoverSpec (congrArg LineRec.cfg hoverLine) scan .overrun none
        refine ⟨?_, nofun, ?_⟩
        · rw [hlink, shaftArrival_scanLink, hgated, gateOpened, modScanLink_scanLink_self, judgeRow_scanLink]
          cases k <;> rfl
        rintro _ ⟨⟩
        have hover : (shaftOverrun u l indexed k).knotSpec l = some spec := hoverSpec.trans hspec
        have hrowKnot : (u.shaftArrival l indexed).chooseFrame.knot l =
            ((shaftOverrun u l indexed k).judgeRow l scan .overrun none).knot l := by
          rw [hknot, shaftArrival_knot, hgated]
          cases k <;> rfl
        have hrowSpans : (u.shaftArrival l indexed).chooseFrame.spanRecs =
            ((shaftOverrun u l indexed k).judgeRow l scan .overrun none).spanRecs := by
          rw [hspans, shaftArrival_spanRecs, hgated]
          cases k <;> rfl
        have hcolumns := rowJudged_columns_overrun (shaftOverrun u l indexed k) l spec scan
        rw [shaftOverrun_knot, shaftMoved_knot] at hcolumns
        refine ⟨?_, ?_, ?_, ⟨rowResult (shaftOverrun u l indexed k) l spec scan .overrun none
          ((((shaftOverrun u l indexed k).knot l).rowIndex + 1) % 4294967296), ?_, rfl, rfl, rowMarks_overrun spec scan⟩,
          hrowSpans.trans hjudged.spanRecs, ?_⟩
        · rw [hrowKnot, judgeRow_knot hover, ← hrows.rowIndex, ← rowJudged_rowIndex]
        · rw [hrowKnot, judgeRow_knot hover]
        · rw [hrowKnot, judgeRow_knot hover]
          exact hcolumns
        · rw [hrowKnot, judgeRow_knot hover]
        · obtain ⟨htells, hline, -⟩ := hjudged.tells trivial
          refine hlinkFrom _ ?_ ?_
          · rw [hgated]
            cases k <;> exact ⟨htells.link, htells.stamp⟩
          · rw [hgated, ← hline]
            cases k <;> rfl
    · obtain ⟨-, hrow, hspanRecs, hscanned⟩ := hquiet _ (hcloses hlow hgate)
      exact ⟨hscanned, hrow, hspanRecs⟩
    · obtain ⟨-, hrow, hspanRecs, hscanned⟩ := hquiet _ (hsame hiff)
      exact ⟨hscanned, hrow, hspanRecs⟩

end Sys2Proof.Proofs

/-! BOARD_FRAME: the parity of a board, the end of a scan, its row and its chain state; the statement O55. -/

namespace Sys2Proof.Proofs

open Sys2Proof.Machine Sys2Proof.Safety

variable {s t : State} {l : LineId} {k : ScanLink}

/-! ## The frame of a board (R99, R101) -/

theorem onesBelow_eq (w : BitVec 10) (n : Nat) : onesBelow w n = (List.range n).countP fun i => w.getLsbD i := by
  induction n with
  | zero => rfl
  | succ n ih =>
    rw [onesBelow, ih, List.range_succ, List.countP_append, List.countP_singleton, Nat.add_comm]
    cases w.getLsbD n <;> rfl

theorem parityGood_eq (w : BitVec 10) :
    parityGood w = decide (((List.range 9).countP fun i => w.getLsbD i) % 2 = 1) := by
  rw [parityGood, onesBelow_eq]
  exact Bool.eq_iff_iff.mpr (by simp)

/-- The parity count of board `b + 1` after a frame of it. -/
def parityCount (s : State) (k : ScanLink) (b : Nat) (good : Bool) : Nat :=
  if good then 0 else min 255 (((s.scanLink k).parity[b]?).getD 0 + 1)

/-- The parity count stored. -/
def parityMarked (s : State) (k : ScanLink) (b : Nat) (good : Bool) : State :=
  s.modScanLink k fun r => { r with parity := r.parity.mapIdx fun i n => if i = b then parityCount s k b good else n }

/-- The third parity error told (R101). -/
def parityTold (s : State) (k : ScanLink) (l : LineId) (b : Nat) (count : Nat) : State :=
  if count = 3 then s.notify (some l) (.scanFault k .boardFault (some (b + 1)) (s.knot l).rowIndex) else s

/-- The third parity error told, and BOARD_FAULT offered from there (R101). -/
def parityChecked (s : State) (k : ScanLink) (l : LineId) (b : Nat) (count : Nat) : State :=
  if 3 ≤ count then (parityTold s k l b count).offerCause l .boardFault else parityTold s k l b count

theorem checkParity_eq (s : State) (k : ScanLink) (l : LineId) (b : Nat) (good : Bool) :
    s.checkParity k l b good = parityChecked (parityMarked s k b good) k l b (parityCount s k b good) := by
  cases good <;> rfl

theorem RowFrame.parityChecked (s : State) (k : ScanLink) (l : LineId) (b count : Nat) :
    RowFrame l s (parityChecked s k l b count) := by
  have htold : RowFrame l s (parityTold s k l b count) := by
    unfold parityTold
    split
    · exact (RowFrame.refl s).notify _ _
    · exact .refl s
  unfold Proofs.parityChecked
  split
  · exact htold.offerCause _
  · exact htold

/-- States that tell alike and agree in the line check a parity count alike. -/
theorem parityChecked_tells (htells : TellsAs s t) (hline : s.line l = t.line l) (hknot : s.knot l = t.knot l)
    (k : ScanLink) (b count : Nat) : TellsAs (parityChecked s k l b count) (parityChecked t k l b count) ∧
      (parityChecked s k l b count).line l = (parityChecked t k l b count).line l := by
  have htold : TellsAs (parityTold s k l b count) (parityTold t k l b count) ∧
      (parityTold s k l b count).line l = (parityTold t k l b count).line l := by
    unfold parityTold
    rw [hknot]
    split
    · exact ⟨htells.notify _ _, by rw [notify_eq s, notify_eq t]; exact hline⟩
    · exact ⟨htells, hline⟩
  obtain ⟨htold, htoldLine⟩ := htold
  unfold parityChecked
  split
  · exact ⟨htold.offerCause htoldLine _, by rw [offerCause_line_self, offerCause_line_self, htoldLine]⟩
  · exact ⟨htold, htoldLine⟩

theorem parityChecked_stopped {b count : Nat} (hrun : s.runOpen l = true) (h : 3 ≤ count) :
    StoppedFor ((parityChecked s k l b count).line l) .boardFault := by
  rw [parityChecked, if_pos h]
  refine stoppedFor_offered (Eq.trans ?_ hrun)
  unfold parityTold
  split
  · rw [notify_eq]; rfl
  · rfl

/-- The checks change neither the KS records nor the spans. -/
theorem parityChecked_same (s : State) (k : ScanLink) (l : LineId) (b count : Nat) :
    parityChecked s k l b count =
      { s with lines := (parityChecked s k l b count).lines, link := (parityChecked s k l b count).link } := by
  have htold : parityTold s k l b count = { s with link := (parityTold s k l b count).link } := by
    unfold parityTold
    split
    · exact notify_eq ..
    · rfl
  unfold parityChecked
  split
  · rw [offerCause_frame, htold]
  · rw [htold]

/-! ## The chain state (R102) -/

/-- The chain state stored. -/
def chainMarked (s : State) (k : ScanLink) (c : ChainState) : State := s.modScanLink k fun r => { r with chain := c }

/-- The notice of a chain state that a scan has changed to. -/
def chainNotice (k : ScanLink) (c : ChainState) (endBoard : Option Nat) (row : Nat) : NoticeBody :=
  if c = .short then .scanFault k .chainShort endBoard row else .scanFault k .chainLong none row

theorem setChain_of_same {o : ScanOutcome} {c : ChainState} (ho : o.chain = some c)
    (h : o = .complete ∨ (s.scanLink k).chain = c) (e : Option Nat) : s.setChain k l o e = chainMarked s k c := by
  unfold State.setChain
  rw [ho]
  dsimp only
  split
  · rfl
  next hne =>
    obtain rfl := h.resolve_right hne
    obtain rfl : c = .normal := (Option.some.inj ho).symm
    rfl

theorem setChain_of_changed {o : ScanOutcome} {c : ChainState} (ho : o.chain = some c) (hcomplete : o ≠ .complete)
    (h : (s.scanLink k).chain ≠ c) (e : Option Nat) : s.setChain k l o e =
      (chainMarked s k c).notify (some l) (chainNotice k c e (s.knot l).rowIndex) := by
  have hknot : (chainMarked s k c).knot l = s.knot l := by cases k <;> rfl
  unfold State.setChain
  rw [ho]
  dsimp only
  rw [if_neg h, ← hknot]
  cases o with
  | complete => exact absurd rfl hcomplete
  | short => obtain rfl : c = .short := (Option.some.inj ho).symm; rfl
  | long => obtain rfl : c = .long := (Option.some.inj ho).symm; rfl
  | overrun => exact nomatch ho

/-! ## The end of a scan (R100, R102, R105) -/

/-- States in which the rows of a line are judged alike and leave the same KS records. -/
structure RowsSame (told : Prop) (l : LineId) (s t : State) : Prop where
  rows : RowsAs told l s t
  spec : s.knotSpec l = t.knotSpec l
  cfg : (s.line l).cfg = (t.line l).cfg
  knots : s.knots = t.knots

namespace RowsSame

variable {told : Prop}

theorem modScanLink (h : RowsSame told l s t) (k : ScanLink) (f : LinkRec → LinkRec) :
    RowsSame told l (s.modScanLink k f) t := by
  obtain ⟨⟨hrun, hstart, hspans, hknot, htells⟩, hspec, hcfg, hknots⟩ := h
  cases k <;> exact ⟨⟨hrun, hstart, hspans, hknot, fun h => ⟨⟨(htells h).1.link, (htells h).1.stamp⟩, (htells h).2⟩⟩,
    hspec, hcfg, hknots⟩

theorem withChoices (h : RowsSame told l s t) (n : Nat) : RowsSame told l { s with choices := n } t := by
  obtain ⟨⟨hrun, hstart, hspans, hknot, htells⟩, hspec, hcfg, hknots⟩ := h
  exact ⟨⟨hrun, hstart, hspans, hknot, fun h => ⟨⟨(htells h).1.link, (htells h).1.stamp⟩, (htells h).2⟩⟩, hspec, hcfg, hknots⟩

theorem notify (h : RowsSame True l s t) (x : Option LineId) (b : NoticeBody) :
    RowsSame True l (s.notify x b) (t.notify x b) := by
  refine ⟨h.rows.notify (fun _ => rfl) x, ?_, ?_, ?_⟩
  · rw [notify_eq s, notify_eq t]; exact h.spec
  · rw [notify_eq s, notify_eq t]; exact h.cfg
  · rw [notify_eq s, notify_eq t]; exact h.knots

/-- The notices sent make no difference to the records. -/
theorem notified (h : RowsSame False l s t) (x : Option LineId) (b : NoticeBody) : RowsSame False l (s.notify x b) t := by
  obtain ⟨⟨hrun, hstart, hspans, hknot, -⟩, hspec, hcfg, hknots⟩ := h
  rw [notify_eq]
  exact ⟨⟨hrun, hstart, hspans, hknot, False.elim⟩, hspec, hcfg, hknots⟩

theorem judgeRow_records (h : RowsSame told l s t) (scan : Scan) (o : ScanOutcome) (e : Option Nat) :
    (s.judgeRow l scan o e).knots = (t.judgeRow l scan o e).knots ∧
      (s.judgeRow l scan o e).spanRecs = (t.judgeRow l scan o e).spanRecs :=
  ⟨judgeRow_knots h.rows h.spec h.cfg h.knots scan o e, (h.rows.judgeRow h.spec h.cfg scan o e).spanRecs⟩

theorem judgeRow_tells (h : RowsSame True l s t) (scan : Scan) (o : ScanOutcome) (e : Option Nat) :
    TellsAs (s.judgeRow l scan o e) (t.judgeRow l scan o e) :=
  ((h.rows.judgeRow h.spec h.cfg scan o e).tells trivial).1

end RowsSame

theorem freelyOrdered_pair {α : Type} (seed : Nat) (x y : α) :
    freelyOrdered seed [x, y] = [x, y] ∨ freelyOrdered seed [x, y] = [y, x] := by
  show insertAt (_ % 2) x [y] = [x, y] ∨ insertAt (_ % 2) x [y] = [y, x]
  rcases Nat.mod_two_eq_zero_or_one (Config.freeOrder (seed + [y].length)) with h | h <;> rw [h]
  · exact .inl rfl
  · exact .inr rfl

/-- The end of a scan with its chain state as it was: the row is judged. -/
theorem endScan_of_same {o : ScanOutcome} {c : ChainState} (ho : o.chain = some c)
    (h : o = .complete ∨ (s.scanLink k).chain = c) (scan : Scan) (e : Option Nat) :
    s.endScan k l scan o e = chainMarked ((scanEnded s k).judgeRow l scan o e) k c := by
  have hchain : (((scanEnded s k).judgeRow l scan o e).scanLink k).chain = (s.scanLink k).chain := by
    rw [judgeRow_scanLink, scanEnded, modScanLink_scanLink_self]
  unfold State.endScan
  dsimp only
  rw [if_pos (h.imp_right fun h => by rw [ho, h])]
  exact setChain_of_same ho (h.imp_right hchain.trans) e

/-- The scan ended, with a free order of the two things done at its end taken. -/
def scanOrdered (s : State) (k : ScanLink) : State := { scanEnded s k with choices := (scanEnded s k).choices + 1 }

theorem scanOrdered_chain (s : State) (k : ScanLink) : ((scanOrdered s k).scanLink k).chain = (s.scanLink k).chain := by
  cases k <;> rfl

/-- The end of a scan that changes its chain state: the row is judged before or after the change. -/
theorem endScan_of_changed {o : ScanOutcome} {c : ChainState} (ho : o.chain = some c) (hcomplete : o ≠ .complete)
    (h : (s.scanLink k).chain ≠ c) (scan : Scan) (e : Option Nat) :
    s.endScan k l scan o e = (chainMarked ((scanOrdered s k).judgeRow l scan o e) k c).notify (some l)
        (chainNotice k c e (((scanOrdered s k).judgeRow l scan o e).knot l).rowIndex) ∨
      s.endScan k l scan o e = ((chainMarked (scanOrdered s k) k c).notify (some l)
        (chainNotice k c e ((scanOrdered s k).knot l).rowIndex)).judgeRow l scan o e := by
  unfold State.endScan
  dsimp only
  rw [if_neg (not_or.mpr ⟨hcomplete, by rw [ho]; exact fun hsame => h (Option.some.inj hsame).symm⟩)]
  unfold State.inAnyOrder State.inOrder
  rcases freelyOrdered_pair (s.modScanLink k fun r => { r with scan := none }).choices ScanEndEvent.judge ScanEndEvent.chain
    with horder | horder <;> rw [horder]
  · refine .inl (setChain_of_changed (s := (scanOrdered s k).judgeRow l scan o e) ho hcomplete ?_ e)
    rw [judgeRow_scanLink, scanOrdered_chain]
    exact h
  · refine .inr (congrArg (State.judgeRow · l scan o e) (setChain_of_changed (s := scanOrdered s k) ho hcomplete ?_ e))
    rw [scanOrdered_chain]
    exact h

/-- What the end of a scan leaves (R100, R102, R105). -/
structure ScanClosed (k : ScanLink) (l : LineId) (scan : Scan) (o : ScanOutcome) (e : Option Nat) (c : ChainState)
    (s u : State) : Prop where
  ended : u.scanLink k = { s.scanLink k with scan := none, chain := c }
  scanLink : ∀ j, j ≠ k → u.scanLink j = s.scanLink j
  frame : ScanFrame l { s with choices := u.choices } u
  records : ∀ z, RowsSame False l s z →
    u.knots = (z.judgeRow l scan o e).knots ∧ u.spanRecs = (z.judgeRow l scan o e).spanRecs
  told : ∀ z, RowsSame True l s z →
    (o = .complete ∨ (s.scanLink k).chain = c → u.link = (z.judgeRow l scan o e).link) ∧
    (o ≠ .complete → (s.scanLink k).chain ≠ c →
      u.link = ((z.judgeRow l scan o e).notify (some l)
        (chainNotice k c e (((s.knot l).rowIndex + 1) % 4294967296))).link ∨
      u.link = ((z.notify (some l) (chainNotice k c e (s.knot l).rowIndex)).judgeRow l scan o e).link)

theorem notify_scanLink (s : State) (x : Option LineId) (b : NoticeBody) (j : ScanLink) :
    (s.notify x b).scanLink j = s.scanLink j := by
  rw [notify_eq]
  cases j <;> rfl

theorem ScanFrame.notify (h : ScanFrame l s t) (x : Option LineId) (b : NoticeBody) : ScanFrame l s (t.notify x b) :=
  h.row ((RowFrame.refl t).notify x b)

theorem ScanFrame.withChoices {n : Nat} (h : ScanFrame l { s with choices := n } t) :
    ScanFrame l { s with choices := t.choices } t := by
  have hchoices : t.choices = n := by rw [h.frame]
  rwa [hchoices]

/-- The chain state marked after the scan has ended. -/
theorem chainMarked_ended {x : State} {c : ChainState}
    (h : ∀ j, x.scanLink j = (scanEnded s k).scanLink j) : ((chainMarked x k c).scanLink k =
      { s.scanLink k with scan := none, chain := c }) ∧ ∀ j, j ≠ k → (chainMarked x k c).scanLink j = s.scanLink j := by
  refine ⟨?_, fun j hj => ?_⟩
  · rw [chainMarked, modScanLink_scanLink_self, h, scanEnded, modScanLink_scanLink_self]
  · rw [chainMarked, modScanLink_scanLink_of_ne _ _ _ hj, h, scanEnded, modScanLink_scanLink_of_ne _ _ _ hj]

theorem chainMarked_records (s : State) (k : ScanLink) (c : ChainState) :
    (chainMarked s k c).knots = s.knots ∧ (chainMarked s k c).spanRecs = s.spanRecs ∧ TellsAs (chainMarked s k c) s := by
  cases k <;> exact ⟨rfl, rfl, rfl, rfl⟩

/-- The end of a scan closes it, whichever of the two things done comes first. -/
theorem scanClosed_endScan {spec : KnotSpec} (hspec : s.knotSpec l = some spec) {o : ScanOutcome} {c : ChainState}
    (ho : o.chain = some c) (scan : Scan) (e : Option Nat) : ScanClosed k l scan o e c s (s.endScan k l scan o e) := by
  have hended : ∀ {told z}, RowsSame told l s z → RowsSame told l (scanEnded s k) z := fun h => h.modScanLink k _
  have hordered : ∀ {told z}, RowsSame told l s z → RowsSame told l (scanOrdered s k) z := fun h => (hended h).withChoices _
  have horderedLink : ∀ j, (scanOrdered s k).scanLink j = (scanEnded s k).scanLink j := fun j => by cases j <;> rfl
  have horderedKnot : (scanOrdered s k).knot l = s.knot l := by cases k <;> rfl
  have horderedFrame : ScanFrame l { s with choices := (scanOrdered s k).choices } (scanOrdered s k) := by
    cases k <;> exact ⟨rfl, fun _ _ => ⟨rfl, rfl, rfl⟩, .refl _⟩
  by_cases hsame : o = .complete ∨ (s.scanLink k).chain = c
  case pos =>
    rw [endScan_of_same ho hsame]
    obtain ⟨hk, hj⟩ := chainMarked_ended (c := c) (x := (scanEnded s k).judgeRow l scan o e)
      fun j => judgeRow_scanLink (scanEnded s k) l scan o e j
    obtain ⟨hknots, hspans, htells⟩ := chainMarked_records ((scanEnded s k).judgeRow l scan o e) k c
    refine ⟨hk, hj, ?_, fun z hz => ?_, fun z hz => ⟨fun _ => ?_, fun hcomplete hne => absurd hsame ?_⟩⟩
    · exact ScanFrame.withChoices ((((ScanFrame.refl s).modScanLink k _).row
        ((RowFrame.refl _).judgeRow scan o e)).modScanLink k _)
    · rw [hknots, hspans]
      exact (hended hz).judgeRow_records scan o e
    · exact htells.link.trans ((hended hz).judgeRow_tells scan o e).link
    · exact not_or.mpr ⟨hcomplete, hne⟩
  case neg =>
    obtain ⟨hcomplete, hchain⟩ := not_or.mp hsame
    rcases endScan_of_changed (l := l) ho hcomplete hchain scan e with hend | hend <;> rw [hend]
    · have hrow : (((scanOrdered s k).judgeRow l scan o e).knot l).rowIndex = ((s.knot l).rowIndex + 1) % 4294967296 := by
        have hspec' : (scanOrdered s k).knotSpec l = some spec := by cases k <;> exact hspec
        rw [judgeRow_knot hspec', ← horderedKnot, ← rowJudged_rowIndex]
      obtain ⟨hk, hj⟩ := chainMarked_ended (c := c) (x := (scanOrdered s k).judgeRow l scan o e)
        fun j => (judgeRow_scanLink (scanOrdered s k) l scan o e j).trans (horderedLink j)
      obtain ⟨hknots, hspans, htells⟩ := chainMarked_records ((scanOrdered s k).judgeRow l scan o e) k c
      refine ⟨?_, fun j hne => ?_, ?_, fun z hz => ?_, fun z hz => ⟨fun h => absurd h hsame, fun _ _ => .inl ?_⟩⟩
      · rw [notify_scanLink, hk]
      · rw [notify_scanLink, hj j hne]
      · exact ScanFrame.withChoices (((horderedFrame.row ((RowFrame.refl _).judgeRow scan o e)).modScanLink k _).notify _ _)
      · rw [notify_eq]
        dsimp only
        rw [hknots, hspans]
        exact (hordered hz).judgeRow_records scan o e
      · rw [hrow]
        exact (TellsAs.notify (htells.trans ((hordered hz).judgeRow_tells scan o e)) _ _).link
    · obtain ⟨hk, hj⟩ := chainMarked_ended (c := c) (x := scanOrdered s k) horderedLink
      refine ⟨?_, fun j hne => ?_, ?_, fun z hz => ?_, fun z hz => ⟨fun h => absurd h hsame, fun _ _ => .inr ?_⟩⟩
      · rw [judgeRow_scanLink, notify_scanLink, hk]
      · rw [judgeRow_scanLink, notify_scanLink, hj j hne]
      · exact ScanFrame.withChoices (((horderedFrame.modScanLink k _).notify _ _).row ((RowFrame.refl _).judgeRow scan o e))
      · exact (((hordered hz).modScanLink k _).notified _ _).judgeRow_records scan o e
      · rw [horderedKnot]
        exact ((((hordered hz).modScanLink k _).notify _ _).judgeRow_tells scan o e).link

/-! ## BOARD_FRAME -/

/-- The frame read into the scan of a link. -/
def boardRead (s : State) (k : ScanLink) (scan : Scan) : State := s.modScanLink k fun r => { r with scan := some scan }

theorem exec_boardFrame (s : State) (k : ScanLink) (bits : BitVec 10) :
    exec (.boardFrame k bits) s = .next (s.boardFrame k bits).chooseFrame := rfl

/-- The state with a board's frame read and its parity checked. -/
def boardChecked (s : State) (k : ScanLink) (l : LineId) (read : Scan) (b : Nat) (good : Bool) : State :=
  parityChecked (parityMarked (boardRead s k read) k b good) k l b (parityCount s k b good)

theorem boardRead_checkParity (s : State) (k : ScanLink) (l : LineId) (read : Scan) (b : Nat) (good : Bool) :
    (boardRead s k read).checkParity k l b good = boardChecked s k l read b good := by
  have hcount : parityCount (boardRead s k read) k b good = parityCount s k b good := by cases k <;> rfl
  rw [checkParity_eq, hcount]
  rfl

theorem parityChecked_scanLink (s : State) (k : ScanLink) (l : LineId) (b count : Nat) (j : ScanLink) :
    (parityChecked s k l b count).scanLink j = s.scanLink j := by
  rw [parityChecked_same]
  cases j <;> rfl

theorem boardChecked_scanLink (s : State) (k : ScanLink) (l : LineId) (read : Scan) (b : Nat) (good : Bool) :
    (boardChecked s k l read b good).scanLink k = { s.scanLink k with
      scan := some read
      parity := (s.scanLink k).parity.mapIdx fun i n => if i = b then parityCount s k b good else n } := by
  rw [boardChecked, parityChecked_scanLink]
  cases k <;> rfl

theorem boardChecked_scanLink_of_ne {j : ScanLink} (hj : j ≠ k) (s : State) (l : LineId) (read : Scan) (b : Nat)
    (good : Bool) : (boardChecked s k l read b good).scanLink j = s.scanLink j := by
  rw [boardChecked, parityChecked_scanLink, parityMarked, modScanLink_scanLink_of_ne _ _ _ hj, boardRead,
    modScanLink_scanLink_of_ne _ _ _ hj]

theorem ScanFrame.boardChecked (s : State) (k : ScanLink) (l : LineId) (read : Scan) (b : Nat) (good : Bool) :
    ScanFrame l s (boardChecked s k l read b good) :=
  (((ScanFrame.refl s).modScanLink k _).modScanLink k _).row (.parityChecked _ k l b _)

/-- What the judgment of a row reads of the state is as it was in a state that differs in what a row may change. -/
theorem RowFrame.reads (h : RowFrame l s t) : t.runOpen l = s.runOpen l ∧ t.coilStart l = s.coilStart l ∧
    t.knotSpec l = s.knotSpec l ∧ (t.line l).cfg = (s.line l).cfg ∧ (t.pos l).position = (s.pos l).position := by
  refine ⟨?_, ?_, ?_, ?_, ?_⟩
  · simp only [State.runOpen, ne_eq, h.line.idle]
  · rw [h.frame]; rfl
  · have hbound : (t.line l).bound = (s.line l).bound := by rw [h.line.frame]
    have hslots : t.slots = s.slots := by rw [h.frame]
    have hrecipe : t.recipe = s.recipe := funext fun n => congrArg (·.get n) hslots
    rw [State.knotSpec, State.knotSpec, State.boundRecipe, State.boundRecipe, hbound, hrecipe]
  · rw [h.line.frame]
  · rw [h.frame]; rfl

/-- The frame read makes no difference to the records of a row, and the notices of its check none to what a row tells. -/
theorem boardChecked_same (s : State) (k : ScanLink) (l : LineId) (read : Scan) (b : Nat) (good : Bool) :
    RowsSame False l (boardChecked s k l read b good) s ∧
      RowsSame True l (boardChecked s k l read b good) (parityChecked s k l b (parityCount s k b good)) := by
  have hmarked : RowsSame True l (parityMarked (boardRead s k read) k b good) s := by
    refine ((RowsSame.mk ⟨rfl, rfl, rfl, ⟨_, _, _, rfl⟩, fun _ => ⟨.refl s, rfl, rfl⟩⟩ rfl rfl rfl : RowsSame True l s s)
      |>.modScanLink k _).modScanLink k _
  obtain ⟨hrun, hstart, hspec, hcfg, hpos⟩ := (RowFrame.parityChecked (parityMarked (boardRead s k read) k b good) k l b
    (parityCount s k b good)).reads
  obtain ⟨hrun', hstart', hspec', hcfg', hpos'⟩ := (RowFrame.parityChecked s k l b (parityCount s k b good)).reads
  have hspans : (boardChecked s k l read b good).spanRecs = s.spanRecs := by
    rw [boardChecked, parityChecked_same]
    exact hmarked.rows.spanRecs
  have hknots : (boardChecked s k l read b good).knots = s.knots := by
    rw [boardChecked, parityChecked_same]
    exact hmarked.knots
  have hspans' : (parityChecked s k l b (parityCount s k b good)).spanRecs = s.spanRecs := by rw [parityChecked_same]
  have hknots' : (parityChecked s k l b (parityCount s k b good)).knots = s.knots := by rw [parityChecked_same]
  have hknot : (boardChecked s k l read b good).knot l = s.knot l := congrArg (PerLine.get · l) hknots
  have hknot' : (parityChecked s k l b (parityCount s k b good)).knot l = s.knot l := congrArg (PerLine.get · l) hknots'
  obtain ⟨htells, hline, -⟩ := hmarked.rows.tells trivial
  obtain ⟨htells, hline⟩ := parityChecked_tells htells hline (congrArg (PerLine.get · l) hmarked.knots) k b
    (parityCount s k b good)
  refine ⟨⟨⟨hrun.trans hmarked.rows.runOpen, hstart.trans hmarked.rows.start, hspans, ⟨_, _, _, hknot⟩, False.elim⟩,
    hspec.trans hmarked.spec, hcfg.trans hmarked.cfg, hknots⟩, ⟨⟨?_, ?_, hspans.trans hspans'.symm,
      ⟨_, _, _, hknot.trans hknot'.symm⟩, fun _ => ⟨htells, hline, ?_⟩⟩, ?_, congrArg LineRec.cfg hline, hknots.trans hknots'.symm⟩⟩
  · exact (hrun.trans hmarked.rows.runOpen).trans hrun'.symm
  · exact (hstart.trans hmarked.rows.start).trans hstart'.symm
  · exact (hpos.trans (hmarked.rows.tells trivial).2.2).trans hpos'.symm
  · exact (hspec.trans hmarked.spec).trans hspec'.symm

/-- What BOARD_FRAME does, by whether the board is the last and its frame has END = 1. -/
theorem boardFrame_eq {scan : Scan} (hscan : (s.scanLink k).scan = some scan) (howner : s.linkOwner k = some l)
    (bits : BitVec 10) :
    let read : Scan := { scan with frames := scan.frames ++ [⟨parityGood bits, columnBits bits⟩] }
    let checked := (boardRead s k read).checkParity k l scan.frames.length (parityGood bits)
    s.boardFrame k bits =
      if (s.line l).cfg.boardCount.getD 0 ≤ scan.frames.length + 1 then
        if endBit bits then checked.endScan k l read .complete (some (scan.frames.length + 1))
        else checked.endScan k l read .long none
      else if endBit bits then checked.endScan k l read .short (some (scan.frames.length + 1)) else checked := by
  intro read checked
  simp only [State.boardFrame, hscan, howner]
  by_cases hlast : (s.line l).cfg.boardCount.getD 0 ≤ scan.frames.length + 1
  · rw [decide_eq_true hlast, if_pos hlast]
    cases endBit bits <;> rfl
  · rw [decide_eq_false hlast, if_neg hlast]
    cases endBit bits <;> rfl

theorem boardFrame_of_none (h : (s.scanLink k).scan = none) (bits : BitVec 10) : s.boardFrame k bits = s := by
  simp only [State.boardFrame, h]

theorem boardChecked_parity {read : Scan} {b : Nat} (hb : b < 8) (good : Bool) (i : Nat) :
    ((boardChecked s k l read b good).scanLink k).parity[i]? =
      if i = b then some (parityCount s k b good) else (s.scanLink k).parity[i]? := by
  rw [boardChecked_scanLink]
  dsimp only
  rw [Vector.getElem?_mapIdx]
  by_cases hi : i = b
  · subst hi
    rw [Vector.getElem?_eq_getElem hb, if_pos rfl]
    simp
  · rw [if_neg hi]
    cases (s.scanLink k).parity[i]? <;> simp [hi]

/-- Settles O55: the frame read and its parity checked, and the scan ended where the frame is the last. -/
theorem boardFrameReadsNextBoard : Obligations.BoardFrameReadsNextBoard := by
  intro s k bits
  refine ⟨fun hnone => by rw [exec_boardFrame, boardFrame_of_none hnone], ?_⟩
  intro scan l spec hscan howner hrun hspec hlength b boards good count told checked outcome chain endBoard judgedFrom chainNotice
  let read : Scan := { scan with frames := scan.frames ++ [⟨good, bits.setWidth 8⟩] }
  let s1 := boardChecked s k l read b good
  have hgood : good = parityGood bits := (parityGood_eq bits).symm
  have hchecked : parityChecked s k l b count = checked := by
    unfold parityChecked
    split
    next h => exact (if_pos h).symm
    next h =>
      refine Eq.trans ?_ (if_neg h).symm
      exact if_neg fun h3 => h (Nat.le_of_eq h3.symm)
  have hframe := boardFrame_eq hscan howner bits
  dsimp only at hframe
  rw [← hgood, boardRead_checkParity, show endBit bits = bits.getLsbD 9 from rfl] at hframe
  obtain ⟨hrecords, htells⟩ := boardChecked_same s k l read b good
  have hstop : 3 ≤ count → StoppedFor (s1.line l) .boardFault := fun h =>
    parityChecked_stopped (Eq.trans (by cases k <;> rfl) hrun) h
  have hparity := boardChecked_parity (s := s) (k := k) (l := l) (read := read) hlength good
  have hlink := boardChecked_scanLink s k l read b good
  have hlinkOther : ∀ j, j ≠ k → s1.scanLink j = s.scanLink j := fun j hj => boardChecked_scanLink_of_ne hj s l read b good
  have hscanFrame : ScanFrame l s s1 := .boardChecked s k l read b good
  have hsurroundings := surroundings_chooseFrame ((Calm.refl s).boardFrame k bits).surroundings
  by_cases hopen : b + 1 < boards ∧ bits.getLsbD 9 = false
  case pos =>
    have hstep : s.boardFrame k bits = s1 := by
      rw [hframe, if_neg (Nat.not_le.mpr hopen.1), if_neg (Bool.eq_false_iff.mp hopen.2)]
      rfl
    refine ⟨_, exec_boardFrame s k bits, ?_⟩
    rw [hstep] at hsurroundings ⊢
    have hnot : ¬(boards ≤ b + 1 ∨ bits.getLsbD 9 = true) := not_or.mpr ⟨Nat.not_le.mpr hopen.1, Bool.eq_false_iff.mp hopen.2⟩
    refine ⟨fun i => ?_, ?_, fun j hj => ?_, fun h => ?_, fun _ _ => ⟨?_, ?_, ?_⟩, fun _ h => absurd (.inr h) hnot,
      fun h => absurd (.inl h) hnot, fun h => absurd h hnot, fun _ _ => ?_, fun h => absurd h hnot, fun y hy => ?_,
      hsurroundings, ?_⟩
    · rw [chooseFrame_scanLink]; exact hparity i
    · rw [chooseFrame_scanLink, hlink]
    · rw [chooseFrame_scanLink]; exact hlinkOther j hj
    · rw [chooseFrame_line]; exact hstop h
    · rw [chooseFrame_scanLink, hlink]
    · rw [chooseFrame_scanLink, hlink]
    · rw [chooseFrame_eq_link]
      exact hrecords.knots
    · rw [← hchecked]
      exact chooseFrame_link (htells.rows.tells trivial).1.link
    · exact hscanFrame.chooseFrame.others y hy
    · rw [hscanFrame.chooseFrame.frame]
  case neg =>
    have hend : boards ≤ b + 1 ∨ bits.getLsbD 9 = true := by
      rcases Nat.lt_or_ge (b + 1) boards with hlt | hge
      · exact .inr (eq_true_of_ne_false fun hclear => hopen ⟨hlt, hclear⟩)
      · exact .inl hge
    have hstep : s.boardFrame k bits = s1.endScan k l read outcome endBoard ∧ outcome.chain = some chain := by
      rw [hframe]
      by_cases hlt : b + 1 < boards
      · have hset : bits.getLsbD 9 = true := hend.resolve_left (Nat.not_le.mpr hlt)
        rw [if_neg (Nat.not_le.mpr hlt), if_pos hset, show outcome = _ from if_pos hlt, show chain = _ from if_pos hlt,
          show endBoard = _ from if_pos hset]
        exact ⟨rfl, rfl⟩
      · rw [if_pos (Nat.le_of_not_lt hlt), show outcome = _ from if_neg hlt, show chain = _ from if_neg hlt]
        by_cases hset : bits.getLsbD 9 = true
        · rw [if_pos hset, if_pos hset, if_pos hset, show endBoard = _ from if_pos hset]
          exact ⟨rfl, rfl⟩
        · rw [if_neg hset, if_neg hset, if_neg hset, show endBoard = _ from if_neg hset]
          exact ⟨rfl, rfl⟩
    have hnotice : outcome ≠ .complete → ∀ row, Proofs.chainNotice k chain endBoard row = chainNotice row := by
      intro hcomplete row
      by_cases hlt : b + 1 < boards
      · have hset : bits.getLsbD 9 = true := hend.resolve_left (Nat.not_le.mpr hlt)
        rw [show chainNotice row = _ from if_pos hlt, show chain = _ from if_pos hlt, show endBoard = _ from if_pos hset]
        rfl
      · have hclear : ¬bits.getLsbD 9 = true := fun hset =>
          hcomplete ((if_neg hlt : outcome = _).trans (if_pos hset))
        rw [show chainNotice row = _ from if_neg hlt, show chain = _ from if_neg hlt, if_neg hclear]
        rfl
    obtain ⟨hstep, hchain⟩ := hstep
    have hclosed := scanClosed_endScan (k := k) (hrecords.spec.trans hspec) hchain read endBoard
    rw [← hstep] at hclosed
    obtain ⟨hended, hother, hclosedFrame, hclosedRecords, htold⟩ := hclosed
    obtain ⟨hknots, hspanRecs⟩ := hclosedRecords s hrecords
    have hsame' : RowsSame True l s1 checked := hchecked ▸ htells
    have hchainSame : (s1.scanLink k).chain = (s.scanLink k).chain := by rw [hlink]
    have hrow : (s1.knot l).rowIndex = (s.knot l).rowIndex := hrecords.rows.rowIndex
    refine ⟨_, exec_boardFrame s k bits, ?_⟩
    refine ⟨fun i => ?_, ?_, fun j hj => ?_, fun h => ?_, fun hlt hclear => absurd ⟨hlt, hclear⟩ hopen, fun hlt hset => ⟨?_, ?_⟩,
      fun hge => ⟨?_, ?_⟩, fun _ => ?_, fun hlt hclear => absurd ⟨hlt, hclear⟩ hopen, fun _ => ⟨fun hsame => ?_,
      fun hcomplete hne => ?_⟩, fun y hy => ?_, hsurroundings, ?_⟩
    · rw [chooseFrame_scanLink, hended]; exact hparity i
    · rw [chooseFrame_scanLink, hended, hlink]
    · rw [chooseFrame_scanLink, hother j hj, hlinkOther j hj]
    · rw [chooseFrame_line]; exact hclosedFrame.line.stopped _ (hstop h)
    · rw [chooseFrame_scanLink, hended]
    · rw [chooseFrame_scanLink, hended]; exact if_pos hlt
    · rw [chooseFrame_scanLink, hended]
    · rw [chooseFrame_scanLink, hended]; exact if_neg (Nat.not_lt.mpr hge)
    · have hknot : (s.boardFrame k bits).chooseFrame.knot l = (judgedFrom s).knot l :=
        (chooseFrame_knot _ _).trans (congrArg (PerLine.get · l) hknots)
      rw [hknot, show (judgedFrom s).knot l = _ from judgeRow_knot hspec read outcome endBoard, rowJudged_rowIndex]
      exact ⟨rfl, rfl, rfl, by rw [chooseFrame_eq_link]; exact hknots, by rw [chooseFrame_spanRecs]; exact hspanRecs⟩
    · refine chooseFrame_link ((htold checked hsame').1 (hsame.imp_right hchainSame.trans))
    · rcases (htold checked hsame').2 hcomplete (fun h => hne (hchainSame.symm.trans h)) with hlast | hfirst
      · refine .inl (chooseFrame_link ?_)
        rw [hlast, hnotice hcomplete, hrow]
      · refine .inr (chooseFrame_link ?_)
        rw [hfirst, hnotice hcomplete, hrow]
    · obtain ⟨hknot, hline, hspan⟩ := hclosedFrame.chooseFrame.others y hy
      obtain ⟨hknot', hline', hspan'⟩ := hscanFrame.others y hy
      exact ⟨hknot.trans hknot', hline.trans hline', hspan.trans hspan'⟩
    · have hbefore : boardChecked s k l read b good = _ := hscanFrame.frame
      rw [hclosedFrame.chooseFrame.frame, hbefore]

end Sys2Proof.Proofs

/-! The tests that a count brings: marks, stalls, and cuts that are held; the statement O39. -/

namespace Sys2Proof.Proofs

open Sys2Proof.Machine Sys2Proof.Safety

variable {s t : State} {l : LineId}

/-! ## The mark test (R54 to R56) -/

theorem testMark_of_early {m : Nat} (hm : (s.pos l).markTarget = some m) (h : (s.pos l).position < m) : s.testMark l = s := by
  have hdue : ¬s.markDue l = true := by
    rw [markDue_iff, hm]
    rintro ⟨_, ⟨⟩, hle⟩
    omega
  unfold State.testMark
  rw [hm]
  cases s.coilRecipe l with
  | none => rfl
  | some r => exact if_neg hdue

/-- The state with the mark target of a due mark moved on. -/
def markMoved (s : State) (l : LineId) (m : Nat) (r : Recipe) : State :=
  s.modPos l fun p => { p with markTarget := some (m + r.markInterval * 1000000) }

theorem testMark_of_due {m : Nat} {r : Recipe} (hm : (s.pos l).markTarget = some m) (hr : s.coilRecipe l = some r)
    (h : m ≤ (s.pos l).position) : s.testMark l =
      if s.guard.latch then (markMoved s l m r).modCoil l fun k =>
        { k with coil := k.coil.map fun c => { c with suppressed := min 65535 (c.suppressed + 1) } }
      else ((markMoved s l m r).modCoil l fun k =>
        { k with coil := k.coil.map fun c => { c with marks := min 65535 (c.marks + 1) } }).modPos l fun p =>
          { p with markerPulse := some (s.now + (s.line l).cfg.markerPulse * 1000) } := by
  unfold State.testMark
  rw [hm, hr]
  exact if_pos (markDue_iff.mpr ⟨m, hm, h⟩)

/-! ## The stall test (R90) -/

theorem stallDue_iff {h : HeadId} {w : TwistWindow} {r : Recipe} (hw : (s.head h).window = some w)
    (hr : s.boundRecipe l = some r) (hstall : (s.head h).stall = false) :
    s.stallDue l h = true ↔ r.stallLength * 1000000 ≤ (s.pos l).position - w.stallRef := by
  simp only [State.stallDue, hw, hr, hstall, Bool.not_false, Bool.true_and, nmPerMm]
  exact decide_eq_true_iff

/-- The STALL span of a head that has stalled is opened (R90). -/
def stallTold (s : State) (l : LineId) (h : HeadId) (w : TwistWindow) (u : HeadSettings) : State :=
  s.submit l .stall (.head h) (.openSpan (w.stallRef + u.offset * 1000000) none 0)

/-- The head marked as stalled. -/
def stallMarked (s : State) (h : HeadId) : State := s.modHead h fun r => { r with stall := true }

theorem testStall_of_due {h : HeadId} {w : TwistWindow} {u : HeadSettings} (hdue : s.stallDue l h = true)
    (hw : (s.head h).window = some w) (hu : (s.head h).settings = some u) :
    s.testStall l h = (stallTold (stallMarked s h) l h w u).offerCause l .flyerStall := by
  unfold State.testStall
  rw [if_neg (by simp [hdue]), hw, hu]
  rfl

theorem stallTold_marked (s : State) (l : LineId) (h : HeadId) (w : TwistWindow) (u : HeadSettings) :
    (stallTold (stallMarked s h) l h w u).spanRecs = (stallTold s l h w u).spanRecs ∧
      TellsAs (stallTold (stallMarked s h) l h w u) (stallTold s l h w u) := by
  have hsame : SpansAs (stallTold (stallMarked s h) l h w u) (stallTold s l h w u) l :=
    SpansAs.submit (s := stallMarked s h) (t := s) (.of_same rfl rfl rfl rfl rfl rfl) _ _ _
  exact ⟨hsame.spanRecs, hsame.tells⟩

theorem stallTold_frame (s : State) (l : LineId) (h : HeadId) (w : TwistWindow) (u : HeadSettings) : stallTold s l h w u =
    { s with spanRecs := (stallTold s l h w u).spanRecs, link := (stallTold s l h w u).link } := submit_frame ..

/-! ## A cut that becomes HELD (R132, R143) -/

/-- The hold reasons that the model collects are those of the rules. -/
theorem holds_any_iff (s : State) (l : LineId) : (s.holds l).any = true ↔ HoldReason s l := by
  obtain ⟨hguard, hqueue, hpulse, hfollowerQueue, hfollowerPulse⟩ := holdsPresent s l
  simp only [HoldSet.any, Bool.or_eq_true, hguard, hqueue, hpulse, hfollowerQueue, hfollowerPulse, HoldReason]
  constructor
  · rintro ((((h | h) | h) | ⟨f, hf, hrun, h⟩) | ⟨f, hf, hrun, h⟩)
    · exact .inl h
    · exact .inr (.inl h)
    · exact .inr (.inr (.inl h))
    · exact .inr (.inr (.inr ⟨f, hf, hrun, .inl h⟩))
    · exact .inr (.inr (.inr ⟨f, hf, hrun, .inr h⟩))
  · rintro (h | h | h | ⟨f, hf, hrun, h | h⟩)
    · exact .inl (.inl (.inl (.inl h)))
    · exact .inl (.inl (.inl (.inr h)))
    · exact .inl (.inl (.inr h))
    · exact .inl (.inr ⟨f, hf, hrun, h⟩)
    · exact .inr ⟨f, hf, hrun, h⟩

theorem testDue_of_early {p : Placement} (h : (s.pos l).position < p.target) : s.testDue l p = s := if_neg (Nat.not_le.mpr h)

theorem testDue_of_held {p : Placement} (hdue : p.target ≤ (s.pos l).position) (hhold : HoldReason s l) :
    s.testDue l p = s.holdCut l p :=
  (if_pos hdue).trans (if_pos ((holds_any_iff s l).mpr hhold))

theorem testDue_of_free {p : Placement} (hdue : p.target ≤ (s.pos l).position) (hfree : ¬HoldReason s l) :
    s.testDue l p = s.performCut l (.placement p) :=
  (if_pos hdue).trans (if_neg (mt (holds_any_iff s l).mp hfree))

/-- The cut HELD, told and offered to its line. -/
def cutHeldOwn (s : State) (l : LineId) (p : Placement) : State :=
  ((s.modCoil l fun k => { k with stage := .held p }).notify (some l) (.cutHeld (s.coilRec l).number (p.target / 1000000)
    ((s.pos l).position / 1000000) (s.holds l))).offerCause l .cutHeld

theorem holdCut_eq (s : State) (l : LineId) (p : Placement) : s.holdCut l p = ((s.runningFollower l).map fun f =>
    ((cutHeldOwn s l p).offerCause f .cutHeld).modCoil f fun k => { k with pairedHold := true }).getD (cutHeldOwn s l p) := by
  unfold State.holdCut
  cases s.runningFollower l <;> rfl

/-- What a cut that becomes HELD leaves (R132, R143). -/
structure CutHeld (s t : State) (l : LineId) (p : Placement) : Prop where
  stage : t.coilRec l = { s.coilRec l with stage := .held p }
  line : t.line l = afterOffer (s.line l) .cutHeld
  told : HeldTold s t l p
  follower : ∀ f, s.follower l = some f → (s.line f).state ≠ .idle →
    t.line f = afterOffer (s.line f) .cutHeld ∧ t.coilRec f = { s.coilRec f with pairedHold := true }
  others : ∀ y, y ≠ l → s.follower l ≠ some y ∨ (s.line y).state = .idle → t.line y = s.line y ∧ t.coilRec y = s.coilRec y
  frame : t = { s with coils := t.coils, lines := t.lines, link := t.link }

theorem cutHeldOwn_coilRec (s : State) (l : LineId) (p : Placement) (y : LineId) : (cutHeldOwn s l p).coilRec y =
    if y = l then { s.coilRec l with stage := .held p } else s.coilRec y := by
  rw [cutHeldOwn, offerCause_frame, notify_eq]
  exact modCoil_coilRec s l (fun k => { k with stage := .held p }) y

theorem cutHeldOwn_line (s : State) (l : LineId) (p : Placement) (y : LineId) : (cutHeldOwn s l p).line y =
    if y = l then afterOffer (s.line l) .cutHeld else s.line y := by
  rw [cutHeldOwn]
  split
  next h => rw [h, offerCause_line_self, notify_eq]; rfl
  next h => rw [offerCause_line_of_ne _ h, notify_eq]; rfl

theorem cutHeldOwn_frame (s : State) (l : LineId) (p : Placement) : cutHeldOwn s l p =
    { s with coils := (cutHeldOwn s l p).coils, lines := (cutHeldOwn s l p).lines, link := (cutHeldOwn s l p).link } := by
  rw [cutHeldOwn, offerCause_frame, notify_eq]
  rfl

/-- What the cut told and offered tells: the same of the state before it. -/
theorem cutHeldOwn_tells (s : State) (l : LineId) (p : Placement) : TellsAs (cutHeldOwn s l p)
    ((s.notify (some l) (.cutHeld (s.coilRec l).number (p.target / 1000000) ((s.pos l).position / 1000000)
      (s.holds l))).offerCause l .cutHeld) := by
  refine TellsAs.offerCause (TellsAs.notify (s := s.modCoil l _) (t := s) ⟨rfl, rfl⟩ _ _) ?_ _
  rw [notify_eq, notify_eq s]
  rfl

theorem cutHeld_holdCut (p : Placement) (hne : ∀ f, s.follower l = some f → f ≠ l) : CutHeld s (s.holdCut l p) l p := by
  rw [holdCut_eq]
  cases hf : s.runningFollower l with
  | none =>
    have hidle : ∀ f, s.follower l = some f → (s.line f).state = .idle := fun f hfollow =>
      Classical.byContradiction fun hrun => nomatch hf.symm.trans (runningFollower_eq_some.mpr ⟨hfollow, hrun⟩)
    refine ⟨?_, ?_, ⟨s.holds l, holdsPresent s l, fun _ => (cutHeldOwn_tells s l p).link, fun f hfollow hrun =>
      absurd (hidle f hfollow) hrun⟩, fun f hfollow hrun => absurd (hidle f hfollow) hrun, fun y hy _ => ⟨?_, ?_⟩,
      cutHeldOwn_frame s l p⟩
    · exact (cutHeldOwn_coilRec ..).trans (if_pos rfl)
    · exact (cutHeldOwn_line ..).trans (if_pos rfl)
    · exact (cutHeldOwn_line ..).trans (if_neg hy)
    · exact (cutHeldOwn_coilRec ..).trans (if_neg hy)
  | some f =>
    obtain ⟨hfollow, hrun⟩ := runningFollower_eq_some.mp hf
    have hfl : f ≠ l := hne f hfollow
    have hcoil : ∀ y, (((cutHeldOwn s l p).offerCause f .cutHeld).modCoil f fun k => { k with pairedHold := true }).coilRec y =
        if y = f then { s.coilRec f with pairedHold := true } else (cutHeldOwn s l p).coilRec y := fun y => by
      have hsame : ∀ z, ((cutHeldOwn s l p).offerCause f .cutHeld).coilRec z = (cutHeldOwn s l p).coilRec z := fun z => by
        rw [offerCause_frame]; rfl
      rw [modCoil_coilRec, hsame, hsame, cutHeldOwn_coilRec s l p f, if_neg hfl]
    have hline : ∀ y, (((cutHeldOwn s l p).offerCause f .cutHeld).modCoil f fun k => { k with pairedHold := true }).line y =
        if y = f then afterOffer (s.line f) .cutHeld else (cutHeldOwn s l p).line y := fun y => by
      show ((cutHeldOwn s l p).offerCause f .cutHeld).line y = _
      split
      next h => rw [h, offerCause_line_self, cutHeldOwn_line, if_neg hfl]
      next h => exact offerCause_line_of_ne _ h _
    rw [Option.map_some, Option.getD_some]
    refine ⟨?_, ?_, ⟨s.holds l, holdsPresent s l, fun hidle => absurd (hidle f hfollow) hrun, fun g hg _ => ?_⟩,
      fun g hg _ => ?_, fun y hy hout => ?_, ?_⟩
    · rw [hcoil, if_neg hfl.symm, cutHeldOwn_coilRec, if_pos rfl]
    · rw [hline, if_neg hfl.symm, cutHeldOwn_line, if_pos rfl]
    · obtain rfl : f = g := Option.some.inj (hfollow.symm.trans hg)
      refine ((cutHeldOwn_tells s l p).offerCause ?_ _).link
      rw [cutHeldOwn_line, if_neg hfl, offerCause_line_of_ne _ hfl, notify_eq]
      rfl
    · obtain rfl : f = g := Option.some.inj (hfollow.symm.trans hg)
      rw [hline, hcoil, if_pos rfl, if_pos rfl]
      exact ⟨rfl, rfl⟩
    · have hyf : y ≠ f := by
        rintro rfl
        exact hout.elim (fun h => h hfollow) hrun
      rw [hline, hcoil, if_neg hyf, if_neg hyf, cutHeldOwn_line, cutHeldOwn_coilRec, if_neg hy, if_neg hy]
      exact ⟨rfl, rfl⟩
    · rw [offerCause_frame, cutHeldOwn_frame]
      rfl

/-- Settles O39: a mark, a stall and a cut at their targets and before them. -/
theorem countTestsActAtTheirTargets : Obligations.CountTestsActAtTheirTargets := by
  refine ⟨fun s l m c r hm hc hr => ?_, fun s l h w u r hw hu hr hstall => ⟨fun hshort => ?_, fun hdue => ?_⟩,
    fun s l p hhold hne => ⟨testDue_of_early, fun hdue => ?_⟩⟩
  · refine ⟨testMark_of_early hm, fun hdue => ?_⟩
    rw [testMark_of_due hm ((coilRecipe_of_some hc).trans hr) hdue]
    cases hlatch : s.guard.latch with
    | true =>
      simp only [if_true, modCoil_pos, modCoil_coilRec_self, modPos_coilRec, hc, Option.map_some, markMoved, modPos_pos_self]
      exact ⟨trivial, trivial, nofun, fun _ => ⟨trivial, trivial⟩, rfl⟩
    | false =>
      simp only [Bool.false_eq_true, if_false, modPos_pos_self, modPos_coilRec, modCoil_pos, modCoil_coilRec_self, hc,
        Option.map_some, markMoved]
      exact ⟨trivial, trivial, fun _ => ⟨trivial, trivial⟩, nofun, rfl⟩
  · have hquiet : s.stallDue l h = false :=
      Bool.eq_false_iff.mpr (mt (stallDue_iff hw hr hstall).mp (Nat.not_le.mpr hshort))
    exact if_pos hquiet
  · obtain ⟨hspans, htells⟩ := stallTold_marked s l h w u
    have hline : ∀ x, (stallTold (stallMarked s h) l h w u).line x = s.line x := fun x => by rw [stallTold_frame]; rfl
    have hhead : ∀ x, ((stallTold (stallMarked s h) l h w u).offerCause l .flyerStall).head x = (stallMarked s h).head x :=
      fun x => by rw [offerCause_frame, stallTold_frame]; rfl
    rw [testStall_of_due ((stallDue_iff hw hr hstall).mpr hdue) hw hu]
    refine ⟨?_, ?_, ?_, ?_, fun x hx => ?_, fun x hx => ?_, ?_⟩
    · rw [hhead, stallMarked, modHead_head_self]
    · rw [offerCause_line_self, hline]
    · exact (offerCause_spanRecs ..).trans hspans
    · refine (htells.offerCause ?_ _).link
      rw [hline, stallTold_frame]; rfl
    · rw [hhead, stallMarked, modHead_head_of_ne _ _ _ hx]
    · rw [offerCause_line_of_ne _ hx, hline]
    · rw [offerCause_frame, stallTold_frame]; rfl
  · obtain ⟨hstage, hline, htold, hfollower, hothers, hframe⟩ := cutHeld_holdCut p hne
    rw [testDue_of_held hdue hhold]
    exact ⟨hstage, hline, hfollower, htold, hothers, hframe⟩

end Sys2Proof.Proofs

/-! A twist window that closes: its hand, its density, its span and the correction of the trim; the statement O57. -/

namespace Sys2Proof.Proofs

open Sys2Proof.Machine Sys2Proof.Safety

variable {s t : State} {l : LineId} {h : HeadId}

/-! ## The hand of a window (R85) -/

theorem handOf_eq_none_iff (z : ZSense) (n : Int) : z.handOf n = none ↔ n = 0 := by
  unfold ZSense.handOf
  split
  · simpa
  next hn => cases z <;> dsimp only <;> split <;> simp [hn]

/-- A window is NORMAL unless its count shows the hand opposite to the recipe's. -/
theorem oppositeHand_iff (z : ZSense) (hand : Hand) (n : Int) :
    OppositeHand z hand n ↔ ¬(z.handOf n = none ∨ z.handOf n = some hand) := by
  rw [handOf_eq_none_iff]
  unfold OppositeHand ZSense.handOf
  rcases Int.lt_trichotomy n 0 with hn | rfl | hn
  · have hpos : ¬0 < n := by omega
    cases z <;> cases hand <;> simp [hn, hpos, Int.ne_of_lt hn]
  · simp
  · have hneg : ¬n < 0 := by omega
    cases z <;> cases hand <;> simp [hn, hneg, (Int.ne_of_lt hn).symm]

theorem windowKind_normal {z : ZSense} {hand : Hand} {turns : Nat} {n : Int} (hopp : ¬OppositeHand z hand n) :
    windowKind z hand turns n = .normal := if_pos (by rwa [oppositeHand_iff, Classical.not_not] at hopp)

theorem windowKind_backlash {z : ZSense} {hand : Hand} {turns : Nat} {n : Int} (hopp : OppositeHand z hand n)
    (hsmall : n.natAbs ≤ 2 * turns) : windowKind z hand turns n = .backlash := by
  unfold windowKind
  rw [if_neg ((oppositeHand_iff ..).mp hopp), if_pos hsmall]

theorem windowKind_hand {z : ZSense} {hand : Hand} {turns : Nat} {n : Int} (hopp : OppositeHand z hand n)
    (hlarge : 2 * turns < n.natAbs) : windowKind z hand turns n = .hand := by
  unfold windowKind
  rw [if_neg ((oppositeHand_iff ..).mp hopp), if_neg (Nat.not_le.mpr hlarge)]

/-! ## The density (R86) -/

theorem density_eq (n turns length : Nat) : density n turns length =
    (min 65535 ((n * 100000000000 + turns * length / 2) / (turns * length)),
      decide (65535 < (n * 100000000000 + turns * length / 2) / (turns * length))) := by
  unfold density rawDensity
  generalize (n * 100000000000 + turns * length / 2) / (turns * length) = raw
  split
  next hlt => rw [Nat.min_eq_left (Nat.le_of_lt hlt), decide_eq_true hlt]
  next hle => rw [Nat.min_eq_right (Nat.le_of_not_lt hle), decide_eq_false hle]

/-! ## The close of a window (R84) -/

theorem windowDue_iff {w : TwistWindow} {r : Recipe} (hw : (s.head h).window = some w) (hr : s.boundRecipe l = some r) :
    s.windowDue l h = true ↔ r.window * 1000000 ≤ (s.pos l).position - w.start := by
  simp only [State.windowDue, hw, hr, nmPerMm]
  exact decide_eq_true_iff

/-- The HAND span of a head with the hand condition closed, and the condition with it (R85). -/
def handClosed (s : State) (l : LineId) (h : HeadId) (start : Nat) : State :=
  if (s.head h).handFault then (s.submit l .hand (.head h) (.close start)).modHead h fun x => { x with handFault := false } else s

/-- What a judged window measures. -/
def windowMeasured (s : State) (h : HeadId) (d : Nat × Bool) (dev : Int) (kind : WindowKind) : State :=
  s.modHead h fun x => { x with lastDensity := some d.1, lastDeviation := some dev, lastFlags := some ⟨kind, d.2, false⟩ }

/-- What a judged window submits to the TWIST span. -/
def twistSubmission (r : Recipe) (dev : Int) (start stop : Nat) : Submission :=
  if r.tolerance < dev.natAbs then .openOrExtend start stop dev.natAbs else .close start

/-- A window judged, before the correction of the trim (R85 to R87). -/
def windowJudged (s : State) (l : LineId) (h : HeadId) (r : Recipe) (d : Nat × Bool) (dev : Int) (kind : WindowKind)
    (start stop : Nat) : State :=
  (windowMeasured (handClosed s l h start) h d dev kind).submit l .twist (.head h) (twistSubmission r dev start stop)

/-- The deviation of a window of `n` counts from its target (R86, R87). -/
def windowDeviation (target n turns length : Nat) : Int := twistDeviation target (density n turns length).1

/-- The judgment of a window of the head `h`, of `n` counts. -/
def windowClosed (s : State) (l : LineId) (h : HeadId) (u : HeadSettings) (w : TwistWindow) (r : Recipe) (target : Nat)
    (kind : WindowKind) (n : Nat) : State :=
  windowJudged s l h r (density n u.countsPerTurn ((s.pos l).position - w.start))
    (windowDeviation target n u.countsPerTurn ((s.pos l).position - w.start)) kind (w.start + u.offset * 1000000)
    ((s.pos l).position + u.offset * 1000000)

theorem closeJudgedWindow_eq (s : State) (l : LineId) (h : HeadId) (u : HeadSettings) (w : TwistWindow) (r : Recipe)
    (target : Nat) (kind : WindowKind) (n : Nat) : s.closeJudgedWindow l h u w r target kind n =
      if s.guard.latch ∨ r.gain = 0 then windowClosed s l h u w r target kind n
      else (windowClosed s l h u w r target kind n).correctTrim l h r
        (windowDeviation target n u.countsPerTurn ((s.pos l).position - w.start))
        (decide (r.tolerance < (windowDeviation target n u.countsPerTurn ((s.pos l).position - w.start)).natAbs)) := by
  have hjudged : ∀ (x : State) (dev : Int) (start stop : Nat), (if decide (r.tolerance < dev.natAbs) = true then
      x.submit l .twist (.head h) (.openOrExtend start stop dev.natAbs) else x.submit l .twist (.head h) (.close start)) =
        x.submit l .twist (.head h) (twistSubmission r dev start stop) := fun x dev start stop => by
    unfold twistSubmission
    by_cases hout : r.tolerance < dev.natAbs
    · rw [if_pos hout, if_pos (decide_eq_true hout)]
    · rw [if_neg hout, if_neg (by simpa using hout)]
  unfold State.closeJudgedWindow windowClosed windowJudged
  rw [← hjudged]
  rfl

theorem handClosed_frame (s : State) (l : LineId) (h : HeadId) (start : Nat) : handClosed s l h start =
    { s with heads := (handClosed s l h start).heads, spanRecs := (handClosed s l h start).spanRecs
             link := (handClosed s l h start).link } := by
  unfold handClosed
  split
  · rw [submit_frame]; rfl
  · rfl

theorem handClosed_head (s : State) (l : LineId) (h : HeadId) (start : Nat) (x : HeadId) : (handClosed s l h start).head x =
    if x = h then { s.head h with handFault := false } else s.head x := by
  unfold handClosed
  split
  next => rw [modHead_head, submit_frame]; rfl
  next hclear =>
    split
    next hx =>
      rw [hx]
      show s.head h = { s.head h with handFault := false }
      rw [← Bool.eq_false_iff.mpr hclear]
    next => rfl

theorem windowJudged_frame (s : State) (l : LineId) (h : HeadId) (r : Recipe) (d : Nat × Bool) (dev : Int) (kind : WindowKind)
    (start stop : Nat) : windowJudged s l h r d dev kind start stop =
      { s with heads := (windowJudged s l h r d dev kind start stop).heads
               spanRecs := (windowJudged s l h r d dev kind start stop).spanRecs
               link := (windowJudged s l h r d dev kind start stop).link } := by
  unfold windowJudged windowMeasured
  rw [submit_frame, handClosed_frame]
  rfl

theorem windowJudged_head (s : State) (l : LineId) (h : HeadId) (r : Recipe) (d : Nat × Bool) (dev : Int) (kind : WindowKind)
    (start stop : Nat) (x : HeadId) : (windowJudged s l h r d dev kind start stop).head x =
      if x = h then { s.head h with
        handFault := false, lastDensity := some d.1, lastDeviation := some dev, lastFlags := some ⟨kind, d.2, false⟩ }
      else s.head x := by
  have hmeasured : (windowMeasured (handClosed s l h start) h d dev kind).head x =
      if x = h then { s.head h with
        handFault := false, lastDensity := some d.1, lastDeviation := some dev, lastFlags := some ⟨kind, d.2, false⟩ }
      else s.head x := by
    rw [windowMeasured, modHead_head, handClosed_head, handClosed_head, if_pos rfl]
    split <;> rfl
  rw [← hmeasured, windowJudged, submit_frame]
  rfl

theorem windowClosed_head (s : State) (l : LineId) (h : HeadId) (u : HeadSettings) (w : TwistWindow) (r : Recipe)
    (target : Nat) (kind : WindowKind) (n : Nat) : (windowClosed s l h u w r target kind n).head h =
      { s.head h with
        handFault := false
        lastDensity := some (density n u.countsPerTurn ((s.pos l).position - w.start)).1
        lastDeviation := some (windowDeviation target n u.countsPerTurn ((s.pos l).position - w.start))
        lastFlags := some ⟨kind, (density n u.countsPerTurn ((s.pos l).position - w.start)).2, false⟩ } := by
  rw [windowClosed, windowJudged_head, if_pos rfl]

/-- What a judged window submits and tells is what is submitted of the state with the HAND span closed. -/
theorem windowJudged_spans (s : State) (l : LineId) (h : HeadId) (r : Recipe) (d : Nat × Bool) (dev : Int) (kind : WindowKind)
    (start stop : Nat) : SpansAs (windowJudged s l h r d dev kind start stop)
      ((if (s.head h).handFault then s.submit l .hand (.head h) (.close start) else s).submit l .twist (.head h)
        (twistSubmission r dev start stop)) l := by
  refine SpansAs.submit ?_ _ _ _
  unfold windowMeasured handClosed
  split <;> exact .of_same rfl rfl rfl rfl rfl rfl

/-! ## The correction of the trim (R88, R89) -/

theorem trimSet_frame (s : State) (h : HeadId) (r : Recipe) (d : Int) (b : Bool) : trimSet s h r d b =
    { s with heads := (trimSet s h r d b).heads, copies := (trimSet s h r d b).copies } := by
  unfold trimSet
  dsimp only
  split
  · rw [remark_frame]; rfl
  · rfl

theorem trimSet_head_eq (s : State) (h : HeadId) (r : Recipe) (d : Int) (b : Bool) (x : HeadId) : (trimSet s h r d b).head x =
    if x = h then { s.head h with
      trim := newTrim s h r d, limitCount := newLimitCount s h r d b
      lastFlags := (s.head h).lastFlags.map fun f => { f with corrected := true } }
    else s.head x := by
  have hremark : ∀ t : State, (t.remark h).head x = t.head x := fun t => by rw [remark_frame]; rfl
  unfold trimSet
  dsimp only
  split
  · rw [hremark, setCopy_head, modHead_head]
  · exact modHead_head s h _ x

/-- The learned trim of the corrected head's valid copy is its new trim, and the copy keeps its slot. -/
theorem trimSet_learned (s : State) (h : HeadId) (r : Recipe) (d : Int) (b : Bool) (hv : (s.copy h).state ≠ .invalid) :
    ((trimSet s h r d b).copy h).learned = newTrim s h r d ∧ ((trimSet s h r d b).copy h).slot = (s.copy h).slot := by
  unfold trimSet
  dsimp only
  rw [if_pos (by simp [WorkingCopy.valid, hv])]
  refine ⟨(markedCopy_learned _ h).trans ?_, (markedCopy_slot _ h).trans ?_⟩ <;> rw [setCopy_copy, if_pos rfl]
  rfl

/-- A due window closes by its kind, and the next one opens at the position (R84, R85). -/
theorem testWindow_of_due {w : TwistWindow} {u : HeadSettings} {r : Recipe} {q : PositionSpec}
    (hw : (s.head h).window = some w) (hu : (s.head h).settings = some u) (hr : s.boundRecipe l = some r)
    (hq : r.specFor u = some q) (hdue : s.windowDue l h = true) : s.testWindow l h =
      (match windowKind u.zSense q.hand u.countsPerTurn w.count with
        | .hand => s.closeHandWindow l h u w
        | .backlash => s.closeJudgedWindow l h u w r q.target .backlash 0
        | .normal => s.closeJudgedWindow l h u w r q.target .normal w.count.natAbs).modHead h
          (·.reopened (s.pos l).position) := by
  unfold State.testWindow
  rw [if_neg (by simp [hdue])]
  simp only [hw, hu, hr, hq] <;> rfl

/-- What the correction step leaves (R88, R89). -/
structure TrimCorrected (s t : State) (l : LineId) (h : HeadId) (r : Recipe) (dev : Int) (outside : Bool) : Prop where
  head : ∀ x, t.head x = if x = h then { s.head h with
      trim := newTrim s h r dev, limitCount := newLimitCount s h r dev outside
      lastFlags := (s.head h).lastFlags.map fun f => { f with corrected := true } }
    else s.head x
  copies : ∀ x, t.copy x = (trimSet s h r dev outside).copy x
  frame : t = { s with heads := t.heads, copies := t.copies, lines := t.lines, link := t.link }
  offered : newLimitCount s h r dev outside = r.limitWindows → t.line l = afterOffer (s.line l) .trimExhausted ∧
    (∀ x, x ≠ l → t.line x = s.line x) ∧ TellsAs t (s.offerCause l .trimExhausted)
  quiet : newLimitCount s h r dev outside ≠ r.limitWindows → t.lines = s.lines ∧ t.link = s.link

theorem trimCorrected_correctTrim (s : State) (l : LineId) (h : HeadId) (r : Recipe) (dev : Int) (outside : Bool) :
    TrimCorrected s (s.correctTrim l h r dev outside) l h r dev outside := by
  have hline : ∀ x, (trimSet s h r dev outside).line x = s.line x := fun x => by rw [trimSet_frame]; rfl
  rw [correctTrim_eq]
  split
  next hfull =>
    refine ⟨fun x => ?_, fun x => ?_, ?_, fun _ => ⟨?_, fun x hx => ?_, ?_⟩, fun hne => absurd hfull hne⟩
    · rw [← trimSet_head_eq, offerCause_frame]; rfl
    · rw [offerCause_frame]; rfl
    · rw [offerCause_frame, trimSet_frame]
    · rw [offerCause_line_self, hline]
    · rw [offerCause_line_of_ne _ hx, hline]
    · exact TellsAs.offerCause ⟨by rw [trimSet_frame], by rw [trimSet_frame]; rfl⟩ (hline l) _
  next hne =>
    refine ⟨trimSet_head_eq s h r dev outside, fun _ => rfl, ?_, fun hfull => absurd hfull hne, fun _ => ⟨?_, ?_⟩⟩
    · rw [trimSet_frame]
    · rw [trimSet_frame]
    · rw [trimSet_frame]

/-- A judged window's state, with the spans and notices of its submissions, before and after the correction. -/
theorem closeJudgedWindow_cases (s : State) (l : LineId) (h : HeadId) (u : HeadSettings) (w : TwistWindow) (r : Recipe)
    (target : Nat) (kind : WindowKind) (n : Nat) :
    (s.guard.latch = true ∨ r.gain = 0 →
      s.closeJudgedWindow l h u w r target kind n = windowClosed s l h u w r target kind n) ∧
    (s.guard.latch = false → r.gain ≠ 0 → TrimCorrected (windowClosed s l h u w r target kind n)
      (s.closeJudgedWindow l h u w r target kind n) l h r
        (windowDeviation target n u.countsPerTurn ((s.pos l).position - w.start))
        (decide (r.tolerance < (windowDeviation target n u.countsPerTurn ((s.pos l).position - w.start)).natAbs))) := by
  rw [closeJudgedWindow_eq]
  refine ⟨fun hkept => if_pos hkept, fun hlatch hgain => ?_⟩
  rw [if_neg (by simp [hlatch, hgain])]
  exact trimCorrected_correctTrim ..

theorem closeHandWindow_eq (s : State) (l : LineId) (h : HeadId) (u : HeadSettings) (w : TwistWindow) :
    s.closeHandWindow l h u w = (s.submit l .hand (.head h) (.openOrExtend (w.start + u.offset * 1000000)
      ((s.pos l).position + u.offset * 1000000) 0)).modHead h fun r =>
        { r with handFault := true, lastFlags := some ⟨.hand, false, false⟩ } := rfl

/-- The submissions of a judged window, of the state before it: the HAND span closed and the TWIST span opened, extended or
closed (R85, R87). -/
def twistSubmitted (s : State) (l : LineId) (h : HeadId) (r : Recipe) (dev : Int) (start stop : Nat) : State :=
  (if (s.head h).handFault then s.submit l .hand (.head h) (.close start) else s).submit l .twist (.head h)
    (if r.tolerance < dev.natAbs then .openOrExtend start stop dev.natAbs else .close start)

/-- A judged window that has closed and the next one open, from `s` to `t` (R84 to R89): `v` is what it has submitted. -/
structure JudgedWindow (s t v : State) (l : LineId) (h : HeadId) (w : TwistWindow) (r : Recipe) (kind : WindowKind) (d : Nat)
    (clamp : Bool) (dev : Int) : Prop where
  window : (t.head h).window = some { w with start := (s.pos l).position, count := 0 }
  otherHeads : ∀ x, x ≠ h → t.head x = s.head x
  otherCopies : ∀ x, x ≠ h → t.copy x = s.copy x
  frame : t = { s with heads := t.heads, copies := t.copies, lines := t.lines, spanRecs := t.spanRecs, link := t.link }
  measured : (t.head h).lastDensity = some d ∧ (t.head h).lastDeviation = some dev ∧ (t.head h).handFault = false
  flags : ∃ corrected, (t.head h).lastFlags = some ⟨kind, clamp, corrected⟩ ∧
    (corrected = true ↔ s.guard.latch = false ∧ r.gain ≠ 0)
  spanRecs : t.spanRecs = v.spanRecs
  offered : s.guard.latch = false → r.gain ≠ 0 → (t.head h).limitCount = r.limitWindows →
    t.line l = afterOffer (s.line l) .trimExhausted ∧ (∀ x, x ≠ l → t.line x = s.line x) ∧
      t.link = (v.offerCause l .trimExhausted).link
  quiet : s.guard.latch = true ∨ r.gain = 0 ∨ (t.head h).limitCount ≠ r.limitWindows → t.lines = s.lines ∧ t.link = v.link
  kept : s.guard.latch = true ∨ r.gain = 0 → (t.head h).trim = (s.head h).trim ∧
    (t.head h).limitCount = (s.head h).limitCount ∧ t.copy h = s.copy h
  trim : s.guard.latch = false → r.gain ≠ 0 → (t.head h).trim = newTrim s h r dev ∧
    (t.head h).limitCount = newLimitCount s h r dev (decide (r.tolerance < dev.natAbs)) ∧
    ((s.copy h).state ≠ .invalid → (t.copy h).learned = newTrim s h r dev ∧ (t.copy h).slot = (s.copy h).slot ∧
      ∀ n, (s.copy h).slot = some n →
        (t.copy h).state = if s.startTrim n h = some (newTrim s h r dev) then .clean else .dirty)

/-- A judged window has closed once it is judged, its trim corrected, and the next one opened. -/
theorem judgedWindow_closed {u : HeadSettings} {w : TwistWindow} {r : Recipe} {target n d : Nat} {clamp : Bool} {dev : Int}
    (hw : (s.head h).window = some w) (kind : WindowKind)
    (hd : density n u.countsPerTurn ((s.pos l).position - w.start) = (d, clamp))
    (hdev : windowDeviation target n u.countsPerTurn ((s.pos l).position - w.start) = dev) :
    JudgedWindow s ((s.closeJudgedWindow l h u w r target kind n).modHead h (·.reopened (s.pos l).position))
      (twistSubmitted s l h r dev (w.start + u.offset * 1000000) ((s.pos l).position + u.offset * 1000000)) l h w r kind d clamp
      dev := by
  obtain ⟨hkept, hcorrects⟩ := closeJudgedWindow_cases s l h u w r target kind n
  have hjudgedHead := windowClosed_head s l h u w r target kind n
  have hjudgedOther : ∀ x, x ≠ h → (windowClosed s l h u w r target kind n).head x = s.head x := fun x hx =>
    (windowJudged_head ..).trans (if_neg hx)
  have hspans : SpansAs (windowClosed s l h u w r target kind n)
      (twistSubmitted s l h r dev (w.start + u.offset * 1000000) ((s.pos l).position + u.offset * 1000000)) l := by
    rw [← hdev]
    exact windowJudged_spans ..
  have hjudgedFrame := windowJudged_frame s l h r (density n u.countsPerTurn ((s.pos l).position - w.start))
    (windowDeviation target n u.countsPerTurn ((s.pos l).position - w.start)) kind (w.start + u.offset * 1000000)
    ((s.pos l).position + u.offset * 1000000)
  rw [← windowClosed] at hjudgedFrame
  rw [hd, hdev] at hjudgedHead
  rw [hdev] at hcorrects
  dsimp only at hjudgedHead
  generalize windowClosed s l h u w r target kind n = judged at *
  generalize s.closeJudgedWindow l h u w r target kind n = corrected at *
  have hline : ∀ x, judged.line x = s.line x := fun x => by rw [hjudgedFrame]; rfl
  have hcopy : ∀ x, judged.copy x = s.copy x := fun x => by rw [hjudgedFrame]; rfl
  by_cases hquiet : s.guard.latch = true ∨ r.gain = 0
  case pos =>
    have hnot : ¬(s.guard.latch = false ∧ r.gain ≠ 0) := fun h => by
      rcases hquiet with hlatch | hgain
      · exact absurd (h.1.symm.trans hlatch) nofun
      · exact h.2 hgain
    rw [hkept hquiet]
    have hhead : (judged.modHead h (·.reopened (s.pos l).position)).head h = (judged.head h).reopened (s.pos l).position :=
      modHead_head_self _ _ _
    rw [hjudgedHead] at hhead
    refine ⟨?_, fun x hx => ?_, fun x _ => hcopy x, ?_, ?_, ⟨false, ?_, fun h => absurd h nofun, fun h => absurd h hnot⟩,
      hspans.spanRecs, fun hlatch hgain => absurd ⟨hlatch, hgain⟩ hnot, fun _ => ⟨?_, hspans.tells.link⟩,
      fun _ => ⟨?_, ?_, hcopy h⟩, fun hlatch hgain => absurd ⟨hlatch, hgain⟩ hnot⟩
    · rw [hhead, HeadRec.reopened, hw]; rfl
    · rw [modHead_head_of_ne _ _ _ hx, hjudgedOther x hx]
    · rw [hjudgedFrame]; rfl
    · rw [hhead]; exact ⟨rfl, rfl, rfl⟩
    · rw [hhead]; rfl
    · rw [hjudgedFrame]; rfl
    · rw [hhead]; rfl
    · rw [hhead]; rfl
  case neg =>
    obtain ⟨hlatch, hgain⟩ := not_or.mp hquiet
    have hclear : s.guard.latch = false := Bool.eq_false_iff.mpr hlatch
    obtain ⟨hheads, hcopies, hframe, hoffered, hkeptLines⟩ := hcorrects hclear hgain
    have htrim : newTrim judged h r dev = newTrim s h r dev := by rw [newTrim, newTrim, hjudgedHead]
    have hlimit : ∀ b, newLimitCount judged h r dev b = newLimitCount s h r dev b := fun b => by
      rw [newLimitCount, newLimitCount, htrim, hjudgedHead]
    have hhead : (corrected.modHead h (·.reopened (s.pos l).position)).head h =
        (corrected.head h).reopened (s.pos l).position := modHead_head_self _ _ _
    rw [hheads, if_pos rfl, hjudgedHead, htrim, hlimit] at hhead
    have hstart : ∀ m, judged.startTrim m h = s.startTrim m h := fun m => by
      have hrecipe : judged.recipe m = s.recipe m := by rw [hjudgedFrame]; rfl
      rw [State.startTrim, State.startTrim, hrecipe, hjudgedHead]
    refine ⟨?_, fun x hx => ?_, fun x hx => ?_, ?_, ?_, ⟨true, ?_, fun _ => ⟨hclear, hgain⟩, fun _ => rfl⟩, ?_,
      fun _ _ hfull => ?_, fun hnot => ?_, fun h => absurd h hquiet, fun _ _ => ⟨?_, ?_, fun hvalid => ?_⟩⟩
    · rw [hhead, HeadRec.reopened, hw]; rfl
    · rw [modHead_head_of_ne _ _ _ hx, hheads, if_neg hx, hjudgedOther x hx]
    · exact (hcopies x).trans ((trimSet_copy_of_not _ _ _ _ _ fun e => absurd e hx).trans (hcopy x))
    · rw [hframe, hjudgedFrame]; rfl
    · rw [hhead]; exact ⟨rfl, rfl, rfl⟩
    · rw [hhead]; rfl
    · rw [hframe]; exact hspans.spanRecs
    · rw [hhead] at hfull
      obtain ⟨hl, hothers, htells⟩ := hoffered ((hlimit _).trans hfull)
      refine ⟨hl.trans (by rw [hline]), fun x hx => (hothers x hx).trans (hline x), htells.link.trans ?_⟩
      refine (TellsAs.offerCause hspans.tells ?_ _).link
      rw [hline, twistSubmitted, submit_frame]
      split
      · rw [submit_frame]; rfl
      · rfl
    · rw [hhead] at hnot
      have hne := (hnot.resolve_left hlatch).resolve_left hgain
      obtain ⟨hlines, hlink⟩ := hkeptLines fun hfull => hne ((hlimit _).symm.trans hfull)
      exact ⟨hlines.trans (by rw [hjudgedFrame]), hlink.trans hspans.tells.link⟩
    · rw [hhead]; rfl
    · rw [hhead]; rfl
    · have hvalid' : (judged.copy h).state ≠ .invalid := by rwa [hcopy]
      obtain ⟨hlearned, hslot⟩ := trimSet_learned judged h r dev (decide (r.tolerance < dev.natAbs)) hvalid'
      have hcopied : (corrected.modHead h (·.reopened (s.pos l).position)).copy h =
        (trimSet judged h r dev (decide (r.tolerance < dev.natAbs))).copy h := hcopies h
      rw [hcopied]
      refine ⟨hlearned.trans htrim, hslot.trans (by rw [hcopy]), fun m hm => ?_⟩
      rw [trimSet_copy judged h r dev _ hvalid' (by rwa [hcopy]), hstart, htrim]

/-- A HAND window that has closed and the next one open (R85). -/
theorem handWindow_closed {u : HeadSettings} {w : TwistWindow} (hw : (s.head h).window = some w) {t : State}
    (ht : t = (s.closeHandWindow l h u w).modHead h (·.reopened (s.pos l).position)) :
    (∀ x, t.head x = if x = h then { s.head h with
        handFault := true
        lastFlags := some ⟨.hand, false, false⟩
        window := some { w with start := (s.pos l).position, count := 0 } } else s.head x) ∧
      t = { s with heads := t.heads, spanRecs := t.spanRecs, link := t.link } ∧
      t.spanRecs = (s.submit l .hand (.head h) (.openOrExtend (w.start + u.offset * 1000000)
        ((s.pos l).position + u.offset * 1000000) 0)).spanRecs ∧
      t.link = (s.submit l .hand (.head h) (.openOrExtend (w.start + u.offset * 1000000)
        ((s.pos l).position + u.offset * 1000000) 0)).link := by
  have hsubmit : ∀ y, (s.submit l .hand (.head h) (.openOrExtend (w.start + u.offset * 1000000)
      ((s.pos l).position + u.offset * 1000000) 0)).head y = s.head y := fun y => by rw [submit_frame]; rfl
  rw [closeHandWindow_eq] at ht
  subst ht
  refine ⟨fun x => ?_, ?_, rfl, rfl⟩
  · rw [modHead_head, modHead_head_self, modHead_head, hsubmit, hsubmit]
    split
    · simp only [HeadRec.reopened, hw, Option.map_some]
    · rfl
  · rw [submit_frame]; rfl

/-- Settles O57: a window before its close, a HAND window, and a judged one with and without the correction of the trim. -/
theorem twistWindowJudgesAndCorrects : Obligations.TwistWindowJudgesAndCorrects := by
  intro s l h w u r q hw hu hr hq p size opposite start stop handEnded taken t
  refine ⟨fun hshort => if_pos (Bool.eq_false_iff.mpr (mt (windowDue_iff hw hr).mp (Nat.not_le.mpr hshort))), fun hlong => ?_⟩
  have hstep := testWindow_of_due hw hu hr hq ((windowDue_iff hw hr).mpr hlong)
  by_cases hhand : opposite ∧ 2 * u.countsPerTurn < w.count.natAbs
  case pos =>
    obtain ⟨hopp, hlarge⟩ := hhand
    rw [windowKind_hand hopp hlarge] at hstep
    obtain ⟨hhead, hframe, hspanRecs, hlink⟩ := handWindow_closed (t := t) hw hstep
    refine ⟨by rw [hhead, if_pos rfl], fun x hx => by rw [hhead, if_neg hx], fun x _ => by rw [hframe]; rfl, by rw [hframe],
      fun _ _ => ⟨by rw [hhead, if_pos rfl], by rw [hframe]; rfl, by rw [hframe], hspanRecs, hlink⟩, fun hnot => ?_⟩
    exact absurd hnot (not_or.mpr ⟨not_not_intro hopp, Nat.not_le.mpr hlarge⟩)
  case neg =>
    obtain ⟨n, kind, htaken, hbacklash, hnormal, hkind⟩ : ∃ n kind, taken n ∧ (opposite → kind = .backlash) ∧
        (¬opposite → kind = .normal) ∧ s.testWindow l h =
          (s.closeJudgedWindow l h u w r q.target kind n).modHead h (·.reopened (s.pos l).position) := by
      by_cases hopp : opposite
      · have hsmall : w.count.natAbs ≤ 2 * u.countsPerTurn := Nat.le_of_not_lt fun hlarge => hhand ⟨hopp, hlarge⟩
        rw [windowKind_backlash hopp hsmall] at hstep
        exact ⟨0, .backlash, .inr ⟨rfl, hopp⟩, fun _ => rfl, fun hnot => absurd hopp hnot, hstep⟩
      · rw [windowKind_normal hopp] at hstep
        exact ⟨_, .normal, .inl ⟨rfl, hopp⟩, fun h => absurd h hopp, fun _ => rfl, hstep⟩
    have hdev : windowDeviation q.target n u.countsPerTurn ((s.pos l).position - w.start) = clampAbs 999
        ((((q.target : Int) - (min 65535 ((n * 100000000000 + size / 2) / size) : Nat)) * 1000).tdiv q.target) := by
      rw [windowDeviation, density_eq]; rfl
    have hclosed := judgedWindow_closed (l := l) (r := r) (u := u) hw kind (density_eq n u.countsPerTurn _) hdev
    rw [← hkind] at hclosed
    obtain ⟨hwindow, hheads, hcopies, hframe, ⟨hdensity, hdeviation, hfault⟩, ⟨corrected, hflags, hcorrected⟩, hspans, hoffered,
      hquiet, hkept, htrim⟩ := hclosed
    refine ⟨hwindow, hheads, hcopies, hframe, fun hopp hlarge => absurd ⟨hopp, hlarge⟩ hhand, fun _ => ⟨n, _, _, htaken, rfl,
      rfl, hdensity, hdeviation, hfault, ⟨_, hflags, hbacklash, hnormal, decide_eq_true_iff, hcorrected⟩, hspans, hoffered,
      hquiet, hkept, fun hlatch hgain => ?_⟩⟩
    obtain ⟨htrims, hlimit, hcopy⟩ := htrim hlatch hgain
    refine ⟨htrims, ?_, fun hvalid => ?_⟩
    · rw [show (t.head h).trim = _ from htrims, show (t.head h).limitCount = _ from hlimit, newLimitCount]
      simp only [decide_eq_true_eq]
    · obtain ⟨hlearned, hslot, hstate⟩ := hcopy hvalid
      rw [show (t.head h).trim = _ from htrims]
      refine ⟨hlearned, hslot, fun m x y hm hx hy => ?_⟩
      have hstart : s.startTrim m h = some y.startTrim := by simp only [State.startTrim, hx, hu, hy, Option.map_some]
      rw [hstate m hm, hstart]
      simp only [Option.some.injEq, eq_comm]

end Sys2Proof.Proofs

/-! What an application of recipes leaves of the slots, the copies and the heads: write-backs, re-marking and loads (R64, R67 to
R70). -/

namespace Sys2Proof.Proofs

open Sys2Proof.Machine Sys2Proof.Safety

variable {s t : State} {target : HeadId → Option Slot} {hs : List HeadId}

/-! ## The write-backs of an eviction -/

theorem mem_evicted {h : HeadId} : h ∈ s.evicted target hs ↔
    h ∈ hs ∧ ∃ n, target h = some n ∧ (s.copy h).state = .dirty ∧ (s.copy h).slot ≠ some n := by
  unfold State.evicted
  rw [List.mem_filter]
  cases target h with
  | none => simp
  | some n => simp

/-- The write-backs of copies of several slots are, slot by slot, write-backs into its recipe. -/
theorem foldl_writeBack_recipes (hs : List HeadId) (m : Slot) {t : State} (ht : t = { s with slots := t.slots }) :
    (hs.foldl State.writeBack t).recipe m =
      (t.recipe m).map fun r => (hs.filter fun h => (s.copy h).slot == some m).foldl (learnedInto s) r := by
  induction hs generalizing t with
  | nil => simp
  | cons h hs ih =>
    have hcopy : t.copy h = s.copy h := by rw [ht]; rfl
    have hhead : t.head h = s.head h := by rw [ht]; rfl
    have hnext : (t.writeBack h).recipe m =
        (t.recipe m).map fun r => if (s.copy h).slot = some m then learnedInto s r h else r := by
      rw [writeBack_recipe, hcopy, hhead]
      cases hslot : (s.copy h).slot with
      | none => simp
      | some n =>
        cases hu : (s.head h).settings with
        | none => simp [learnedInto_of_none hu]
        | some u =>
          by_cases hn : m = n
          · subst hn; simp [learnedInto_of_settings hu]
          · have hne : ¬n = m := Ne.symm hn
            simp [hn, hne]
    rw [List.foldl_cons, ih (t := t.writeBack h) (by rw [writeBack_frame, ht]), hnext, Option.map_map]
    congr 1
    funext r
    by_cases hm : (s.copy h).slot = some m
    · simp [hm]
    · simp [hm]

/-- Re-marking the copies of several slots. -/
theorem foldl_remarkSlot_copy (ns : List Slot) (s : State) (x : HeadId) {m : Slot} (hv : (s.copy x).state ≠ .invalid)
    (hm : (s.copy x).slot = some m) :
    (ns.foldl State.remarkSlot s).copy x = if m ∈ ns then markedCopy s x else s.copy x := by
  induction ns generalizing s with
  | nil => rfl
  | cons n ns ih =>
    have hlike := CopiesLike.remarkSlot s n
    obtain ⟨hslots, hheads, -⟩ := remarkSlot_same s n
    rw [List.foldl_cons, ih (s.remarkSlot n) (fun e => hv ((hlike.invalid x).mp e)) ((hlike.slot x).trans hm)]
    by_cases hn : m = n
    · subst hn
      have hcopy : (s.remarkSlot m).copy x = markedCopy s x := by rw [remarkSlot_copy, if_pos ⟨hv, hm⟩]
      have hmarked : markedCopy (s.remarkSlot m) x = markedCopy s x :=
        (markedCopy_congr (s := s.remark x) (by rw [hslots, remark_frame]) (by rw [hheads, remark_frame]) hcopy).trans
          (markedCopy_remark s x)
      rw [hmarked, hcopy, if_pos (List.mem_cons_self ..), ite_self]
    · have hcopy : (s.remarkSlot n).copy x = s.copy x := by
        rw [remarkSlot_copy, if_neg fun h => hn (Option.some.inj (hm.symm.trans h.2))]
      rw [markedCopy_congr hslots hheads hcopy, hcopy]
      simp [hn]

theorem foldl_remarkSlot_copy_of_invalid (ns : List Slot) (s : State) (x : HeadId)
    (hx : (s.copy x).state = .invalid ∨ ∀ m, (s.copy x).slot = some m → m ∉ ns) :
    (ns.foldl State.remarkSlot s).copy x = s.copy x := by
  refine foldl_keeps (Q := fun t => t.copy x = s.copy x) (fun t n hn ht => ?_) rfl
  rw [remarkSlot_copy, ht, if_neg]
  rintro ⟨hv, hslot⟩
  exact hx.elim hv fun h => h n hslot hn

theorem foldl_remarkSlot_frame (ns : List Slot) (s : State) :
    ns.foldl State.remarkSlot s = { s with copies := (ns.foldl State.remarkSlot s).copies } :=
  foldl_keeps (Q := fun t => t = { s with copies := t.copies }) (fun t n _ ht => by rw [remarkSlot_frame, ht]) rfl

theorem writeBackAll_frame (s : State) (hs : List HeadId) : s.writeBackAll hs =
    { s with slots := (s.writeBackAll hs).slots, copies := (s.writeBackAll hs).copies } := by
  unfold State.writeBackAll
  rw [foldl_remarkSlot_frame, foldl_writeBack_frame]

theorem writeBackAll_recipe (s : State) (hs : List HeadId) (m : Slot) : (s.writeBackAll hs).recipe m =
    (s.recipe m).map fun r => (hs.filter fun h => (s.copy h).slot == some m).foldl (learnedInto s) r := by
  rw [← foldl_writeBack_recipes hs m (s := s) rfl]
  unfold State.writeBackAll
  rw [foldl_remarkSlot_frame]
  rfl

/-! ## The loads -/

/-- The loads of heads, one after another (R64, R68). -/
def loadAll (target : HeadId → Option Slot) (hs : List HeadId) (s : State) : State :=
  hs.foldl (fun s h => match target h with
    | some n => s.load n h
    | none => s) s

theorem evictAndLoad_eq (s : State) (target : HeadId → Option Slot) (hs : List HeadId) :
    s.evictAndLoad target hs = loadAll target hs (s.writeBackAll (s.evicted target hs)) := rfl

theorem load_frame (s : State) (n : Slot) (h : HeadId) :
    s.load n h = { s with copies := (s.load n h).copies, heads := (s.load n h).heads } := by
  unfold State.load
  dsimp only
  rw [remark_frame]
  rfl

theorem loadAll_frame (target : HeadId → Option Slot) (hs : List HeadId) (s : State) :
    loadAll target hs s = { s with copies := (loadAll target hs s).copies, heads := (loadAll target hs s).heads } := by
  refine foldl_keeps (Q := fun t => t = { s with copies := t.copies, heads := t.heads }) (fun t h _ ht => ?_) rfl
  split
  · rw [load_frame, ht]
  · exact ht

/-- A head that is not loaded keeps its copy and its record. -/
theorem loadAll_of_not {h : HeadId} (hh : h ∈ hs → target h = none) (s : State) :
    (loadAll target hs s).copy h = s.copy h ∧ (loadAll target hs s).head h = s.head h := by
  refine foldl_keeps (Q := fun t => t.copy h = s.copy h ∧ t.head h = s.head h) (fun t g hg ht => ?_) ⟨rfl, rfl⟩
  split
  · rename_i n hn
    have hne : h ≠ g := fun e => by
      subst e
      rw [hh hg] at hn
      cases hn
    rw [load_copy, load_head, if_neg hne, if_neg hne]
    exact ht
  · exact ht

/-- A load touches no head but for its trim. -/
theorem loadAll_head (target : HeadId → Option Slot) (hs : List HeadId) (s : State) (h : HeadId) :
    (loadAll target hs s).head h = { s.head h with trim := ((loadAll target hs s).head h).trim } := by
  refine foldl_keeps (Q := fun t => t.head h = { s.head h with trim := (t.head h).trim }) (fun t g _ ht => ?_) rfl
  split
  · rw [load_head]
    split
    · rename_i hg; rw [← hg, ht]
    · exact ht
  · exact ht

theorem loadTrim_congr {n : Slot} {h : HeadId} (hr : t.recipe n = s.recipe n) (hc : t.copy h = s.copy h)
    (hst : t.startTrim n h = s.startTrim n h) : loadTrim t n h = loadTrim s n h := by
  unfold loadTrim State.isHit
  rw [hr, hc, hst]

theorem loadAll_startTrim (target : HeadId → Option Slot) (hs : List HeadId) (s : State) (n : Slot) (h : HeadId) :
    (loadAll target hs s).startTrim n h = s.startTrim n h := by
  refine foldl_keeps (Q := fun t => t.startTrim n h = s.startTrim n h) (fun t g _ ht => ?_) rfl
  split
  · rw [load_startTrim, ht]
  · exact ht

theorem loadAll_recipe (target : HeadId → Option Slot) (hs : List HeadId) (s : State) (n : Slot) :
    (loadAll target hs s).recipe n = s.recipe n := by
  rw [loadAll_frame]
  rfl

/-- A head loaded once has the copy and the trim that its load from the state before the loads gives it. -/
theorem loadAll_of_mem {h : HeadId} {n : Slot} (hnodup : hs.Nodup) (hh : h ∈ hs) (hn : target h = some n) (s : State) :
    ((loadAll target hs s).head h).trim = loadTrim s n h ∧ (loadAll target hs s).copy h =
      ⟨some n, if s.startTrim n h = some (loadTrim s n h) then .clean else .dirty, loadTrim s n h⟩ := by
  obtain ⟨before, after, rfl⟩ := List.append_of_mem hh
  obtain ⟨-, hafter, hdisjoint⟩ := List.nodup_append.mp hnodup
  have hnotbefore : h ∉ before := fun hb => hdisjoint h hb h (List.mem_cons_self ..) rfl
  obtain ⟨hcopy, hhead⟩ := loadAll_of_not (target := target) (fun hb => absurd hb hnotbefore) s
  have hstart := loadAll_startTrim target before s n h
  have hload := loadTrim_congr (loadAll_recipe target before s n) hcopy hstart
  have hsplit : loadAll target (before ++ h :: after) s = loadAll target after ((loadAll target before s).load n h) := by
    unfold loadAll
    rw [List.foldl_append, List.foldl_cons, hn]
  obtain ⟨hcopy', hhead'⟩ := loadAll_of_not (target := target) (h := h)
    (fun ha => absurd ha (List.nodup_cons.mp hafter).1) ((loadAll target before s).load n h)
  rw [hsplit, hcopy', hhead', load_head, if_pos rfl, load_copy, if_pos rfl, hload, hstart]
  exact ⟨rfl, rfl⟩

/-! ## Write-backs and loads together -/

theorem evictAndLoad_frame (s : State) (target : HeadId → Option Slot) (hs : List HeadId) : s.evictAndLoad target hs =
    { s with
      slots := (s.evictAndLoad target hs).slots
      copies := (s.evictAndLoad target hs).copies
      heads := (s.evictAndLoad target hs).heads } := by
  rw [evictAndLoad_eq, loadAll_frame, writeBackAll_frame]

theorem evictAndLoad_head (s : State) (target : HeadId → Option Slot) (hs : List HeadId) (h : HeadId) :
    (s.evictAndLoad target hs).head h = { s.head h with trim := ((s.evictAndLoad target hs).head h).trim } := by
  have hback : (s.writeBackAll (s.evicted target hs)).head h = s.head h := by rw [writeBackAll_frame]; rfl
  rw [evictAndLoad_eq, loadAll_head, hback]

/-- A copy is written back exactly if it is of a slot that its load leaves. -/
theorem mem_evicted_slot {loads : HeadId → Slot → Prop} (hloads : ∀ h n, loads h n ↔ h ∈ hs ∧ target h = some n) {h : HeadId}
    {m : Slot} : Evicts s loads h m ↔ h ∈ s.evicted target hs ∧ (s.copy h).slot = some m := by
  rw [mem_evicted]
  unfold Evicts
  constructor
  · rintro ⟨hdirty, hslot, n, hload, hne⟩
    obtain ⟨hh, hn⟩ := (hloads h n).mp hload
    exact ⟨⟨hh, n, hn, hdirty, fun e => hne (Option.some.inj (e.symm.trans hslot))⟩, hslot⟩
  · rintro ⟨⟨hh, n, hn, hdirty, hne⟩, hslot⟩
    exact ⟨hdirty, hslot, n, (hloads h n).mpr ⟨hh, hn⟩, fun e => hne (hslot.trans (congrArg some e.symm))⟩

/-- The eviction write-backs, slot by slot (R69, R70). -/
theorem evictedInto_evictAndLoad {loads : HeadId → Slot → Prop} (hsorted : hs.Pairwise (· < ·))
    (hloads : ∀ h n, loads h n ↔ h ∈ hs ∧ target h = some n) (m : Slot) :
    EvictedInto s (s.evictAndLoad target hs) loads m := by
  have hmem : ∀ h, h ∈ (s.evicted target hs).filter (fun h => (s.copy h).slot == some m) ↔ Evicts s loads h m := fun h => by
    rw [List.mem_filter, mem_evicted_slot hloads, beq_iff_eq]
  have hascending : ((s.evicted target hs).filter fun h => (s.copy h).slot == some m).Pairwise (· < ·) :=
    (hsorted.filter _).filter _
  have hrecipe : (s.evictAndLoad target hs).recipe m = (s.recipe m).map fun r =>
      ((s.evicted target hs).filter fun h => (s.copy h).slot == some m).foldl (learnedInto s) r := by
    rw [evictAndLoad_eq, loadAll_recipe, writeBackAll_recipe]
  refine ⟨fun hnone => by rw [hrecipe, hnone]; rfl, fun r hr => ⟨_, by rw [hrecipe, hr]; rfl, foldl_learnedInto_frame _ r,
    foldl_learnedInto_target _ r, fun h u hevict hu hspec hlast => ?_, fun p hp => ?_⟩⟩
  · exact foldl_learnedInto_last hascending ((hmem h).mpr hevict) hu hspec
      fun g v hlt hg hv => hlast g v hlt ((hmem g).mp hg) hv
  · exact foldl_learnedInto_other r fun h hh u hu => hp h u ((hmem h).mp hh) hu

theorem writeBackAll_like (s : State) (hs : List HeadId) (h : HeadId) :
    ((s.writeBackAll hs).copy h).slot = (s.copy h).slot ∧ ((s.writeBackAll hs).copy h).learned = (s.copy h).learned ∧
      (((s.writeBackAll hs).copy h).state = .invalid ↔ (s.copy h).state = .invalid) :=
  ⟨(CopiesLike.writeBackAll s hs).slot h, (CopiesLike.writeBackAll s hs).learned h, (CopiesLike.writeBackAll s hs).invalid h⟩

theorem startTrim_of_spec {n : Slot} {h : HeadId} {r : Recipe} {u : HeadSettings} (hr : s.recipe n = some r)
    (hu : (s.head h).settings = some u) : s.startTrim n h = (r.specFor u).map (·.startTrim) := by
  simp only [State.startTrim, hr, hu]

theorem isHit_iff {n : Slot} {h : HeadId} : s.isHit n h = true ↔ (s.copy h).state ≠ .invalid ∧ (s.copy h).slot = some n := by
  simp [State.isHit, WorkingCopy.copies, WorkingCopy.valid]

/-- The trim that a load of a full slot with a specification for the head gives it. -/
theorem loadTrim_of_spec {n : Slot} {h : HeadId} {r : Recipe} {u : HeadSettings} {q : PositionSpec} (hr : s.recipe n = some r)
    (hu : (s.head h).settings = some u) (hq : r.specFor u = some q) : loadTrim s n h = clampAbs r.trimLimit
      (if (s.copy h).state ≠ .invalid ∧ (s.copy h).slot = some n then (s.copy h).learned else q.startTrim) := by
  unfold loadTrim
  rw [startTrim_of_spec hr hu, hr, hq]
  by_cases hhit : (s.copy h).state ≠ .invalid ∧ (s.copy h).slot = some n
  · rw [if_pos (isHit_iff.mpr hhit), if_pos hhit]
  · rw [if_neg fun e => hhit (isHit_iff.mp e), if_neg hhit]
    rfl

/-- Write-backs, re-marking and loads in ascending head number do what `Reloaded` states (R67 to R70). -/
theorem reloaded_evictAndLoad {loads : HeadId → Slot → Prop} (hsorted : hs.Pairwise (· < ·))
    (hloads : ∀ h n, loads h n ↔ h ∈ hs ∧ target h = some n) : Reloaded s (s.evictAndLoad target hs) loads := by
  have hnodup : hs.Nodup := hsorted.imp fun h => Fin.ne_of_lt h
  have hnot : ∀ h, (∀ n, ¬loads h n) → h ∈ hs → target h = none := fun h hno hh =>
    Option.eq_none_iff_forall_ne_some.mpr fun n hn => hno n ((hloads h n).mpr ⟨hh, hn⟩)
  have hback : ∀ h, (s.writeBackAll (s.evicted target hs)).head h = s.head h := fun h => by rw [writeBackAll_frame]; rfl
  have hstart : ∀ m h, (s.evictAndLoad target hs).startTrim m h = (s.writeBackAll (s.evicted target hs)).startTrim m h :=
    fun m h => by rw [evictAndLoad_eq, loadAll_startTrim]
  refine ⟨evictedInto_evictAndLoad hsorted hloads, fun h n u r q hload hu hr hq => ?_, fun h hno => ?_,
    fun h m hno hv hm hev => ?_, fun h hno hkept => ?_⟩
  · obtain ⟨hh, hn⟩ := (hloads h n).mp hload
    obtain ⟨hslot, hlearned, hinvalid⟩ := writeBackAll_like s (s.evicted target hs) h
    have hr' : (s.writeBackAll (s.evicted target hs)).recipe n = some r := by
      rwa [evictAndLoad_eq, loadAll_recipe] at hr
    have hu' : ((s.writeBackAll (s.evicted target hs)).head h).settings = some u := by rw [hback]; exact hu
    obtain ⟨htrim, hcopy⟩ := loadAll_of_mem hnodup hh hn (s.writeBackAll (s.evicted target hs))
    have hload' := loadTrim_of_spec hr' hu' hq
    simp only [hslot, hlearned, ne_eq, hinvalid] at hload'
    rw [startTrim_of_spec hr' hu', hq, hload'] at hcopy
    rw [hload'] at htrim
    refine ⟨htrim, ?_⟩
    rw [evictAndLoad_eq, hcopy]
    simp only [Option.map_some, Option.some.injEq, ne_eq, eq_comm (a := q.startTrim)]
  · rw [evictAndLoad_eq, (loadAll_of_not (hnot h hno) _).2, hback]
  · obtain ⟨g, hg⟩ := hev
    obtain ⟨hmem, hgslot⟩ := (mem_evicted_slot hloads).mp hg
    have hcopies : ((s.evicted target hs).foldl State.writeBack s).copy h = s.copy h := by
      rw [foldl_writeBack_frame]; rfl
    have hwritten : m ∈ (s.evicted target hs).filterMap fun h => (s.copy h).slot := List.mem_filterMap.mpr ⟨g, hmem, hgslot⟩
    have hsame : (s.writeBackAll (s.evicted target hs)).startTrim m h =
        ((s.evicted target hs).foldl State.writeBack s).startTrim m h := by
      unfold State.writeBackAll
      rw [foldl_remarkSlot_frame]
      rfl
    rw [hstart, evictAndLoad_eq, (loadAll_of_not (hnot h hno) _).1, hsame]
    unfold State.writeBackAll
    rw [foldl_remarkSlot_copy _ _ h (by rw [hcopies]; exact hv) (by rw [hcopies]; exact hm), if_pos hwritten,
      markedCopy_of_valid (by rw [hcopies]; exact hv) (by rw [hcopies]; exact hm), hcopies]
  · have hcopies : ((s.evicted target hs).foldl State.writeBack s).copy h = s.copy h := by
      rw [foldl_writeBack_frame]; rfl
    rw [evictAndLoad_eq, (loadAll_of_not (hnot h hno) _).1]
    unfold State.writeBackAll
    rw [foldl_remarkSlot_copy_of_invalid _ _ h, hcopies]
    rw [hcopies]
    refine hkept.imp_right fun hk m hm hmem => ?_
    obtain ⟨g, hg, hgm⟩ := List.mem_filterMap.mp hmem
    exact hk m hm g ((mem_evicted_slot hloads).mpr ⟨hg, hgm⟩)

/-! ## What the statements about recipes read -/

/-- The slots, the copies and the heads' settings and trims are as they were. -/
structure CopiesSame (s t : State) : Prop where
  slots : t.slots = s.slots
  copies : t.copies = s.copies
  settings : ∀ h, (t.head h).settings = (s.head h).settings
  trim : ∀ h, (t.head h).trim = (s.head h).trim

namespace CopiesSame

variable {u : State} {loads : HeadId → Slot → Prop}

theorem refl (s : State) : CopiesSame s s := ⟨rfl, rfl, fun _ => rfl, fun _ => rfl⟩

theorem trans (a : CopiesSame s t) (b : CopiesSame t u) : CopiesSame s u :=
  ⟨b.slots.trans a.slots, b.copies.trans a.copies, fun h => (b.settings h).trans (a.settings h),
    fun h => (b.trim h).trans (a.trim h)⟩

theorem of_storeSame (e : StoreSame s t) : CopiesSame s t := ⟨e.slots, e.copies, e.settings, e.trim⟩

theorem of_heads (hs : t.slots = s.slots) (hc : t.copies = s.copies) (hh : t.heads = s.heads) : CopiesSame s t :=
  ⟨hs, hc, fun h => by rw [State.head, hh]; rfl, fun h => by rw [State.head, hh]; rfl⟩

theorem recipe (e : CopiesSame s t) (n : Slot) : t.recipe n = s.recipe n := by rw [State.recipe, e.slots]; rfl

theorem copy (e : CopiesSame s t) (h : HeadId) : t.copy h = s.copy h := by rw [State.copy, e.copies]; rfl

theorem startTrim (e : CopiesSame s t) (n : Slot) (h : HeadId) : t.startTrim n h = s.startTrim n h := by
  simp only [State.startTrim, e.recipe, e.settings]

theorem evicts (e : CopiesSame s t) {h : HeadId} {m : Slot} : Evicts t loads h m ↔ Evicts s loads h m := by
  unfold Evicts
  rw [e.copy]

/-- What is done before the write-backs and after the loads does not touch what they leave. -/
theorem reloaded {u v : State} (a : CopiesSame s t) (b : CopiesSame u v) (h : Reloaded t u loads) : Reloaded s v loads := by
  refine ⟨fun m => ?_, fun x n w r q hload hw hr hq => ?_, fun x hno => ?_, fun x m hno hv hm hev => ?_,
    fun x hno hkept => ?_⟩
  · have hm := h.slots m
    unfold EvictedInto at hm ⊢
    simpa only [a.evicts, a.recipe, b.recipe, a.settings, a.copy] using hm
  · have hloaded := h.loaded x n w r q hload (by rw [a.settings]; exact hw) (by rw [← b.recipe]; exact hr) hq
    rw [a.copy] at hloaded
    rw [b.trim, b.copy]
    exact hloaded
  · rw [b.trim, h.trims x hno, a.trim]
  · obtain ⟨g, hg⟩ := hev
    rw [b.copy, b.startTrim, h.remarked x m hno (by rw [a.copy]; exact hv) (by rw [a.copy]; exact hm) ⟨g, a.evicts.mpr hg⟩,
      a.copy]
  · rw [b.copy, h.kept x hno ?_, a.copy]
    rw [a.copy]
    exact hkept.imp_right fun hk m hm g hg => hk m hm g (a.evicts.mp hg)

end CopiesSame

end Sys2Proof.Proofs

/-! Steps 1 to 5 of a cut: the cutters asserted, and the records closed and appended (R134 to R136, R138, R139). -/

namespace Sys2Proof.Proofs

open Sys2Proof.Machine Sys2Proof.Safety

variable {s t : State} {l f : LineId} {c d : OpenCoil} {r q : Recipe}

/-- What an operation does line by line, one line after another, each line once. `P` holds of the states it goes through. -/
theorem foldl_lines {α : Type} {get : State → LineId → α} {op : State → LineId → State} {g : LineId → α → α}
    {P : State → Prop} (hP : ∀ t y, P t → P (op t y))
    (hop : ∀ t y z, P t → get (op t y) z = if z = y then g y (get t y) else get t z) {ls : List LineId} (hnodup : ls.Nodup)
    (hs : P s) : P (ls.foldl op s) ∧ ∀ z, get (ls.foldl op s) z = if z ∈ ls then g z (get s z) else get s z := by
  induction ls generalizing s with
  | nil => exact ⟨hs, fun _ => rfl⟩
  | cons y ls ih =>
    obtain ⟨hy, hls⟩ := List.nodup_cons.mp hnodup
    obtain ⟨hfinal, hget⟩ := ih hls (hP s y hs)
    refine ⟨hfinal, fun z => ?_⟩
    rw [List.foldl_cons, hget, hop s y z hs]
    by_cases hz : z = y
    · subst hz; simp [hy]
    · simp [hz]

/-! ## The record closed -/

theorem cutFlags_overlength_iff (hc : (s.coilRec l).coil = some c) (why : CutReason) (own paired mismatch : Bool) :
    (s.cutFlags l c r why own paired mismatch).overlength = true ↔
      c.start + (r.targetLength + r.plusTolerance) * 1000000 + (s.line l).cfg.authorityPitch ≤ (s.pos l).position := by
  simp only [State.cutFlags, State.limitCoordinate, coilStart_of_some hc, nmPerMm, decide_eq_true_eq]

theorem conflicts_iff (splices : List Nat) (endZone p : Nat) :
    conflicts splices endZone p = true ↔ ∃ x ∈ splices, x < p + endZone ∧ p < x + endZone := by
  simp only [conflicts, List.any_eq_true, decide_eq_true_eq, distance_lt_iff]

theorem conflicts_endZone_iff (s : State) (l : LineId) (r : Recipe) :
    conflicts (s.spanRec l).splices (r.endZone * nmPerMm) (s.pos l).position = true ↔ SpliceNear s l r :=
  conflicts_iff _ _ _

/-- The record that a cut of a line closes holds what the rules of a closed coil name. -/
theorem closedFrom_closedRecord (hc : (s.coilRec l).coil = some c) (r : Recipe) (why : CutReason) (own : Bool)
    (partner : Option (LineId × Nat)) (mismatch : Bool) :
    ClosedFrom s l c r (s.closedRecord l c r why own partner mismatch) where
  line := rfl
  number := rfl
  slot := rfl
  start := rfl
  stop := rfl
  length := rfl
  marks := rfl
  suppressed := rfl
  bandCount := rfl
  overlength := cutFlags_overlength_iff hc why own _ mismatch
  splices := take_splices _ _
  spans := take_spans _ _
  lostSplices := take_lostSplices _ _
  lostSpans := take_lostSpans _ _
  cutTime := rfl
  attempts := rfl
  bandsDone := rfl
  restarts := rfl
  packTime := rfl

/-- The record depends on the state through the line's own blocks and the time stamp. -/
theorem closedRecord_congr (hpos : t.pos l = s.pos l) (hspan : t.spanRec l = s.spanRec l)
    (hnumber : (t.coilRec l).number = (s.coilRec l).number) (hstart : t.coilStart l = s.coilStart l)
    (hcfg : (t.line l).cfg = (s.line l).cfg) (hstamp : t.stamp = s.stamp) (c : OpenCoil) (r : Recipe) (why : CutReason)
    (own : Bool) (partner : Option (LineId × Nat)) (mismatch : Bool) :
    t.closedRecord l c r why own partner mismatch = s.closedRecord l c r why own partner mismatch := by
  unfold State.closedRecord State.cutFlags State.limitCoordinate
  rw [hpos, hspan, hnumber, hstart, hcfg, hstamp]

theorem closedRecord_number (s : State) (l : LineId) (c : OpenCoil) (r : Recipe) (why : CutReason) (own : Bool)
    (partner : Option (LineId × Nat)) (mismatch : Bool) :
    (s.closedRecord l c r why own partner mismatch).number = (s.coilRec l).number := rfl

theorem closedRecord_partner (s : State) (l : LineId) (c : OpenCoil) (r : Recipe) (why : CutReason) (own : Bool)
    (partner : Option (LineId × Nat)) (mismatch : Bool) :
    (s.closedRecord l c r why own partner mismatch).partner = partner := rfl

theorem closedRecord_flags (s : State) (l : LineId) (c : OpenCoil) (r : Recipe) (why : CutReason) (own : Bool)
    (partner : Option (LineId × Nat)) (mismatch : Bool) :
    (s.closedRecord l c r why own partner mismatch).flags = s.cutFlags l c r why own partner.isSome mismatch := rfl

/-! ## The records of the lines of a cut -/

/-- The records of the lines of a cut are closed: each cutter is asserted, what was taken has gone from the SR, and the record
stands at the end of its lane queue. How the cut was placed does not matter any more. -/
structure RecordsClosed (s u : State) (ls : List LineId) (x : LineId → CoilRecord) : Prop where
  frame : u = { s with coils := u.coils, spanRecs := u.spanRecs, lanes := u.lanes }
  coilRec : ∀ y, u.coilRec y = if y ∈ ls then
    { s.coilRec y with
      stage := (u.coilRec y).stage
      cutterPulse := some (s.now + (s.line y).cfg.cutterPulse * 1000) } else s.coilRec y
  spanRec : ∀ y, u.spanRec y = if y ∈ ls then (s.spanRec y).afterTake (s.pos y).position else s.spanRec y
  lane : ∀ y, u.lane y = if y ∈ ls then { s.lane y with queue := (s.lane y).queue ++ [x y] } else s.lane y

/-- The cutters asserted (R135). -/
structure CuttersOn (s u : State) (ls : List LineId) : Prop where
  frame : u = { s with coils := u.coils }
  coilRec : ∀ y, u.coilRec y = if y ∈ ls then
    { s.coilRec y with cutterPulse := some (s.now + (s.line y).cfg.cutterPulse * 1000) } else s.coilRec y

theorem cuttersOn_foldl {ls : List LineId} (hnodup : ls.Nodup) (s : State) : CuttersOn s (ls.foldl State.assertCutter s) ls := by
  have hlines := foldl_lines (s := s) (ls := ls) (get := State.coilRec) (op := State.assertCutter)
    (g := fun y k => { k with cutterPulse := some (s.now + (s.line y).cfg.cutterPulse * 1000) })
    (P := fun t => t = { s with coils := t.coils }) (fun t y ht => by rw [ht]; rfl)
    (fun t y z ht => by
      have hnow : t.now = s.now := by rw [ht]
      have hline : t.line y = s.line y := by rw [ht]; rfl
      unfold State.assertCutter
      rw [modCoil_coilRec, hnow, hline]) hnodup rfl
  exact ⟨hlines.1, hlines.2⟩

namespace CuttersOn

variable {ls : List LineId}

theorem coil (h : CuttersOn s t ls) (y : LineId) : (t.coilRec y).coil = (s.coilRec y).coil := by
  rw [h.coilRec]
  split <;> rfl

theorem number (h : CuttersOn s t ls) (y : LineId) : (t.coilRec y).number = (s.coilRec y).number := by
  rw [h.coilRec]
  split <;> rfl

theorem coilStart (h : CuttersOn s t ls) (y : LineId) : t.coilStart y = s.coilStart y := by
  simp only [State.coilStart, h.coil]

theorem staged (h : CuttersOn s t ls) (y : LineId) : t.coilRec y = if y ∈ ls then
    { s.coilRec y with
      stage := (t.coilRec y).stage
      cutterPulse := some (s.now + (s.line y).cfg.cutterPulse * 1000) } else s.coilRec y := by
  rw [h.coilRec]
  split <;> rfl

theorem coilRecipe (h : CuttersOn s t ls) (y : LineId) : t.coilRecipe y = s.coilRecipe y := by
  have hrecipe : ∀ n, t.recipe n = s.recipe n := fun n => by rw [h.frame]; rfl
  simp only [State.coilRecipe, h.coil, hrecipe]

end CuttersOn

/-- The line's record closed and appended. -/
theorem closeCoil_of_some (hc : (s.coilRec l).coil = some c) (hr : s.coilRecipe l = some r) (why : CutReason) (own : Bool)
    (partner : Option (LineId × Nat)) (mismatch : Bool) : s.closeCoil l why own partner mismatch =
      (s.modSpanRec l (·.afterTake (s.pos l).position)).modLane l
        fun k => { k with queue := k.queue ++ [s.closedRecord l c r why own partner mismatch] } := by
  simp only [State.closeCoil, hc, hr]

theorem coilRecipe_of_coil (hc : (s.coilRec l).coil = some c) (hr : s.recipe c.slot = some r) : s.coilRecipe l = some r := by
  simp only [State.coilRecipe, hc, Option.bind_some, hr]

/-- The record of a line that cuts alone. -/
theorem recordsClosed_alone (hc : (s.coilRec l).coil = some c) (hr : s.recipe c.slot = some r)
    (hf : s.runningFollower l = none) (why : CutReason) :
    RecordsClosed s (cutClosed s l why) [l] fun _ => s.closedRecord l c r why true none false := by
  have hon := cuttersOn_foldl (ls := [l]) (List.pairwise_singleton _ l) s
  have hclosed : cutClosed s l why = ([l].foldl State.assertCutter s).closeCoil l why true none false := by
    unfold cutClosed
    rw [hf]
    rfl
  generalize [l].foldl State.assertCutter s = w at hon hclosed
  have hrecord := closedRecord_congr (s := s) (t := w) (l := l) (by rw [hon.frame]; rfl) (by rw [hon.frame]; rfl) (hon.number l)
    (hon.coilStart l) (by rw [hon.frame]; rfl) (by rw [hon.frame]; rfl) c r why true none false
  rw [closeCoil_of_some ((hon.coil l).trans hc) ((hon.coilRecipe l).trans (coilRecipe_of_coil hc hr)), hrecord] at hclosed
  rw [hclosed]
  refine ⟨by rw [hon.frame]; rfl, hon.staged, fun y => ?_, fun y => ?_⟩
  · have hspans : ∀ z, w.spanRec z = s.spanRec z := fun z => by rw [hon.frame]; rfl
    have hpos : w.pos l = s.pos l := by rw [hon.frame]; rfl
    show (w.modSpanRec l (·.afterTake (w.pos l).position)).spanRec y = _
    rw [modSpanRec_spanRec, hspans, hspans, hpos]
    by_cases hy : y = l
    · subst hy; simp
    · simp [hy]
  · have hlanes : ∀ z, w.lane z = s.lane z := fun z => by rw [hon.frame]; rfl
    rw [modLane_lane]
    show (if y = l then { w.lane l with queue := (w.lane l).queue ++ [s.closedRecord l c r why true none false] }
      else w.lane y) = _
    rw [hlanes, hlanes]
    by_cases hy : y = l
    · subst hy; simp
    · simp [hy]

/-- The records of a pair: the line's own cut, with the flags of its reason, and its follower's, each with the other's number
and with the mismatch of the two lengths. -/
def pairRecords (s : State) (l f : LineId) (c d : OpenCoil) (r q : Recipe) (why : CutReason) (y : LineId) : CoilRecord :=
  if y = f then s.closedRecord f d q why false (some (l, (s.coilRec l).number)) (s.pairMismatch l f)
  else s.closedRecord l c r why true (some (f, (s.coilRec f).number)) (s.pairMismatch l f)

/-- The records of a line and of its running follower. -/
theorem recordsClosed_pair (hne : f ≠ l) (hc : (s.coilRec l).coil = some c) (hr : s.recipe c.slot = some r)
    (hf : s.runningFollower l = some f) (hd : (s.coilRec f).coil = some d) (hq : s.recipe d.slot = some q) (why : CutReason) :
    RecordsClosed s (cutClosed s l why) [l, f] (pairRecords s l f c d r q why) := by
  have hon := cuttersOn_foldl (ls := [l, f]) (by simp [hne.symm]) s
  have hclosed : cutClosed s l why = (([l, f].foldl State.assertCutter s).closeCoil l why true
      (some (f, (s.coilRec f).number)) (s.pairMismatch l f)).closeCoil f why false (some (l, (s.coilRec l).number))
      (s.pairMismatch l f) := by
    unfold cutClosed
    rw [hf]
    rfl
  generalize [l, f].foldl State.assertCutter s = w at hon hclosed
  have hspans : ∀ z, w.spanRec z = s.spanRec z := fun z => by rw [hon.frame]; rfl
  have hlanes : ∀ z, w.lane z = s.lane z := fun z => by rw [hon.frame]; rfl
  have hpos : ∀ z, w.pos z = s.pos z := fun z => by rw [hon.frame]; rfl
  have hcfg : ∀ z, (w.line z).cfg = (s.line z).cfg := fun z => by rw [hon.frame]; rfl
  have hstamp : w.stamp = s.stamp := by rw [hon.frame]; rfl
  have hrecord := closedRecord_congr (hpos l) (hspans l) (hon.number l) (hon.coilStart l) (hcfg l) hstamp c r why true
    (some (f, (s.coilRec f).number)) (s.pairMismatch l f)
  rw [closeCoil_of_some ((hon.coil l).trans hc) ((hon.coilRecipe l).trans (coilRecipe_of_coil hc hr)), hrecord] at hclosed
  generalize hw1 : (w.modSpanRec l (·.afterTake (w.pos l).position)).modLane l (fun k => { k with
    queue := k.queue ++ [s.closedRecord l c r why true (some (f, (s.coilRec f).number)) (s.pairMismatch l f)] }) = w1 at hclosed
  have hcoil1 : ∀ z, w1.coilRec z = w.coilRec z := fun z => by rw [← hw1]; rfl
  have hpos1 : ∀ z, w1.pos z = w.pos z := fun z => by rw [← hw1]; rfl
  have hspans1 : ∀ z, w1.spanRec z = if z = l then (w.spanRec l).afterTake (w.pos l).position else w.spanRec z := fun z => by
    rw [← hw1]
    exact modSpanRec_spanRec w l (·.afterTake (w.pos l).position) z
  have hlanes1 : ∀ z, w1.lane z = if z = l then { w.lane l with queue := (w.lane l).queue ++
      [s.closedRecord l c r why true (some (f, (s.coilRec f).number)) (s.pairMismatch l f)] } else w.lane z := fun z => by
    rw [← hw1, modLane_lane]
    rfl
  have hstart1 : w1.coilStart f = w.coilStart f := by simp only [State.coilStart, hcoil1]
  have hrecipe1 : w1.coilRecipe f = w.coilRecipe f := by rw [← hw1]; rfl
  have hrecord1 := closedRecord_congr (s := s) (t := w1) (l := f) ((hpos1 f).trans (hpos f))
    ((hspans1 f).trans (by rw [if_neg hne, hspans])) (by rw [hcoil1, hon.number]) (hstart1.trans (hon.coilStart f))
    (by rw [← hw1]; exact hcfg f) (by rw [← hw1]; exact hstamp) d q why false (some (l, (s.coilRec l).number))
    (s.pairMismatch l f)
  rw [closeCoil_of_some (by rw [hcoil1, hon.coil]; exact hd)
    (hrecipe1.trans ((hon.coilRecipe f).trans (coilRecipe_of_coil hd hq))), hrecord1] at hclosed
  rw [hclosed]
  refine ⟨by rw [← hw1, hon.frame]; rfl, fun y => ?_, fun y => ?_, fun y => ?_⟩
  · have hstaged := hon.staged y
    rw [← hcoil1] at hstaged
    exact hstaged
  · show (w1.modSpanRec f (·.afterTake (w1.pos f).position)).spanRec y = _
    rw [modSpanRec_spanRec, hpos1, hspans1, hspans1, hpos, hpos, hspans, hspans, hspans]
    by_cases hy : y = f
    · subst hy; simp [hne]
    · by_cases hyl : y = l
      · subst hyl; simp [hy]
      · simp [hy, hyl]
  · rw [modLane_lane]
    show (if y = f then { w1.lane f with queue := (w1.lane f).queue ++ [s.closedRecord f d q why false
      (some (l, (s.coilRec l).number)) (s.pairMismatch l f)] } else w1.lane y) = _
    rw [hlanes1, hlanes1, hlanes, hlanes, hlanes]
    by_cases hy : y = f
    · subst hy; simp [hne, pairRecords]
    · by_cases hyl : y = l
      · subst hyl; simp [hy, pairRecords]
      · simp [hy, hyl]

/-! ## A cut placed on the way -/

/-- A line's cut brought to a stage (R127). -/
def staged (s : State) (l : LineId) (st : CutStage) : State := s.modCoil l fun k => { k with stage := st }

theorem modCoil_of_same {g : CoilRec → CoilRec} (h : g (s.coilRec l) = s.coilRec l) : s.modCoil l g = s := by
  show { s with coils := s.coils.set l (g (s.coilRec l)) } = s
  have hset : s.coils.set l (g (s.coilRec l)) = s.coils := PerLine.ext_get fun x => by
    rw [PerLine.get_set, h]
    split
    · rename_i hx; rw [hx]; rfl
    · rfl
  rw [hset]

theorem staged_self (s : State) (l : LineId) : staged s l (s.coilRec l).stage = s := modCoil_of_same rfl

theorem staged_of_stage {st : CutStage} (h : (s.coilRec l).stage = st) : staged s l st = s := h ▸ staged_self s l

theorem staged_coilRec (s : State) (l : LineId) (st : CutStage) (y : LineId) :
    (staged s l st).coilRec y = if y = l then { s.coilRec l with stage := st } else s.coilRec y := modCoil_coilRec ..

theorem staged_number (s : State) (l : LineId) (st : CutStage) (y : LineId) :
    ((staged s l st).coilRec y).number = (s.coilRec y).number := by
  rw [staged_coilRec]
  split
  · rename_i hy; rw [hy]
  · rfl

theorem staged_coil (s : State) (l : LineId) (st : CutStage) (y : LineId) :
    ((staged s l st).coilRec y).coil = (s.coilRec y).coil := by
  rw [staged_coilRec]
  split
  · rename_i hy; rw [hy]
  · rfl

theorem staged_coilStart (s : State) (l : LineId) (st : CutStage) (y : LineId) :
    (staged s l st).coilStart y = s.coilStart y := by
  simp only [State.coilStart, staged_coil]

theorem staged_closedRecord (s : State) (l : LineId) (st : CutStage) (y : LineId) (c : OpenCoil) (r : Recipe) (why : CutReason)
    (own : Bool) (partner : Option (LineId × Nat)) (mismatch : Bool) :
    (staged s l st).closedRecord y c r why own partner mismatch = s.closedRecord y c r why own partner mismatch :=
  closedRecord_congr (s := s) (t := staged s l st) (l := y) rfl rfl (staged_number s l st y) (staged_coilStart s l st y) rfl rfl c r why own partner mismatch

theorem staged_pairRecords (s : State) (l : LineId) (st : CutStage) (f : LineId) (c d : OpenCoil) (r q : Recipe)
    (why : CutReason) : pairRecords (staged s l st) l f c d r q why = pairRecords s l f c d r q why := by
  have hmismatch : (staged s l st).pairMismatch l f = s.pairMismatch l f := by
    unfold State.pairMismatch State.coilLength
    rw [staged_coilStart, staged_coilStart]
    rfl
  funext y
  unfold pairRecords
  rw [staged_closedRecord, staged_closedRecord, staged_number, staged_number, hmismatch]

theorem RecordsClosed.of_staged {u : State} {ls : List LineId} {x : LineId → CoilRecord} {st : CutStage} (hl : l ∈ ls)
    (h : RecordsClosed (staged s l st) u ls x) : RecordsClosed s u ls x where
  frame := by
    conv => lhs; rw [h.frame]
    rfl
  coilRec y := by
    conv => lhs; rw [h.coilRec]
    by_cases hy : y ∈ ls
    · rw [if_pos hy, if_pos hy, staged_coilRec]
      split
      · rename_i hyl; subst hyl; rfl
      · rfl
    · have hyl : y ≠ l := fun e => hy (e ▸ hl)
      rw [if_neg hy, if_neg hy, staged_coilRec, if_neg hyl]
  spanRec := h.spanRec
  lane := h.lane

end Sys2Proof.Proofs

/-! Step 7 of a cut: the pending recipes applied, with what that changes in the TS and the KS (R64, R83, R111). -/

namespace Sys2Proof.Proofs

open Sys2Proof.Machine Sys2Proof.Safety

variable {s t : State} {l : LineId} {used c : Nat}

/-! ## The columns above the columns used -/

/-- One column settled: the span it holds is closed at the last row coordinate (R111). -/
def settleColumn (l : LineId) (used : Nat) (s : State) (c : Nat) : State :=
  match ((s.knot l).column c).span, (s.knot l).lastRowCoord with
  | some (kind, start), some x =>
    if used ≤ c then s.submit l kind.kind (.column (c + 1)) (.close (max x start)) else s
  | _, _ => s

/-- The columns above the columns used, cleared. -/
def columnsCleared (used : Nat) (k : KnotRec) : KnotRec :=
  { k with columns := k.columns.mapIdx fun i h => if used ≤ i then ⟨0, none⟩ else h }

theorem settleColumns_eq (s : State) (l : LineId) (used : Nat) :
    s.settleColumns l used = ((List.range 64).foldl (settleColumn l used) s).modKnot l (columnsCleared used) := by
  unfold State.settleColumns
  dsimp only
  congr 2
  funext t c
  unfold settleColumn KnotRec.column
  rcases (t.knot l).columns[c]? with _ | ⟨misses, _ | ⟨kind, start⟩⟩
  · rfl
  · rfl
  · cases (t.knot l).lastRowCoord with
    | none => rfl
    | some x => cases kind <;> rfl

theorem columnsCleared_column (k : KnotRec) (hc : c < 64) :
    (columnsCleared used k).column c = if used ≤ c then ⟨0, none⟩ else k.column c := by
  simp [columnsCleared, KnotRec.column, hc]

/-- What is closed where a column is settled: the key of its spans. -/
def columnKey (c : Nat) : SpanKey := ⟨.knot, .column (c + 1)⟩

theorem columnSpanKind_base (k : ColumnSpanKind) : k.kind.base = .knot := by cases k <;> rfl

theorem holds_columnKey_iff (e : SpanEntry) (c : Nat) : e.holds (columnKey c) = true ↔
    e.isOpen = true ∧ e.source = .column (c + 1) ∧ (e.kind = .knot ∨ e.kind = .break) := by
  have hkey : e.key = columnKey c ↔ e.kind.base = .knot ∧ e.source = .column (c + 1) := by
    simp [SpanEntry.key, columnKey]
  have hbase : e.kind.base = .knot ↔ e.kind = .knot ∨ e.kind = .break := by cases e.kind <;> simp [SpanKind.base]
  rw [SpanEntry.holds, Bool.and_eq_true, beq_iff_eq, hkey, hbase, and_comm (b := e.source = _)]

/-- A span list with the entries of a key closed. -/
def closedAt (key : SpanKey) (stop : Nat) (es : List SpanEntry) : List SpanEntry :=
  es.map fun e => if e.holds key then e.closed stop else e

/-- A close on a line with a run open closes the entries that hold its key, and touches neither the splices nor the tallies. -/
theorem submit_close_spanRec (hrun : s.runOpen l = true) (k : SpanKind) (c : SpanSource) (stop : Nat) :
    ((s.submit l k c (.close stop)).spanRec l).spans = closedAt ⟨k.base, c⟩ stop (s.spanRec l).spans ∧
      ((s.submit l k c (.close stop)).spanRec l).splices = (s.spanRec l).splices ∧
      ((s.submit l k c (.close stop)).spanRec l).lostSpans = (s.spanRec l).lostSpans ∧
      ((s.submit l k c (.close stop)).spanRec l).lostSplices = (s.spanRec l).lostSplices := by
  cases hheld : (s.spanRec l).spans.any (·.holds ⟨k.base, c⟩) with
  | true =>
    rw [(submit_of_held hrun hheld).2.2.2.2, modSpanRec_spanRec_self]
    exact ⟨rfl, rfl, rfl, rfl⟩
  | false =>
    have hnone : closedAt ⟨k.base, c⟩ stop (s.spanRec l).spans = (s.spanRec l).spans := by
      refine (List.map_congr_left fun e he => ?_).trans (List.map_id _)
      have := List.any_eq_false.mp hheld e he
      simp [this]
    rw [hnone]
    by_cases hlost : (⟨k.base, c⟩ : SpanKey) ∈ (s.spanRec l).lostKeys
    · rw [(submit_of_lost hrun hheld hlost).2, modSpanRec_spanRec_self]
      exact ⟨rfl, rfl, rfl, rfl⟩
    · rw [(submit_of_free hrun hheld hlost).2.2.2.2]
      exact ⟨rfl, rfl, rfl, rfl⟩

/-- What settling columns leaves alone: all but the span list of the line, and there the splices, the tallies and where the
entries start. -/
structure ColumnsClosing (l : LineId) (s t : State) : Prop where
  frame : t = { s with spanRecs := t.spanRecs }
  others : ∀ y, y ≠ l → t.spanRec y = s.spanRec y
  starts : ∀ e ∈ (t.spanRec l).spans, ∃ e' ∈ (s.spanRec l).spans, e.start = e'.start
  splices : (t.spanRec l).splices = (s.spanRec l).splices
  lost : (t.spanRec l).lostSpans = (s.spanRec l).lostSpans ∧ (t.spanRec l).lostSplices = (s.spanRec l).lostSplices

namespace ColumnsClosing

variable {u : State}

theorem refl (l : LineId) (s : State) : ColumnsClosing l s s :=
  ⟨rfl, fun _ _ => rfl, fun e he => ⟨e, he, rfl⟩, rfl, rfl, rfl⟩

theorem trans (a : ColumnsClosing l s t) (b : ColumnsClosing l t u) : ColumnsClosing l s u := by
  refine ⟨by rw [b.frame, a.frame], fun y hy => (b.others y hy).trans (a.others y hy), fun e he => ?_,
    b.splices.trans a.splices, b.lost.1.trans a.lost.1, b.lost.2.trans a.lost.2⟩
  obtain ⟨e', he', hstart⟩ := b.starts e he
  obtain ⟨e'', he'', hstart'⟩ := a.starts e' he'
  exact ⟨e'', he'', hstart.trans hstart'⟩

theorem takenAt {p : Nat} (h : ColumnsClosing l s t) (hp : TakenAt (s.spanRec l) p) : TakenAt (t.spanRec l) p := by
  obtain ⟨hspans, hsplices, hlost, hlost'⟩ := hp
  refine ⟨fun e he => ?_, by rw [h.splices]; exact hsplices, h.lost.1.trans hlost, h.lost.2.trans hlost'⟩
  obtain ⟨e', he', hstart⟩ := h.starts e he
  rw [hstart]
  exact hspans e' he'

end ColumnsClosing

theorem submit_close_closing (hrun : s.runOpen l = true) (k : SpanKind) (c : SpanSource) (stop : Nat) :
    ColumnsClosing l s (s.submit l k c (.close stop)) := by
  obtain ⟨hspans, hsplices, hlost, hlost'⟩ := submit_close_spanRec hrun k c stop
  refine ⟨submit_close_frame s l k c stop, fun y hy => submit_spanRec_of_ne _ hy _ _ _, fun e he => ?_, hsplices, hlost, hlost'⟩
  rw [hspans] at he
  obtain ⟨e', he', rfl⟩ := List.mem_map.mp he
  refine ⟨e', he', ?_⟩
  split <;> rfl

/-- A column is settled by a close, or there is nothing to settle. -/
theorem settleColumn_cases (l : LineId) (used : Nat) (s : State) (c : Nat) : settleColumn l used s c = s ∨
    ∃ kind start x, ((s.knot l).column c).span = some (kind, start) ∧ (s.knot l).lastRowCoord = some x ∧
      settleColumn l used s c = s.submit l kind.kind (.column (c + 1)) (.close (max x start)) := by
  unfold settleColumn
  rcases ((s.knot l).column c).span with _ | ⟨kind, start⟩
  · exact .inl rfl
  cases (s.knot l).lastRowCoord with
  | none => exact .inl rfl
  | some x =>
    by_cases hused : used ≤ c
    · exact .inr ⟨kind, start, x, rfl, rfl, if_pos hused⟩
    · exact .inl (if_neg hused)

theorem settleColumn_of_span {kind : ColumnSpanKind} {start x : Nat} (hused : used ≤ c)
    (hspan : ((s.knot l).column c).span = some (kind, start)) (hx : (s.knot l).lastRowCoord = some x) :
    settleColumn l used s c = s.submit l kind.kind (.column (c + 1)) (.close (max x start)) := by
  unfold settleColumn
  rw [hspan, hx]
  exact if_pos hused

theorem settleColumn_closing (hrun : s.runOpen l = true) (c : Nat) : ColumnsClosing l s (settleColumn l used s c) := by
  rcases settleColumn_cases l used s c with h | ⟨kind, start, x, -, -, h⟩
  · rw [h]; exact .refl l s
  · rw [h]; exact submit_close_closing hrun _ _ _

theorem foldl_settleColumn_closing (hrun : s.runOpen l = true) (cs : List Nat) :
    ColumnsClosing l s (cs.foldl (settleColumn l used) s) :=
  foldl_keeps (Q := ColumnsClosing l s) (fun t c _ ht => ht.trans (settleColumn_closing (by rw [ht.frame]; exact hrun) c))
    (.refl l s)

/-- What stands in the span list of another key stays there. -/
theorem mem_settleColumn {e : SpanEntry} (hrun : s.runOpen l = true) (he : e ∈ (s.spanRec l).spans)
    (hkey : e.holds (columnKey c) = false) : e ∈ ((settleColumn l used s c).spanRec l).spans := by
  rcases settleColumn_cases l used s c with h | ⟨kind, start, x, -, -, h⟩
  · rw [h]; exact he
  · rw [h, (submit_close_spanRec hrun _ _ _).1, columnSpanKind_base]
    exact List.mem_map.mpr ⟨e, he, if_neg (Bool.eq_false_iff.mp hkey)⟩

/-- No entry comes to hold a key by the settling of columns. -/
theorem not_holds_settleColumn {key : SpanKey} (hrun : s.runOpen l = true)
    (hnone : ∀ e ∈ (s.spanRec l).spans, e.holds key = false) :
    ∀ e ∈ ((settleColumn l used s c).spanRec l).spans, e.holds key = false := by
  rcases settleColumn_cases l used s c with h | ⟨kind, start, x, -, -, h⟩
  · rw [h]; exact hnone
  · rw [h, (submit_close_spanRec hrun _ _ _).1]
    intro e he
    obtain ⟨e', he', rfl⟩ := List.mem_map.mp he
    split
    · simp [SpanEntry.holds, SpanEntry.closed]
    · exact hnone e' he'

/-- The open entries of a column above the columns used are closed, and no other entry of the column is opened. -/
theorem foldl_settleColumn_column {kind : ColumnSpanKind} {start x : Nat} (hrun : s.runOpen l = true) (hc : c < 64)
    (hused : used ≤ c) (hspan : ((s.knot l).column c).span = some (kind, start)) (hx : (s.knot l).lastRowCoord = some x) :
    (∀ e ∈ (((List.range 64).foldl (settleColumn l used) s).spanRec l).spans, e.holds (columnKey c) = false) ∧
    ∀ e ∈ (s.spanRec l).spans, e.holds (columnKey c) = true →
      e.closed (max x start) ∈ (((List.range 64).foldl (settleColumn l used) s).spanRec l).spans := by
  obtain ⟨before, after, hsplit⟩ := List.append_of_mem (List.mem_range.mpr hc)
  have hnodup : (before ++ c :: after).Nodup := hsplit ▸ List.nodup_range
  have hbefore : ∀ d ∈ before, d ≠ c := fun d hd e =>
    (List.nodup_append.mp hnodup).2.2 d hd c (List.mem_cons_self ..) e
  have hfirst := foldl_settleColumn_closing (used := used) hrun before
  have hstays : ∀ e ∈ (s.spanRec l).spans, e.holds (columnKey c) = true →
      e ∈ ((before.foldl (settleColumn l used) s).spanRec l).spans := fun e he hheld =>
    (foldl_keeps (Q := fun t => ColumnsClosing l s t ∧ e ∈ (t.spanRec l).spans)
      (fun t d hd ht => by
        have hrunt : t.runOpen l = true := by rw [ht.1.frame]; exact hrun
        refine ⟨ht.1.trans (settleColumn_closing hrunt d), mem_settleColumn hrunt ht.2 ?_⟩
        refine Bool.eq_false_iff.mpr fun hother => hbefore d hd ?_
        have hsource := (((holds_columnKey_iff e c).mp hheld).2.1).symm.trans ((holds_columnKey_iff e d).mp hother).2.1
        simpa using hsource.symm)
      ⟨.refl l s, he⟩).2
  rw [hsplit, List.foldl_append, List.foldl_cons]
  generalize before.foldl (settleColumn l used) s = w at hfirst hstays
  have hrunw : w.runOpen l = true := by rw [hfirst.frame]; exact hrun
  have hknot : w.knot l = s.knot l := by rw [hfirst.frame]; rfl
  have hclose := settleColumn_of_span hused (hknot ▸ hspan) (hknot ▸ hx)
  have hspans : ((settleColumn l used w c).spanRec l).spans = closedAt (columnKey c) (max x start) (w.spanRec l).spans := by
    rw [hclose, (submit_close_spanRec hrunw _ _ _).1, columnSpanKind_base]
    rfl
  have hrunc : (settleColumn l used w c).runOpen l = true := by rw [(settleColumn_closing hrunw c).frame]; exact hrunw
  constructor
  · refine (foldl_keeps (Q := fun t => ColumnsClosing l (settleColumn l used w c) t ∧
      ∀ e ∈ (t.spanRec l).spans, e.holds (columnKey c) = false) (fun t d _ ht => ?_) ⟨.refl _ _, ?_⟩).2
    · have hrunt : t.runOpen l = true := by rw [ht.1.frame]; exact hrunc
      exact ⟨ht.1.trans (settleColumn_closing hrunt d), not_holds_settleColumn hrunt ht.2⟩
    · rw [hspans]
      intro e he
      obtain ⟨e', -, rfl⟩ := List.mem_map.mp he
      split
      · simp [SpanEntry.holds, SpanEntry.closed]
      · rename_i hnot; exact Bool.eq_false_iff.mpr hnot
  · intro e he hheld
    refine (foldl_keeps (Q := fun t => ColumnsClosing l (settleColumn l used w c) t ∧
      e.closed (max x start) ∈ (t.spanRec l).spans) (fun t d _ ht => ?_) ⟨.refl _ _, ?_⟩).2
    · have hrunt : t.runOpen l = true := by rw [ht.1.frame]; exact hrunc
      exact ⟨ht.1.trans (settleColumn_closing hrunt d),
        mem_settleColumn hrunt ht.2 (by simp [SpanEntry.holds, SpanEntry.closed])⟩
    · rw [hspans]
      exact List.mem_map.mpr ⟨e, hstays e he hheld, if_pos hheld⟩

/-! ## A change of bound recipe -/

theorem foldl_modHead_frame (g : HeadRec → HeadRec) (hs : List HeadId) (s : State) :
    hs.foldl (fun s h => s.modHead h g) s = { s with heads := (hs.foldl (fun s h => s.modHead h g) s).heads } :=
  foldl_keeps (Q := fun t => t = { s with heads := t.heads }) (fun t h _ ht => by rw [ht]; rfl) rfl

theorem foldl_modHead_head {g : HeadRec → HeadRec} {hs : List HeadId} (hnodup : hs.Nodup) (s : State) (x : HeadId) :
    (hs.foldl (fun s h => s.modHead h g) s).head x = if x ∈ hs then g (s.head x) else s.head x := by
  induction hs generalizing s with
  | nil => rfl
  | cons h hs ih =>
    obtain ⟨hh, hrest⟩ := List.nodup_cons.mp hnodup
    rw [List.foldl_cons, ih hrest, modHead_head]
    by_cases hx : x = h
    · subst hx; simp [hh]
    · simp [hx]

theorem headsOf_congr (h : ∀ x, (t.head x).settings = (s.head x).settings) (l : LineId) : t.headsOf l = s.headsOf l := by
  unfold State.headsOf
  simp only [h]

theorem boundTo_frame (s : State) (l : LineId) (n : Slot) :
    boundTo s l n = { s with lines := (boundTo s l n).lines, heads := (boundTo s l n).heads } := by
  unfold boundTo
  dsimp only
  rw [foldl_modHead_frame]
  rfl

/-- The limit counts of the line's heads are cleared (R83). -/
theorem boundTo_head (s : State) (l : LineId) (n : Slot) (h : HeadId) : (boundTo s l n).head h =
    if h ∈ s.headsOf l then { s.head h with limitCount := 0 } else s.head h := by
  unfold boundTo
  dsimp only
  rw [foldl_modHead_head (headsOf_nodup _ _)]
  rfl

end Sys2Proof.Proofs

/-! Pending recipes applied at a cut: write-backs and loads, and then each line's change of bound recipe (R64, R83, R111,
R138). -/

namespace Sys2Proof.Proofs

open Sys2Proof.Machine Sys2Proof.Safety

variable {s t u : State} {l : LineId} {w : Nat} {b : Bool}

/-! ## One line's change of bound recipe -/

theorem notify_knot (s : State) (x : Option LineId) (n : NoticeBody) (y : LineId) : (s.notify x n).knot y = s.knot y := by
  rw [notify_eq]; rfl

theorem notify_spanRec (s : State) (x : Option LineId) (n : NoticeBody) (y : LineId) :
    (s.notify x n).spanRec y = s.spanRec y := by
  rw [notify_eq]; rfl

/-- RECIPE_APPLIED is sent for a line with a pending recipe, with the number its coil carries. -/
def boundTold (s : State) (l : LineId) (w : Nat) (b : Bool) : State :=
  match (s.line l).pendingRecipe with
  | some n => s.notify (some l) (.recipeApplied (s.line l).bound n (s.coilRec l).number w b)
  | none => s

theorem boundTold_of_none (h : (s.line l).pendingRecipe = none) : boundTold s l w b = s := by simp only [boundTold, h]

theorem boundTold_of_some {n : Slot} (h : (s.line l).pendingRecipe = some n) : boundTold s l w b =
    s.notify (some l) (.recipeApplied (s.line l).bound n (s.coilRec l).number w b) := by simp only [boundTold, h]

theorem boundTold_frame (s : State) (l : LineId) (w : Nat) (b : Bool) :
    boundTold s l w b = { s with link := (boundTold s l w b).link } := by
  cases h : (s.line l).pendingRecipe with
  | none => rw [boundTold_of_none h]
  | some n => rw [boundTold_of_some h]; exact notify_eq s _ _

theorem tellsAs_boundTold (h : TellsAs s t) (hline : s.line l = t.line l)
    (hnumber : (s.coilRec l).number = (t.coilRec l).number) : TellsAs (boundTold s l w b) (boundTold t l w b) := by
  cases hn : (t.line l).pendingRecipe with
  | none => rw [boundTold_of_none hn, boundTold_of_none (hline ▸ hn)]; exact h
  | some n =>
    rw [boundTold_of_some hn, boundTold_of_some (hline ▸ hn), hline, hnumber]
    exact h.notify _ _

/-- The notices of several lines, told by states alike. -/
theorem tellsAs_foldl_boundTold {ls : List LineId} {w : LineId → Nat} (h : TellsAs s t)
    (hlines : ∀ y ∈ ls, s.line y = t.line y ∧ (s.coilRec y).number = (t.coilRec y).number) :
    TellsAs (ls.foldl (fun v y => boundTold v y (w y) b) s) (ls.foldl (fun v y => boundTold v y (w y) b) t) := by
  induction ls generalizing s t with
  | nil => exact h
  | cons y ls ih =>
    obtain ⟨hline, hnumber⟩ := hlines y (List.mem_cons_self ..)
    refine ih (tellsAs_boundTold h hline hnumber) fun z hz => ?_
    dsimp only
    rw [boundTold_frame s, boundTold_frame t]
    exact hlines z (List.mem_cons_of_mem _ hz)

/-- The KS and the span list of a line under the pending recipe it is given: at a cut of a NET line the columns above its columns
used are settled, and nothing else changes in the KS (R111). -/
structure BlocksSettled (s t : State) (l : LineId) : Prop where
  kept : (s.line l).kind = .rope ∨ (s.line l).pendingRecipe = none → t.knot l = s.knot l
  cleared : ∀ n r k, (s.line l).kind = .net → (s.line l).pendingRecipe = some n → s.recipe n = some r → r.knot = some k →
    t.knot l = columnsCleared k.columnsUsed (s.knot l)
  closed : ∀ n r k c kind start x, (s.line l).kind = .net → (s.line l).pendingRecipe = some n → s.recipe n = some r →
    r.knot = some k → s.runOpen l = true → c < 64 → k.columnsUsed ≤ c → ((s.knot l).column c).span = some (kind, start) →
    (s.knot l).lastRowCoord = some x →
    (∀ e ∈ (t.spanRec l).spans, e.holds (columnKey c) = false) ∧
    ∀ e ∈ (s.spanRec l).spans, e.holds (columnKey c) = true → e.closed (max x start) ∈ (t.spanRec l).spans
  taken : s.runOpen l = true → ∀ p, TakenAt (s.spanRec l) p → TakenAt (t.spanRec l) p

/-- A line's change of bound recipe. -/
structure Rebinds (s t : State) (l : LineId) (w : Nat) (b : Bool) : Prop where
  frame : t = { s with lines := t.lines, heads := t.heads, knots := t.knots, spanRecs := t.spanRecs, link := t.link }
  line : ∀ y, t.line y = if y = l then rebound (s.line l) else s.line y
  head : ∀ h, t.head h = if h ∈ s.headsOf l ∧ (s.line l).pendingRecipe ≠ none then { s.head h with limitCount := 0 }
    else s.head h
  others : ∀ y, y ≠ l → t.knot y = s.knot y ∧ t.spanRec y = s.spanRec y
  blocks : BlocksSettled s t l
  told : TellsAs t (boundTold s l w b)

theorem settleColumns_frame (s : State) (l : LineId) (used : Nat) : s.settleColumns l used =
    { s with knots := (s.settleColumns l used).knots, spanRecs := (s.settleColumns l used).spanRecs } := by
  have hfold : ∀ cs : List Nat, cs.foldl (settleColumn l used) s =
      { s with spanRecs := (cs.foldl (settleColumn l used) s).spanRecs } := fun cs =>
    foldl_keeps (Q := fun t => t = { s with spanRecs := t.spanRecs }) (fun t c _ ht => by
      rcases settleColumn_cases l used t c with h | ⟨kind, start, x, -, -, h⟩
      · rw [h]; exact ht
      · rw [h, submit_close_frame, ht]) rfl
  rw [settleColumns_eq, hfold]
  rfl

theorem settleColumns_knot (s : State) (l : LineId) (used : Nat) (y : LineId) :
    (s.settleColumns l used).knot y = if y = l then columnsCleared used (s.knot l) else s.knot y := by
  have hknot : ∀ z, ((List.range 64).foldl (settleColumn l used) s).knot z = s.knot z := fun z =>
    foldl_keeps (Q := fun t => t.knot z = s.knot z) (fun t c _ ht => by
      rcases settleColumn_cases l used t c with h | ⟨kind, start, x, -, -, h⟩
      · rw [h]; exact ht
      · rw [h, submit_close_frame]; exact ht) rfl
  rw [settleColumns_eq, modKnot_knot, hknot, hknot]

theorem settleColumns_spanRec_of_ne {y : LineId} (hy : y ≠ l) (s : State) (used : Nat) :
    (s.settleColumns l used).spanRec y = s.spanRec y := by
  rw [settleColumns_eq]
  show ((List.range 64).foldl (settleColumn l used) s).spanRec y = s.spanRec y
  refine foldl_keeps (Q := fun t => t.spanRec y = s.spanRec y) (fun t c _ ht => ?_) rfl
  rcases settleColumn_cases l used t c with h | ⟨kind, start, x, -, -, h⟩
  · rw [h]; exact ht
  · rw [h, submit_spanRec_of_ne _ hy]; exact ht

theorem settleColumns_spanRec (s : State) (l : LineId) (used : Nat) :
    (s.settleColumns l used).spanRec l = ((List.range 64).foldl (settleColumn l used) s).spanRec l := by
  rw [settleColumns_eq]
  rfl

theorem rebound_of_none {r : LineRec} (h : r.pendingRecipe = none) : rebound r = r := by
  obtain ⟨⟩ := r
  simp_all [rebound]

theorem rebound_of_some {r : LineRec} {n : Slot} (h : r.pendingRecipe = some n) :
    rebound r = { r with bound := some n, pendingRecipe := none } := by simp [rebound, h]

theorem boundTo_knotSpec (s : State) (l : LineId) (n : Slot) : (boundTo s l n).knotSpec l = (s.recipe n).bind (·.knot) := by
  have hrecipe : ∀ m, (boundTo s l n).recipe m = s.recipe m := fun m => by rw [boundTo_frame]; rfl
  have hbound : ((boundTo s l n).line l).bound = some n := by rw [boundTo_line, if_pos rfl]
  simp only [State.knotSpec, State.boundRecipe, hbound, Option.bind_some, hrecipe]

theorem boundTo_kind (s : State) (l : LineId) (n : Slot) : ((boundTo s l n).line l).kind = (s.line l).kind := by
  rw [boundTo_line, if_pos rfl]

/-- Without a new specification of columns nothing is settled. -/
theorem bindPending_of_noColumns {n : Slot} (hn : (s.line l).pendingRecipe = some n)
    (h : (s.line l).kind = .rope ∨ (s.recipe n).bind (·.knot) = none) (w : Nat) (b : Bool) : s.bindPending l w b =
      (boundTo s l n).notify (some l) (.recipeApplied (s.line l).bound n (s.coilRec l).number w b) := by
  have hnumber : ((boundTo s l n).coilRec l).number = (s.coilRec l).number := by rw [boundTo_frame]; rfl
  rw [bindPending_eq, hn]
  dsimp only
  rw [boundTo_kind, boundTo_knotSpec]
  rcases h with hkind | hspec
  · rw [hkind]
    dsimp only
    rw [hnumber]
  · rw [hspec]
    cases (s.line l).kind <;> dsimp only <;> rw [hnumber]

theorem bindPending_of_columns {n : Slot} {k : KnotSpec} (hn : (s.line l).pendingRecipe = some n)
    (hkind : (s.line l).kind = .net) (hspec : (s.recipe n).bind (·.knot) = some k) (w : Nat) (b : Bool) :
    s.bindPending l w b = ((boundTo s l n).settleColumns l k.columnsUsed).notify (some l)
      (.recipeApplied (s.line l).bound n (s.coilRec l).number w b) := by
  have hnumber : (((boundTo s l n).settleColumns l k.columnsUsed).coilRec l).number = (s.coilRec l).number := by
    rw [settleColumns_frame, boundTo_frame]; rfl
  rw [bindPending_eq, hn]
  dsimp only
  rw [boundTo_kind, boundTo_knotSpec, hkind, hspec]
  dsimp only
  rw [hnumber]

/-- The settling of the columns of a line bound anew, seen from before. -/
theorem blocksSettled_settleColumns {n : Slot} {k : KnotSpec} (hn : (s.line l).pendingRecipe = some n)
    (hkind : (s.line l).kind = .net) (hspec : (s.recipe n).bind (·.knot) = some k)
    (hknot : t.knot l = ((boundTo s l n).settleColumns l k.columnsUsed).knot l)
    (hspan : t.spanRec l = ((boundTo s l n).settleColumns l k.columnsUsed).spanRec l) : BlocksSettled s t l := by
  have hbefore : ∀ y, (boundTo s l n).knot y = s.knot y ∧ (boundTo s l n).spanRec y = s.spanRec y := fun y => by
    rw [boundTo_frame]; exact ⟨rfl, rfl⟩
  have hrun := boundTo_runOpen s l n l
  have hsame : ∀ m r k', (s.line l).pendingRecipe = some m → s.recipe m = some r → r.knot = some k' → k' = k :=
    fun m r k' hm hr hk => by
      rw [hn] at hm
      cases hm
      rw [hr, Option.bind_some, hk] at hspec
      exact Option.some.inj hspec
  refine ⟨fun h => ?_, fun m r k' _ hm hr hk => ?_, fun m r k' c kind start x _ hm hr hk hopen hc hused hcol hx => ?_,
    fun hopen p hp => ?_⟩
  · rcases h with h | h
    · rw [hkind] at h; cases h
    · rw [hn] at h; cases h
  · rw [hknot, settleColumns_knot, if_pos rfl, (hbefore l).1, hsame m r k' hm hr hk]
  · obtain rfl := hsame m r k' hm hr hk
    rw [hspan, settleColumns_spanRec]
    have hcolumn := foldl_settleColumn_column (hrun.trans hopen) hc hused (by rw [(hbefore l).1]; exact hcol)
      (by rw [(hbefore l).1]; exact hx)
    rwa [(hbefore l).2] at hcolumn
  · rw [hspan, settleColumns_spanRec]
    exact (foldl_settleColumn_closing (hrun.trans hopen) _).takenAt (by rw [(hbefore l).2]; exact hp)

theorem blocksSettled_of_same (hknot : t.knot l = s.knot l) (hspan : t.spanRec l = s.spanRec l)
    (hnone : (s.line l).kind = .net → ∀ n r k, (s.line l).pendingRecipe = some n → s.recipe n = some r → r.knot ≠ some k) :
    BlocksSettled s t l :=
  ⟨fun _ => hknot, fun n r k hkind hn hr hk => absurd hk (hnone hkind n r k hn hr),
    fun n r k _ _ _ _ hkind hn hr hk => absurd hk (hnone hkind n r k hn hr), fun _ p hp => by rwa [hspan]⟩

theorem bindPending_rebinds (s : State) (l : LineId) (w : Nat) (b : Bool) : Rebinds s (s.bindPending l w b) l w b := by
  cases hn : (s.line l).pendingRecipe with
  | none =>
    rw [bindPending_of_none hn]
    refine ⟨rfl, fun y => ?_, fun h => by simp [hn], fun _ _ => ⟨rfl, rfl⟩,
      blocksSettled_of_same rfl rfl (fun _ n r k h => by rw [hn] at h; cases h),
      by rw [boundTold_of_none hn]; exact .refl s⟩
    split
    · rename_i hy; rw [rebound_of_none hn, hy]
    · rfl
  | some n =>
    have hline : ∀ y, (boundTo s l n).line y = if y = l then rebound (s.line l) else s.line y := fun y => by
      rw [boundTo_line, rebound_of_some hn]
    have hhead : ∀ h, (boundTo s l n).head h = if h ∈ s.headsOf l ∧ (s.line l).pendingRecipe ≠ none then
        { s.head h with limitCount := 0 } else s.head h := fun h => by
      rw [boundTo_head]; simp [hn]
    have htells : TellsAs (boundTo s l n) s := ⟨by rw [boundTo_frame], by rw [boundTo_frame]; rfl⟩
    by_cases hcolumns : (s.line l).kind = .rope ∨ (s.recipe n).bind (·.knot) = none
    · rw [bindPending_of_noColumns hn hcolumns]
      have hrest : ∀ y, (boundTo s l n).knot y = s.knot y ∧ (boundTo s l n).spanRec y = s.spanRec y := fun y => by
        rw [boundTo_frame]; exact ⟨rfl, rfl⟩
      refine ⟨by rw [notify_eq, boundTo_frame], fun y => by rw [notify_eq]; exact hline y,
        fun h => by rw [notify_eq]; exact hhead h, fun y _ => by rw [notify_eq]; exact hrest y,
        blocksSettled_of_same (by rw [notify_eq]; exact (hrest l).1) (by rw [notify_eq]; exact (hrest l).2)
          fun hnet m r k hm hr hk => ?_, by rw [boundTold_of_some hn]; exact htells.notify _ _⟩
      rw [hn] at hm
      cases hm
      rcases hcolumns with h | h
      · rw [h] at hnet; cases hnet
      · rw [hr, Option.bind_some, hk] at h; cases h
    · obtain ⟨hnet, hsome⟩ := not_or.mp hcolumns
      have hkind : (s.line l).kind = .net := by cases hk : (s.line l).kind with
        | rope => exact absurd hk hnet
        | net => rfl
      obtain ⟨k, hspec⟩ := Option.ne_none_iff_exists'.mp hsome
      rw [bindPending_of_columns hn hkind hspec]
      have htells' : TellsAs ((boundTo s l n).settleColumns l k.columnsUsed) s :=
        ⟨by rw [settleColumns_frame, boundTo_frame], by rw [settleColumns_frame, boundTo_frame]; rfl⟩
      refine ⟨by rw [notify_eq, settleColumns_frame, boundTo_frame],
        fun y => by rw [notify_eq, settleColumns_frame]; exact hline y,
        fun h => by rw [notify_eq, settleColumns_frame]; exact hhead h, fun y hy => ?_,
        blocksSettled_settleColumns hn hkind hspec (by rw [notify_knot]) (by rw [notify_spanRec]),
        by rw [boundTold_of_some hn]; exact htells'.notify _ _⟩
      rw [notify_knot, notify_spanRec]
      refine ⟨(settleColumns_knot _ l _ y).trans ?_, (settleColumns_spanRec_of_ne hy _ _).trans ?_⟩
      · rw [if_neg hy, boundTo_frame]; rfl
      · rw [boundTo_frame]; rfl

end Sys2Proof.Proofs

/-! Step 7 of a cut, for the lines of the cut together (R64, R69, R83, R111, R138). -/

namespace Sys2Proof.Proofs

open Sys2Proof.Machine Sys2Proof.Safety

variable {s t u : State} {l : LineId} {ls : List LineId} {w : LineId → Nat} {b : Bool}

/-! ## Several lines bound anew -/

/-- The settling of a line's blocks depends on the state before through the line, its blocks and the slots' columns. -/
theorem BlocksSettled.of_before (h : BlocksSettled u t l) (hline : u.line l = s.line l) (hknot : u.knot l = s.knot l)
    (hspan : u.spanRec l = s.spanRec l)
    (hrecipe : ∀ n r, s.recipe n = some r → ∃ q, u.recipe n = some q ∧ q.knot = r.knot) : BlocksSettled s t l := by
  have hrun : u.runOpen l = s.runOpen l := by simp only [State.runOpen, hline]
  obtain ⟨kept, cleared, closed, taken⟩ := h
  rw [hline, hknot] at kept
  rw [hline, hknot] at cleared
  rw [hline, hknot, hspan, hrun] at closed
  rw [hspan, hrun] at taken
  refine ⟨kept, fun n r k hkind hn hr hk => ?_, fun n r k c kind start x hkind hn hr hk => ?_, taken⟩
  · obtain ⟨q, hq, hqk⟩ := hrecipe n r hr
    exact cleared n q k hkind hn hq (hqk.trans hk)
  · obtain ⟨q, hq, hqk⟩ := hrecipe n r hr
    exact closed n q k c kind start x hkind hn hq (hqk.trans hk)

theorem BlocksSettled.of_after (h : BlocksSettled s t l) (hknot : u.knot l = t.knot l) (hspan : u.spanRec l = t.spanRec l) :
    BlocksSettled s u l := by
  obtain ⟨kept, cleared, closed, taken⟩ := h
  exact ⟨fun a => hknot.trans (kept a), fun n r k a b c d => hknot.trans (cleared n r k a b c d),
    fun n r k c kind start x => by rw [hspan]; exact closed n r k c kind start x, fun a p hp => by rw [hspan]; exact taken a p hp⟩

/-- The changes of bound recipe of several lines, one after another. -/
structure AllRebind (s t : State) (ls : List LineId) (w : LineId → Nat) (b : Bool) : Prop where
  frame : t = { s with lines := t.lines, heads := t.heads, knots := t.knots, spanRecs := t.spanRecs, link := t.link }
  line : ∀ y, t.line y = if y ∈ ls then rebound (s.line y) else s.line y
  head : ∀ h, t.head h = if ∃ y ∈ ls, h ∈ s.headsOf y ∧ (s.line y).pendingRecipe ≠ none then { s.head h with limitCount := 0 }
    else s.head h
  others : ∀ y, y ∉ ls → t.knot y = s.knot y ∧ t.spanRec y = s.spanRec y
  blocks : ∀ y ∈ ls, BlocksSettled s t y
  told : TellsAs t (ls.foldl (fun v y => boundTold v y (w y) b) s)

theorem mem_headsOf_rebinds {n : Nat} (h : Rebinds s t l n b) (y : LineId) : t.headsOf y = s.headsOf y :=
  headsOf_congr (fun x => by rw [h.head]; split <;> rfl) y

theorem bindPending_allRebind (hnodup : ls.Nodup) (s : State) (w : LineId → Nat) (b : Bool) :
    AllRebind s (ls.foldl (fun s l => s.bindPending l (w l) b) s) ls w b := by
  induction ls generalizing s with
  | nil =>
    exact ⟨rfl, fun _ => rfl, fun h => by simp, fun _ _ => ⟨rfl, rfl⟩, nofun, .refl s⟩
  | cons y ls ih =>
    obtain ⟨hy, hls⟩ := List.nodup_cons.mp hnodup
    have hfirst := bindPending_rebinds s y (w y) b
    have hrest := ih hls (s.bindPending y (w y) b)
    rw [List.foldl_cons]
    generalize s.bindPending y (w y) b = v at hfirst hrest
    generalize ls.foldl (fun s l => s.bindPending l (w l) b) v = t at hrest
    have hne : ∀ z ∈ ls, z ≠ y := fun z hz e => hy (e ▸ hz)
    have hlines : ∀ z ∈ ls, v.line z = s.line z := fun z hz => by
      rw [hfirst.line, if_neg (hne z hz)]
    have hrecipe : ∀ n, v.recipe n = s.recipe n := fun n => by rw [hfirst.frame]; rfl
    refine ⟨by rw [hrest.frame, hfirst.frame], fun z => ?_, fun h => ?_, fun z hz => ?_, fun z hz => ?_, ?_⟩
    · rw [hrest.line, hfirst.line]
      by_cases hzy : z = y
      · subst hzy; simp [hy]
      · simp [hzy]
    · rw [hrest.head]
      simp only [mem_headsOf_rebinds hfirst]
      have hlater : (∃ z ∈ ls, h ∈ s.headsOf z ∧ (v.line z).pendingRecipe ≠ none) ↔
          ∃ z ∈ ls, h ∈ s.headsOf z ∧ (s.line z).pendingRecipe ≠ none :=
        exists_congr fun z => and_congr_right fun hz => by rw [hlines z hz]
      rw [hfirst.head]
      simp only [hlater, List.mem_cons, exists_eq_or_imp]
      by_cases hthis : h ∈ s.headsOf y ∧ (s.line y).pendingRecipe ≠ none
      · simp only [hthis, true_or, if_true, ite_self, ne_eq, not_false_eq_true, and_self]
      · simp only [hthis, false_or, if_false]
    · obtain ⟨hzy, hzls⟩ := not_or.mp (mt List.mem_cons.mpr hz)
      obtain ⟨hknot, hspan⟩ := hrest.others z hzls
      obtain ⟨hknot', hspan'⟩ := hfirst.others z hzy
      exact ⟨hknot.trans hknot', hspan.trans hspan'⟩
    · rcases List.mem_cons.mp hz with rfl | hzls
      · obtain ⟨hknot, hspan⟩ := hrest.others z hy
        exact hfirst.blocks.of_after hknot hspan
      · obtain ⟨hknot, hspan⟩ := hfirst.others z (hne z hzls)
        exact (hrest.blocks z hzls).of_before (hlines z hzls) hknot hspan
          fun n r hr => ⟨r, (hrecipe n).trans hr, rfl⟩
    · refine hrest.told.trans (tellsAs_foldl_boundTold hfirst.told fun z hz => ?_)
      dsimp only
      rw [boundTold_frame s]
      exact ⟨hlines z hz, by rw [hfirst.frame]; rfl⟩

/-! ## The pending recipes applied -/

theorem pendingTarget_iff {h : HeadId} {n : Slot} : s.pendingTarget ls h = some n ↔ PendingLoads s ls h n := by
  unfold State.pendingTarget PendingLoads
  cases hu : (s.head h).settings with
  | none => simp
  | some v =>
    by_cases hv : v.line ∈ ls
    · simp [hv]
    · simp [hv]

theorem pendingLoads_mem (h : HeadId) (n : Slot) : PendingLoads s ls h n ↔
    h ∈ allHeads.filter (fun h => (s.pendingTarget ls h).isSome) ∧ s.pendingTarget ls h = some n := by
  rw [← pendingTarget_iff, List.mem_filter]
  exact ⟨fun hn => ⟨⟨List.mem_finRange h, by rw [hn]; rfl⟩, hn⟩, fun hn => hn.2⟩

/-- The pending recipes of the lines of a list applied, with the number of copies written back for each line. -/
structure PendingApplied (s t : State) (ls : List LineId) (w : LineId → Nat) : Prop where
  frame : t = { s with
    slots := t.slots, copies := t.copies, lines := t.lines, heads := t.heads, knots := t.knots, spanRecs := t.spanRecs
    link := t.link }
  reloaded : Reloaded s t (PendingLoads s ls)
  line : ∀ y, t.line y = if y ∈ ls then rebound (s.line y) else s.line y
  loadedHeads : ∀ h n, PendingLoads s ls h n → t.head h = { s.head h with trim := (t.head h).trim, limitCount := 0 }
  otherHeads : ∀ h, (∀ n, ¬PendingLoads s ls h n) → t.head h = s.head h
  others : ∀ y, y ∉ ls → t.knot y = s.knot y ∧ t.spanRec y = s.spanRec y
  blocks : ∀ y ∈ ls, BlocksSettled s t y
  told : TellsAs t (ls.foldl (fun v y => boundTold v y (w y) false) s)

/-- The number of copies written back for a line (R70). -/
def writtenFor (s : State) (ls : List LineId) (l : LineId) : Nat := (s.evicted (s.pendingTarget ls) (s.headsOf l)).length

theorem evictAndLoad_blocks (s : State) (target : HeadId → Option Slot) (hs : List HeadId) (y : LineId) :
    (s.evictAndLoad target hs).line y = s.line y ∧ (s.evictAndLoad target hs).knot y = s.knot y ∧
      (s.evictAndLoad target hs).spanRec y = s.spanRec y := by
  rw [evictAndLoad_frame]
  exact ⟨rfl, rfl, rfl⟩

/-- The lines with a pending recipe that a head is to be loaded for. -/
theorem exists_headsOf_iff {h : HeadId} : (∃ y ∈ ls, h ∈ s.headsOf y ∧ (s.line y).pendingRecipe ≠ none) ↔
    ∃ n, PendingLoads s ls h n := by
  constructor
  · rintro ⟨y, hy, hh, hpending⟩
    obtain ⟨v, hv, rfl⟩ := mem_headsOf_iff_assigned.mp hh
    obtain ⟨n, hn⟩ := Option.ne_none_iff_exists'.mp hpending
    exact ⟨n, v, hv, hy, hn⟩
  · rintro ⟨n, v, hv, hy, hn⟩
    exact ⟨v.line, hy, mem_headsOf_iff_assigned.mpr ⟨v, hv, rfl⟩, by simp [hn]⟩

theorem applyPending_applied (hnodup : ls.Nodup) (s : State) :
    PendingApplied s (s.applyPending ls) ls (writtenFor s ls) := by
  have hframe := evictAndLoad_frame s (s.pendingTarget ls) (allHeads.filter fun h => (s.pendingTarget ls h).isSome)
  have hload := reloaded_evictAndLoad (s := s) (target := s.pendingTarget ls)
    (hs := allHeads.filter fun h => (s.pendingTarget ls h).isSome) ((List.pairwise_lt_finRange 16).filter _)
    (loads := PendingLoads s ls) pendingLoads_mem
  have hhead := evictAndLoad_head s (s.pendingTarget ls) (allHeads.filter fun h => (s.pendingTarget ls h).isSome)
  have hblocks := evictAndLoad_blocks s (s.pendingTarget ls) (allHeads.filter fun h => (s.pendingTarget ls h).isSome)
  have happly : s.applyPending ls = ls.foldl (fun v y => v.bindPending y (writtenFor s ls y) false)
    (s.evictAndLoad (s.pendingTarget ls) (allHeads.filter fun h => (s.pendingTarget ls h).isSome)) := rfl
  rw [happly]
  generalize s.evictAndLoad (s.pendingTarget ls) (allHeads.filter fun h => (s.pendingTarget ls h).isSome) = v at *
  have hbound := bindPending_allRebind hnodup v (writtenFor s ls) false
  generalize ls.foldl (fun v y => v.bindPending y (writtenFor s ls y) false) v = t at hbound
  have hheadsOf : ∀ y, v.headsOf y = s.headsOf y := headsOf_congr fun x => by rw [hhead]
  have hloads : ∀ h, (∃ y ∈ ls, h ∈ v.headsOf y ∧ (v.line y).pendingRecipe ≠ none) ↔ ∃ n, PendingLoads s ls h n := fun h => by
    rw [← exists_headsOf_iff]
    simp only [hheadsOf, (hblocks _).1]
  have hsame : CopiesSame v t := by
    refine ⟨by rw [hbound.frame], by rw [hbound.frame], fun h => ?_, fun h => ?_⟩
    · rw [hbound.head]; split <;> rfl
    · rw [hbound.head]; split <;> rfl
  refine ⟨by rw [hbound.frame, hframe], (CopiesSame.refl s).reloaded hsame hload, fun y => ?_, fun h n hn => ?_,
    fun h hno => ?_, fun y hy => ?_, fun y hy => ?_, ?_⟩
  · rw [hbound.line, (hblocks y).1]
  · rw [hbound.head, if_pos ((hloads h).mpr ⟨n, hn⟩), hhead]
  · have htrim := hload.trims h hno
    rw [hbound.head, if_neg fun e => (hloads h).mp e |>.elim hno, hhead, htrim]
  · obtain ⟨hknot, hspan⟩ := hbound.others y hy
    exact ⟨hknot.trans (hblocks y).2.1, hspan.trans (hblocks y).2.2⟩
  · obtain ⟨hline, hknot, hspan⟩ := hblocks y
    refine (hbound.blocks y hy).of_before hline hknot hspan fun n r hr => ?_
    obtain ⟨q, hq, hfields, -⟩ := (hload.slots n).2 r hr
    exact ⟨q, hq, by rw [hfields]⟩
  · refine hbound.told.trans (tellsAs_foldl_boundTold ⟨by rw [hframe], by rw [hframe]; rfl⟩ fun z _ => ⟨(hblocks z).1, ?_⟩)
    rw [hframe]
    rfl

/-- The number of write-backs for a line (R64, R69). -/
theorem writesBack_writtenFor (s : State) (ls : List LineId) (l : LineId) : WritesBack s ls l (writtenFor s ls l) := by
  intro hlaw
  refine ⟨s.evicted (s.pendingTarget ls) (s.headsOf l), (headsOf_nodup s l).filter _, fun h => ?_, rfl⟩
  have hslot : (s.copy h).state = .dirty → ∃ m, (s.copy h).slot = some m := fun hdirty => by
    obtain ⟨m, -, hm, -⟩ := hlaw h (by rw [hdirty]; nofun)
    exact ⟨m, hm⟩
  rw [mem_evicted, mem_headsOf_iff_assigned]
  refine and_congr_right fun _ => ⟨?_, ?_⟩
  · rintro ⟨n, hn, hdirty, hne⟩
    obtain ⟨m, hm⟩ := hslot hdirty
    exact ⟨m, hdirty, hm, n, pendingTarget_iff.mp hn, fun e => hne (hm.trans (congrArg some e.symm))⟩
  · rintro ⟨m, hdirty, hm, n, hn, hne⟩
    exact ⟨n, pendingTarget_iff.mpr hn, hdirty, fun e => hne (Option.some.inj (e.symm.trans hm))⟩

end Sys2Proof.Proofs

/-! Steps 6, 8 and 9 of a cut: the next coils, their mark targets, CUT_HELD removed, and COIL_CUT (R128, R133, R134, R143). -/

namespace Sys2Proof.Proofs

open Sys2Proof.Machine Sys2Proof.Safety

variable {s t u : State} {l : LineId} {ls : List LineId}

/-! ## CUT_HELD removed -/

theorem removeCutHeld_eq (s : State) (l : LineId) : s.removeCutHeld l = s.modLine l withoutCutHeld := by
  unfold State.removeCutHeld
  split
  · rename_i h
    have hline : (s.modLine l fun r => { r with
        causes := r.causes.drop .cutHeld
        state := if r.state = .stopRequested ∧ r.causes.drop .cutHeld = .empty then .running else r.state }) =
        s.modLine l withoutCutHeld := modLine_congr (by rw [withoutCutHeld, if_pos h])
    exact hline
  · rename_i h
    have hsame : withoutCutHeld (s.line l) = s.line l := if_neg h
    show s = { s with lines := s.lines.set l (withoutCutHeld (s.line l)) }
    rw [hsame]
    have hset : s.lines.set l (s.line l) = s.lines := PerLine.ext_get fun x => by
      rw [PerLine.get_set]
      split
      · rename_i hx; rw [hx]; rfl
      · rfl
    rw [hset]

theorem withoutCutHeld_idem (r : LineRec) : withoutCutHeld (withoutCutHeld r) = withoutCutHeld r := by
  by_cases h : r.causes.cutHeld = true
  · have hgone : (withoutCutHeld r).causes.cutHeld = false := by rw [withoutCutHeld, if_pos h]; rfl
    exact if_neg (by rw [hgone]; nofun)
  · have hsame : withoutCutHeld r = r := if_neg h
    rw [hsame, hsame]

theorem withoutCutHeld_fields (r : LineRec) : (withoutCutHeld r).cfg = r.cfg ∧ (withoutCutHeld r).bound = r.bound ∧
    (withoutCutHeld r).pendingRecipe = r.pendingRecipe ∧ (withoutCutHeld r).kind = r.kind := by
  unfold withoutCutHeld
  split
  · exact ⟨rfl, rfl, rfl, rfl⟩
  · exact ⟨rfl, rfl, rfl, rfl⟩

theorem withoutCutHeld_idle_iff (r : LineRec) : (withoutCutHeld r).state = .idle ↔ r.state = .idle := by
  unfold withoutCutHeld
  split
  · dsimp only
    split
    · rename_i h; rw [h.1]; exact ⟨nofun, nofun⟩
    · rfl
  · rfl

/-- The line names of the leaders decide who follows whom. -/
theorem follower_congr (h : ∀ y, (t.line y).cfg.leader = (s.line y).cfg.leader) (l : LineId) : t.follower l = s.follower l := by
  unfold State.follower
  simp only [h]

/-- A line whose CUT_HELD a cut of `l` removes: the line itself, and its follower with the paired hold (R133, R134). -/
def Releases (s : State) (l y : LineId) : Prop := y = l ∨ (s.follower l = some y ∧ (s.coilRec y).pairedHold = true)

/-- CUT_HELD gone from a line and from its follower with the paired hold. -/
structure PairReleased (s t : State) (l : LineId) : Prop where
  frame : t = { s with lines := t.lines, coils := t.coils }
  released : ∀ y, Releases s l y → t.line y = withoutCutHeld (s.line y)
  otherLine : ∀ y, ¬Releases s l y → t.line y = s.line y
  paired : ∀ y, s.follower l = some y → t.coilRec y = { s.coilRec y with pairedHold := false }
  otherCoil : ∀ y, s.follower l ≠ some y → t.coilRec y = s.coilRec y

theorem coilRec_notPaired {k : CoilRec} (h : k.pairedHold = false) : { k with pairedHold := false } = k := by
  obtain ⟨⟩ := k
  simp_all

theorem pairReleased_releasePair (s : State) (l : LineId) : PairReleased s (s.releasePair l) l := by
  have hline : ∀ y, (s.removeCutHeld l).line y = if y = l then withoutCutHeld (s.line l) else s.line y := fun y => by
    rw [removeCutHeld_eq, modLine_line]
  have hfollower : (s.removeCutHeld l).follower l = s.follower l := follower_congr (fun y => by
    rw [hline]
    split
    · rename_i h; rw [h, (withoutCutHeld_fields _).1]
    · rfl) l
  have hcoil : ∀ y, (s.removeCutHeld l).coilRec y = s.coilRec y := fun y => by rw [removeCutHeld_eq]; rfl
  -- where no follower is released with the line
  have hnotPaired : (∀ f, s.follower l = some f → (s.coilRec f).pairedHold = false) → s.releasePair l = s.removeCutHeld l →
      PairReleased s (s.releasePair l) l := by
    intro hnot hsame
    have hiff : ∀ y, Releases s l y ↔ y = l := fun y =>
      ⟨fun h => h.elim id (fun ⟨hy, hp⟩ => by rw [hnot y hy] at hp; cases hp), .inl⟩
    rw [hsame]
    refine ⟨by rw [removeCutHeld_eq]; rfl, fun y hy => ?_, fun y hy => ?_, fun y hy => ?_, fun y _ => hcoil y⟩
    · rw [hline, if_pos ((hiff y).mp hy), (hiff y).mp hy]
    · rw [hline, if_neg fun e => hy ((hiff y).mpr e)]
    · rw [hcoil, coilRec_notPaired (hnot y hy)]
  cases hf : s.follower l with
  | none =>
    refine hnotPaired (fun f h => by rw [hf] at h; cases h) ?_
    simp only [State.releasePair, hfollower, hf]
  | some f =>
    cases hp : (s.coilRec f).pairedHold with
    | false =>
      refine hnotPaired (fun g hg => by rw [hf] at hg; cases hg; exact hp) ?_
      simp only [State.releasePair, hfollower, hf, hcoil, hp, Bool.false_eq_true, if_false]
    | true =>
      have hsame : s.releasePair l =
          ((s.removeCutHeld l).removeCutHeld f).modCoil f fun k => { k with pairedHold := false } := by
        simp only [State.releasePair, hfollower, hf, hcoil, hp, if_true]
      have hline' : ∀ y, (s.releasePair l).line y =
          if y = f then withoutCutHeld ((s.removeCutHeld l).line f) else (s.removeCutHeld l).line y := fun y => by
        rw [hsame, removeCutHeld_eq (s.removeCutHeld l)]
        exact modLine_line (s.removeCutHeld l) f withoutCutHeld y
      have hcoil' : ∀ y, (s.releasePair l).coilRec y =
          if y = f then { s.coilRec f with pairedHold := false } else s.coilRec y := fun y => by
        have hbefore : ∀ z, ((s.removeCutHeld l).removeCutHeld f).coilRec z = s.coilRec z := fun z => by
          rw [removeCutHeld_eq]; exact hcoil z
        rw [hsame, modCoil_coilRec, hbefore, hbefore]
      refine ⟨by rw [hsame, removeCutHeld_eq, removeCutHeld_eq]; rfl, fun y hy => ?_, fun y hy => ?_, fun y hy => ?_,
        fun y hy => ?_⟩
      · rw [hline']
        by_cases hyf : y = f
        · rw [if_pos hyf, hline, hyf]
          split
          · rename_i hfl; rw [hfl, withoutCutHeld_idem]
          · rfl
        · have hyl : y = l := hy.resolve_right fun h => hyf (Option.some.inj (h.1.symm.trans hf))
          rw [if_neg hyf, hline, if_pos hyl, hyl]
      · obtain ⟨hyl, hyf⟩ := not_or.mp hy
        have hne : y ≠ f := fun e => hyf ⟨e ▸ hf, e ▸ hp⟩
        rw [hline', if_neg hne, hline, if_neg hyl]
      · obtain rfl : f = y := Option.some.inj (hf.symm.trans hy)
        rw [hcoil', if_pos rfl]
      · have hne : y ≠ f := fun e => hy (e ▸ hf)
        rw [hcoil', if_neg hne]

/-! ## The next coil -/

theorem nextNumber_eq (n : Nat) : nextNumber n = numberAfter n := by
  unfold nextNumber numberAfter
  split
  · rw [if_neg (by omega)]
  · rw [if_pos (by omega)]

theorem markTargetFrom_eq (start : Nat) (r : Option Recipe) : markTargetFrom start r = r.bind (firstMark start) := by
  cases r with
  | none => rfl
  | some r => rfl

/-- The coil record after step 6 (R128, R134). -/
def coilOpened (p : Nat) (k : CoilRec) : CoilRec :=
  { k with
    number := nextNumber k.number
    coil := k.coil.map fun c => { c with start := p, marks := 0, suppressed := 0 }
    stage := .none }

/-- The next coils of the lines of a list opened. -/
structure CoilsOpened (s t : State) (ls : List LineId) : Prop where
  frame : t = { s with coils := t.coils }
  coilRec : ∀ y, t.coilRec y = if y ∈ ls then coilOpened (s.pos y).position (s.coilRec y) else s.coilRec y

theorem coilsOpened_foldl (hnodup : ls.Nodup) (s : State) : CoilsOpened s (ls.foldl State.openNextCoil s) ls := by
  have hlines := foldl_lines (s := s) (ls := ls) (get := State.coilRec) (op := State.openNextCoil)
    (g := fun y => coilOpened (s.pos y).position) (P := fun t => t = { s with coils := t.coils })
    (fun t y ht => by rw [ht]; rfl)
    (fun t y z ht => by
      have hpos : t.pos y = s.pos y := by rw [ht]; rfl
      unfold State.openNextCoil
      rw [modCoil_coilRec, hpos]
      rfl) hnodup rfl
  exact ⟨hlines.1, hlines.2⟩

/-- The coil record after step 8: the recipe slot then bound. -/
def coilBound (bound : Option Slot) (k : CoilRec) : CoilRec :=
  { k with coil := k.coil.map fun c => { c with slot := bound.getD c.slot } }

/-- The mark target of the coil that a coil record holds. -/
def markOf (s : State) (k : CoilRec) : Option Nat := k.coil.bind fun c => (s.recipe c.slot).bind (firstMark c.start)

/-- The coils of the lines of a list have their slots and mark targets. -/
structure CoilsSettled (s t : State) (ls : List LineId) : Prop where
  frame : t = { s with coils := t.coils, positions := t.positions }
  coilRec : ∀ y, t.coilRec y = if y ∈ ls then coilBound (s.line y).bound (s.coilRec y) else s.coilRec y
  pos : ∀ y, y ∈ ls → (s.coilRec y).coil ≠ none →
    t.pos y = { s.pos y with markTarget := markOf s (coilBound (s.line y).bound (s.coilRec y)) }
  otherPos : ∀ y, y ∉ ls → t.pos y = s.pos y

/-- What `settleCoil` makes of a coil record and a position record. -/
def settledCoil (s : State) (y : LineId) (x : CoilRec × PositionRec) : CoilRec × PositionRec :=
  let coil := (coilBound (s.line y).bound x.1).coil
  (coilBound (s.line y).bound x.1,
    { x.2 with markTarget := markTargetFrom ((coil.map (·.start)).getD 0) (coil.bind fun c => s.recipe c.slot) })

theorem coilStart_eq (s : State) (l : LineId) : s.coilStart l = ((s.coilRec l).coil.map (·.start)).getD 0 := by
  unfold State.coilStart
  cases (s.coilRec l).coil <;> rfl

theorem coilsSettled_foldl (hnodup : ls.Nodup) (s : State) : CoilsSettled s (ls.foldl State.settleCoil s) ls := by
  have hlines := foldl_lines (s := s) (ls := ls) (get := fun t y => (t.coilRec y, t.pos y)) (op := State.settleCoil)
    (g := settledCoil s) (P := fun t => t = { s with coils := t.coils, positions := t.positions })
    (fun t y ht => by rw [ht]; rfl)
    (fun t y z ht => by
      have hline : t.line y = s.line y := by rw [ht]; rfl
      have hrecipe : ∀ n, t.recipe n = s.recipe n := fun n => by rw [ht]; rfl
      by_cases hz : z = y
      · subst hz
        rw [if_pos rfl]
        have hbind : ∀ o : Option OpenCoil, (o.bind fun c => s.recipe c.slot) = o.bind fun c => t.recipe c.slot := fun o => by
          simp only [hrecipe]
        unfold settledCoil State.settleCoil
        simp only [← hline, hbind, modPos_coilRec, modCoil_coilRec_self, modPos_pos_self, modCoil_pos, coilStart_eq,
          State.coilRecipe, modCoil_recipe]
        rfl
      · rw [if_neg hz]
        unfold State.settleCoil
        simp only [modPos_coilRec, modCoil_coilRec, modPos_pos, if_neg hz, modCoil_pos]) hnodup rfl
  obtain ⟨hframe, hget⟩ := hlines
  refine ⟨hframe, fun y => ?_, fun y hy hcoil => ?_, fun y hy => ?_⟩
  · have := congrArg Prod.fst (hget y)
    split at this
    · rename_i hy; rw [if_pos hy]; exact this
    · rename_i hy; rw [if_neg hy]; exact this
  · have := congrArg Prod.snd (hget y)
    rw [if_pos hy] at this
    obtain ⟨c, hc⟩ := Option.ne_none_iff_exists'.mp hcoil
    refine this.trans ?_
    simp only [settledCoil, markTargetFrom_eq, markOf, coilBound, hc, Option.map_some, Option.bind_some,
      Option.getD_some]
  · have := congrArg Prod.snd (hget y)
    rw [if_neg hy] at this
    exact this

/-! ## COIL_CUT -/

theorem notifyCut_of_last {x : CoilRecord} {q : List CoilRecord} (h : (s.lane l).queue = q ++ [x]) : s.notifyCut l =
    s.notify (some l) (.coilCut x.number x.start x.stop x.length x.flags x.partner (q.length + 1)) := by
  unfold State.notifyCut
  rw [h, List.getLast?_concat, List.length_append]
  rfl

theorem notify_lane (s : State) (x : Option LineId) (n : NoticeBody) (y : LineId) : (s.notify x n).lane y = s.lane y := by
  rw [notify_eq]; rfl

/-- COIL_CUT is sent for the last record of each lane queue, in the order of the lines. -/
theorem tellsAs_notifyCut {x : LineId → CoilRecord} (h : TellsAs s t)
    (hqueue : ∀ y ∈ ls, (s.lane y).queue = (t.lane y).queue ++ [x y]) :
    TellsAs (ls.foldl State.notifyCut s) (ls.foldl (fun v y => cutTold v y (x y)) t) := by
  induction ls generalizing s t with
  | nil => exact h
  | cons y ls ih =>
    have hy := hqueue y (List.mem_cons_self ..)
    rw [List.foldl_cons, List.foldl_cons, notifyCut_of_last hy]
    refine ih (h.notify _ _) fun z hz => ?_
    rw [cutTold, notify_lane, notify_lane]
    exact hqueue z (List.mem_cons_of_mem _ hz)

theorem notifyCut_frame (s : State) (l : LineId) : s.notifyCut l = { s with link := (s.notifyCut l).link } := by
  unfold State.notifyCut
  cases (s.lane l).queue.getLast? with
  | none => rfl
  | some r => exact notify_eq s _ _

theorem foldl_notifyCut_frame (ls : List LineId) (s : State) :
    ls.foldl State.notifyCut s = { s with link := (ls.foldl State.notifyCut s).link } :=
  foldl_keeps (Q := fun t => t = { s with link := t.link }) (fun t y _ ht => by rw [notifyCut_frame, ht]) rfl

end Sys2Proof.Proofs

/-! A cut that is not a run's last, for the lines it closes together (R134, R138). -/

namespace Sys2Proof.Proofs

open Sys2Proof.Machine Sys2Proof.Safety

variable {s t u : State} {l : LineId} {ls : List LineId} {x : LineId → CoilRecord} {w : LineId → Nat}

/-- What a cut of the lines of a list leaves, the cut being that of `l` (R134 steps 6 to 9). -/
structure CutDone (s t : State) (ls : List LineId) (l : LineId) (x : LineId → CoilRecord) (w : LineId → Nat) : Prop where
  frame : t = { s with
    coils := t.coils, spanRecs := t.spanRecs, lanes := t.lanes, slots := t.slots, copies := t.copies, lines := t.lines
    heads := t.heads, knots := t.knots, link := t.link, positions := t.positions, pack := t.pack }
  granted : QueuedAndGranted s t fun y => if y ∈ ls then [x y] else []
  released : ∀ y, Releases s l y → t.line y = withoutCutHeld (if y ∈ ls then rebound (s.line y) else s.line y)
  otherLine : ∀ y, ¬Releases s l y → t.line y = if y ∈ ls then rebound (s.line y) else s.line y
  nextCoil : ∀ y ∈ ls, ∀ c, (s.coilRec y).coil = some c →
    NextCoil s t y c (if s.follower l = some y then false else (s.coilRec y).pairedHold)
  paired : ∀ y, y ∉ ls → s.follower l = some y → t.coilRec y = { s.coilRec y with pairedHold := false }
  otherCoil : ∀ y, y ∉ ls → s.follower l ≠ some y → t.coilRec y = s.coilRec y
  others : ∀ y, y ∉ ls → t.pos y = s.pos y ∧ t.spanRec y = s.spanRec y
  taken : ∀ y ∈ ls, TakenAt (t.spanRec y) (s.pos y).position
  applied : RecipesApplied s t ls
  written : ∀ y ∈ ls, WritesBack s ls y (w y)
  told : TellsAs t (ls.foldl (fun v y => cutTold v y (x y)) (ls.foldl (fun v y => appliedTold v y (w y)) s))

/-! ## The columns settled, seen from before the cut -/

/-- A span open at the cut goes on above it (R121). -/
theorem carried_mem_afterTake {r : SpanRec} {p : Nat} {e : SpanEntry} (he : e ∈ r.spans) (hopen : e.isOpen = true) :
    ∃ e' ∈ (r.afterTake p).spans, e'.isOpen = true ∧ e'.source = e.source ∧ e'.kind = e.kind ∧
      ∀ stop, e'.closed stop = { e with
        start := max e.start p
        carried := e.carried || decide (e.start < p)
        stop := some (max stop (max e.start p))
        isOpen := false } := by
  have hmem : ∀ e', e.restAt p = some e' → e' ∈ (r.afterTake p).spans := fun e' h =>
    mem_orderEntries.mpr (List.mem_filterMap.mpr ⟨e, he, h⟩)
  by_cases hp : p ≤ e.start
  · refine ⟨e, hmem e (by rw [restAt_eq, staysAt, if_pos hp]), hopen, rfl, rfl, fun stop => ?_⟩
    have hlt : ¬e.start < p := Nat.not_lt.mpr hp
    simp [SpanEntry.closed, Nat.max_eq_left hp, hlt]
  · have hbelow : closedBelow p e = false := by simp [closedBelow, hopen]
    refine ⟨{ e with start := p, carried := true, stop := if e.isOpen then e.stop.map (max · p) else e.stop }, hmem _ ?_, hopen,
      rfl, rfl, fun stop => ?_⟩
    · rw [restAt_eq, staysAt, if_neg hp, hbelow]
      rfl
    · have hlt : e.start < p := Nat.not_le.mp hp
      simp [SpanEntry.closed, Nat.max_eq_right (Nat.le_of_lt hlt), hlt]

theorem columnsSettled_of_blocks (hline : u.line l = s.line l) (hknot : u.knot l = s.knot l)
    (hspan : u.spanRec l = (s.spanRec l).afterTake (s.pos l).position) (hrecipe : ∀ n, u.recipe n = s.recipe n)
    (hrun : s.runOpen l = true) (h : BlocksSettled u t l) : ColumnsSettled s t l := by
  have hrunu : u.runOpen l = true := by simpa only [State.runOpen, hline] using hrun
  obtain ⟨kept, cleared, closed, -⟩ := h
  rw [hline, hknot] at kept
  refine ⟨kept, fun n r k hkind hn hr hk => ?_⟩
  have hclear : t.knot l = columnsCleared k.columnsUsed (s.knot l) :=
    (cleared n r k (by rw [hline]; exact hkind) (by rw [hline]; exact hn) (by rw [hrecipe]; exact hr) hk).trans (by rw [hknot])
  refine ⟨by rw [hclear]; rfl, fun c hc => by rw [hclear]; exact columnsCleared_column _ hc,
    fun c kind start y hc hused hcol hy => ?_⟩
  obtain ⟨hnone, hclosed⟩ := closed n r k c kind start y (by rw [hline]; exact hkind) (by rw [hline]; exact hn)
    (by rw [hrecipe]; exact hr) hk hrunu hc hused (by rw [hknot]; exact hcol) (by rw [hknot]; exact hy)
  refine ⟨fun e he hopen hsource => not_or.mp fun hkinds => ?_, fun e he hopen hsource hkinds => ?_⟩
  · have hheld := (holds_columnKey_iff e c).mpr ⟨hopen, hsource, hkinds⟩
    rw [hnone e he] at hheld
    cases hheld
  · obtain ⟨e', he', hopen', hsource', hkind', hend⟩ := carried_mem_afterTake (p := (s.pos l).position) he hopen
    have hmem := hclosed e' (by rw [hspan]; exact he')
      ((holds_columnKey_iff e' c).mpr ⟨hopen', hsource'.trans hsource, by rw [hkind']; exact hkinds⟩)
    rw [hend] at hmem
    exact hmem

/-! ## The steps together -/

theorem rebound_fields (r : LineRec) : (rebound r).cfg = r.cfg ∧ (rebound r).state = r.state ∧ (rebound r).kind = r.kind :=
  ⟨rfl, rfl, rfl⟩

theorem appliedTold_frame (s : State) (l : LineId) (n : Nat) :
    appliedTold s l n = { s with link := (appliedTold s l n).link } := by
  unfold appliedTold
  cases (s.line l).pendingRecipe with
  | none => rfl
  | some m => exact notify_eq s _ _

theorem foldl_appliedTold_frame (ls : List LineId) (w : LineId → Nat) (s : State) :
    ls.foldl (fun v y => appliedTold v y (w y)) s = { s with link := (ls.foldl (fun v y => appliedTold v y (w y)) s).link } :=
  foldl_keeps (Q := fun t => t = { s with link := t.link }) (fun t y _ ht => by rw [appliedTold_frame, ht]) rfl

/-- RECIPE_APPLIED names the number of the next coil, which is open where the recipes are applied. -/
theorem tellsAs_appliedTold (h : TellsAs s t) (hline : s.line l = t.line l)
    (hnumber : (s.coilRec l).number = numberAfter (t.coilRec l).number) (n : Nat) :
    TellsAs (boundTold s l n false) (appliedTold t l n) := by
  cases hp : (t.line l).pendingRecipe with
  | none =>
    have hsame : appliedTold t l n = t := by simp only [appliedTold, hp]
    rw [boundTold_of_none (hline ▸ hp), hsame]
    exact h
  | some m =>
    have hsame : appliedTold t l n = t.notify (some l) (.recipeApplied (t.line l).bound m (numberAfter (t.coilRec l).number)
        n false) := by simp only [appliedTold, hp]
    rw [boundTold_of_some (hline ▸ hp), hsame, hline, hnumber]
    exact h.notify _ _

theorem tellsAs_foldl_appliedTold (h : TellsAs s t)
    (hlines : ∀ y ∈ ls, s.line y = t.line y ∧ (s.coilRec y).number = numberAfter (t.coilRec y).number) :
    TellsAs (ls.foldl (fun v y => boundTold v y (w y) false) s) (ls.foldl (fun v y => appliedTold v y (w y)) t) := by
  induction ls generalizing s t with
  | nil => exact h
  | cons y ls ih =>
    obtain ⟨hline, hnumber⟩ := hlines y (List.mem_cons_self ..)
    refine ih (tellsAs_appliedTold h hline hnumber (w y)) fun z hz => ?_
    dsimp only
    rw [boundTold_frame, appliedTold_frame]
    exact hlines z (List.mem_cons_of_mem _ hz)

theorem cutSettled_eq {why : CutReason} (hwhy : why ≠ .endOfRun) (u : State) (ls : List LineId) (l : LineId) :
    cutSettled u ls l why = (ls.foldl State.notifyCut ((ls.foldl State.settleCoil
      ((ls.foldl State.openNextCoil u).applyPending ls)).releasePair l)).evaluateGrant := by
  cases why with
  | placement p => rfl
  | onRequest => rfl
  | endOfRun => exact absurd rfl hwhy

theorem pendingLoads_congr (hhead : ∀ h, (u.head h).settings = (s.head h).settings) (hline : ∀ y, u.line y = s.line y) :
    PendingLoads u ls = PendingLoads s ls := by
  funext h n
  simp only [PendingLoads, hhead, hline]

theorem withoutCutHeld_bound (r : LineRec) : (withoutCutHeld r).bound = r.bound := (withoutCutHeld_fields r).2.1

/-- The bound recipe that a cut leaves does not depend on CUT_HELD. -/
theorem PairReleased.bound (h : PairReleased s t l) (y : LineId) : (t.line y).bound = (s.line y).bound := by
  by_cases hy : Releases s l y
  · rw [h.released y hy, withoutCutHeld_bound]
  · rw [h.otherLine y hy]

theorem cutSettled_done {why : CutReason} (hwhy : why ≠ .endOfRun) (hnodup : ls.Nodup) (hclosed : RecordsClosed s u ls x)
    (hrun : ∀ y ∈ ls, s.runOpen y = true) : ∃ w, CutDone s (cutSettled u ls l why) ls l x w := by
  rw [cutSettled_eq hwhy]
  have hopened := coilsOpened_foldl hnodup u
  generalize ls.foldl State.openNextCoil u = u2 at hopened
  have happlied := applyPending_applied hnodup u2
  generalize u2.applyPending ls = u3 at happlied
  have hsettled := coilsSettled_foldl hnodup u3
  generalize ls.foldl State.settleCoil u3 = u4 at hsettled
  have hreleased := pairReleased_releasePair u4 l
  generalize u4.releasePair l = u5 at hreleased
  have htoldframe := foldl_notifyCut_frame ls u5
  have hlaneu5 : ∀ y, u5.lane y = u.lane y := fun y => by
    rw [hreleased.frame, hsettled.frame, happlied.frame, hopened.frame]; rfl
  have hlane : ∀ y, u5.lane y = { s.lane y with queue := (s.lane y).queue ++ if y ∈ ls then [x y] else [] } := fun y => by
    rw [hlaneu5, hclosed.lane]
    split
    · rfl
    · rw [List.append_nil]
  have hlink := tellsAs_notifyCut (ls := ls) (x := x) (s := u5)
    (t := ls.foldl (fun v y => appliedTold v y (writtenFor u2 ls y)) s)
  generalize ls.foldl State.notifyCut u5 = u6 at htoldframe hlink
  have hgrant := evaluateGrant_eq u6
  -- what stands between the state before and that where the recipes are applied
  have hline2 : ∀ y, u2.line y = s.line y := fun y => by rw [hopened.frame, hclosed.frame]; rfl
  have hhead2 : ∀ h, u2.head h = s.head h := fun h => by rw [hopened.frame, hclosed.frame]; rfl
  have hcoil2 : ∀ y ∈ ls, u2.coilRec y = coilOpened (s.pos y).position
      { s.coilRec y with cutterPulse := some (s.now + (s.line y).cfg.cutterPulse * 1000) } := fun y hy => by
    have hpos : u.pos y = s.pos y := by rw [hclosed.frame]; rfl
    rw [hopened.coilRec, if_pos hy, hclosed.coilRec, if_pos hy, hpos]
    rfl
  have hother2 : ∀ y, y ∉ ls → u2.coilRec y = s.coilRec y := fun y hy => by
    rw [hopened.coilRec, if_neg hy, hclosed.coilRec, if_neg hy]
  have hsame2 : CopiesSame s u2 := .of_heads (by rw [hopened.frame, hclosed.frame]) (by rw [hopened.frame, hclosed.frame])
    (by rw [hopened.frame, hclosed.frame])
  have hloads : PendingLoads u2 ls = PendingLoads s ls := pendingLoads_congr (fun h => by rw [hhead2]) hline2
  have hcoil3 : ∀ y, u3.coilRec y = u2.coilRec y := fun y => by rw [happlied.frame]; rfl
  have hpos3 : ∀ y, u3.pos y = s.pos y := fun y => by rw [happlied.frame, hopened.frame, hclosed.frame]; rfl
  have hline3 : ∀ y, u3.line y = if y ∈ ls then rebound (s.line y) else s.line y := fun y => by
    rw [happlied.line, hline2]
  have hline4 : ∀ y, u4.line y = u3.line y := fun y => by rw [hsettled.frame]; rfl
  -- what stands between the applied recipes and the end
  have hline6 : ∀ y, u6.evaluateGrant.line y = u5.line y := fun y => by rw [hgrant, htoldframe]; rfl
  have hcoil6 : ∀ y, u6.evaluateGrant.coilRec y = u5.coilRec y := fun y => by rw [hgrant, htoldframe]; rfl
  have hpos6 : ∀ y, u6.evaluateGrant.pos y = u4.pos y := fun y => by rw [hgrant, htoldframe, hreleased.frame]; rfl
  have hspan6 : ∀ y, u6.evaluateGrant.spanRec y = u3.spanRec y := fun y => by
    rw [hgrant, htoldframe, hreleased.frame, hsettled.frame]; rfl
  have hknot6 : ∀ y, u6.evaluateGrant.knot y = u3.knot y := fun y => by
    rw [hgrant, htoldframe, hreleased.frame, hsettled.frame]; rfl
  have hhead6 : ∀ h, u6.evaluateGrant.head h = u3.head h := fun h => by
    rw [hgrant, htoldframe, hreleased.frame, hsettled.frame]; rfl
  have hsame6 : CopiesSame u3 u6.evaluateGrant := .of_heads (by rw [hgrant, htoldframe, hreleased.frame, hsettled.frame])
    (by rw [hgrant, htoldframe, hreleased.frame, hsettled.frame]) (by rw [hgrant, htoldframe, hreleased.frame, hsettled.frame])
  have hfollower : u4.follower l = s.follower l := follower_congr (fun y => by
    rw [hline4, hline3]
    split <;> rfl) l
  have hpaired4 : ∀ y, (u4.coilRec y).pairedHold = (s.coilRec y).pairedHold := fun y => by
    rw [hsettled.coilRec, hcoil3]
    by_cases hy : y ∈ ls
    · rw [if_pos hy, hcoil2 y hy]; rfl
    · rw [if_neg hy, hother2 y hy]
  have hreleases : ∀ y, Releases u4 l y ↔ Releases s l y := fun y => by unfold Releases; rw [hfollower, hpaired4]
  have hcoil4 : ∀ y, y ∉ ls → u4.coilRec y = s.coilRec y := fun y hy => by
    rw [hsettled.coilRec, if_neg hy, hcoil3, hother2 y hy]
  have hspan2 : ∀ y ∈ ls, u2.spanRec y = (s.spanRec y).afterTake (s.pos y).position := fun y hy => by
    have : u2.spanRec y = u.spanRec y := by rw [hopened.frame]; rfl
    rw [this, hclosed.spanRec, if_pos hy]
  have hknot2 : ∀ y, u2.knot y = s.knot y := fun y => by rw [hopened.frame, hclosed.frame]; rfl
  have hspanOther2 : ∀ y, y ∉ ls → u2.spanRec y = s.spanRec y := fun y hy => by
    have : u2.spanRec y = u.spanRec y := by rw [hopened.frame]; rfl
    rw [this, hclosed.spanRec, if_neg hy]
  refine ⟨writtenFor u2 ls, ?_⟩
  refine ⟨?frame, ?granted, fun y hy => ?released, fun y hy => ?otherLine, fun y hy c hc => ?nextCoil, fun y hy hf => ?paired,
    fun y hy hf => ?otherCoil, fun y hy => ?others, fun y hy => ?taken, ?applied, fun y hy => ?written, ?told⟩
  case frame => rw [hgrant, htoldframe, hreleased.frame, hsettled.frame, happlied.frame, hopened.frame, hclosed.frame]
  case granted =>
    refine ⟨u6, rfl, by rw [htoldframe, hreleased.frame, hsettled.frame, happlied.frame, hopened.frame, hclosed.frame],
      fun y => ?_⟩
    rw [← hlane, htoldframe]
    rfl
  case released => rw [hline6, hreleased.released y ((hreleases y).mpr hy), hline4, hline3]
  case otherLine => rw [hline6, hreleased.otherLine y (mt (hreleases y).mp hy), hline4, hline3]
  case nextCoil =>
    have hcoil3' : (u3.coilRec y).coil = some ⟨c.slot, (s.pos y).position, 0, 0⟩ := by
      rw [hcoil3, hcoil2 y hy]
      simp only [coilOpened, hc, Option.map_some]
    have hbound : (u6.evaluateGrant.line y).bound = (u3.line y).bound := by rw [hline6, hreleased.bound, hline4]
    have hposition : u6.evaluateGrant.pos y = { s.pos y with
        markTarget := markOf u3 (coilBound (u3.line y).bound (u3.coilRec y)) } := by
      rw [hpos6, hsettled.pos y hy (by rw [hcoil3']; nofun), hpos3]
    refine ⟨by rw [hposition], ((u3.line y).bound).getD c.slot, ?_, ?_, ?_⟩
    · rw [hbound]
      cases (u3.line y).bound with
      | none => exact .inr ⟨rfl, rfl⟩
      | some n => exact .inl rfl
    · have hcoil4' : u4.coilRec y = ⟨numberAfter (s.coilRec y).number,
          some ⟨((u3.line y).bound).getD c.slot, (s.pos y).position, 0, 0⟩, .none, (s.coilRec y).pairedHold,
          some (s.now + (s.line y).cfg.cutterPulse * 1000)⟩ := by
        rw [hsettled.coilRec, if_pos hy, coilBound, hcoil3', hcoil3, hcoil2 y hy]
        simp only [coilOpened, nextNumber_eq, Option.map_some]
      rw [hcoil6]
      by_cases hf : s.follower l = some y
      · rw [if_pos hf, hreleased.paired y (hfollower.trans hf), hcoil4']
      · rw [if_neg hf, hreleased.otherCoil y (hfollower ▸ hf), hcoil4']
    · rw [hposition, hsame6.recipe]
      simp only [markOf, coilBound, hcoil3', Option.map_some, Option.bind_some]
  case paired => rw [hcoil6, hreleased.paired y (hfollower.trans hf), hcoil4 y hy]
  case otherCoil => rw [hcoil6, hreleased.otherCoil y (hfollower ▸ hf), hcoil4 y hy]
  case others =>
    refine ⟨?_, ?_⟩
    · rw [hpos6, hsettled.otherPos y hy, hpos3]
    · rw [hspan6, (happlied.others y hy).2, hspanOther2 y hy]
  case taken =>
    have hrun2 : u2.runOpen y = true := by simpa only [State.runOpen, hline2] using hrun y hy
    rw [hspan6]
    exact (happlied.blocks y hy).taken hrun2 _ (by rw [hspan2 y hy]; exact afterTake_takenAt _ _)
  case applied =>
    refine ⟨hloads ▸ hsame2.reloaded hsame6 happlied.reloaded, fun h n hn => ?_, fun h hno => ?_, fun y hy => ?_, fun y hy => ?_⟩
    · rw [hhead6, happlied.loadedHeads h n (hloads.symm ▸ hn), hhead2]
    · rw [hhead6, happlied.otherHeads h (fun n hn => hno n (hloads ▸ hn)), hhead2]
    · exact columnsSettled_of_blocks (hline2 y) (hknot2 y) (hspan2 y hy) hsame2.recipe (hrun y hy)
        ((happlied.blocks y hy).of_after (hknot6 y) (hspan6 y))
    · rw [hknot6, (happlied.others y hy).1, hknot2]
  case written =>
    have hback := writesBack_writtenFor u2 ls y
    intro hlaw
    have hlaw2 : ∀ h, LearnedLaw u2 h := fun h => by
      unfold LearnedLaw
      simp only [hsame2.copy, hsame2.recipe]
      exact hlaw h
    obtain ⟨hs, hnd, hmem, hlen⟩ := hback hlaw2
    refine ⟨hs, hnd, fun h => (hmem h).trans ?_, hlen⟩
    simp only [AssignedTo, hhead2, hsame2.evicts, hloads]
  case told =>
    have happliedTold : TellsAs (ls.foldl (fun v y => boundTold v y (writtenFor u2 ls y) false) u2)
        (ls.foldl (fun v y => appliedTold v y (writtenFor u2 ls y)) s) :=
      tellsAs_foldl_appliedTold ⟨by rw [hopened.frame, hclosed.frame], by rw [hopened.frame, hclosed.frame]; rfl⟩
        fun y hy => ⟨hline2 y, by rw [hcoil2 y hy]; exact nextNumber_eq _⟩
    have hbefore : TellsAs u5 u3 := ⟨by rw [hreleased.frame, hsettled.frame], by rw [hreleased.frame, hsettled.frame]; rfl⟩
    refine TellsAs.trans ⟨by rw [hgrant], by rw [hgrant]; rfl⟩ (hlink (hbefore.trans (happlied.told.trans happliedTold))
      fun y hy => ?_)
    rw [hlane y, if_pos hy, foldl_appliedTold_frame]
    rfl

end Sys2Proof.Proofs

/-! A cut of a line alone, and a cut of a pair, as the statements give them (R134 to R139). -/

namespace Sys2Proof.Proofs

open Sys2Proof.Machine Sys2Proof.Safety

variable {s t : State} {l f : LineId} {c d : OpenCoil} {r q : Recipe} {why : CutReason}

/-! ## The flags of a record (R136, R139) -/

theorem ownFlags_short (s : State) (l : LineId) (r : Recipe) (p m : Bool) :
    (s.cutFlags l c r .onRequest true p m).short = true ↔ (s.pos l).position - c.start < r.targetLength * 1000000 := by
  have hshort : (s.cutFlags l c r .onRequest true p m).short = (true && (CutReason.onRequest == .onRequest) &&
      decide ((s.pos l).position - c.start < r.targetLength * nmPerMm)) := rfl
  rw [hshort, beq_self_eq_true]
  simp only [Bool.true_and, decide_eq_true_eq]
  rw [nmPerMm]

theorem ownFlags_endSplice (s : State) (l : LineId) (r : Recipe) (hwhy : why.placement? = none) (p m : Bool) :
    (s.cutFlags l c r why true p m).endSplice = true ↔ SpliceNear s l r := by
  rw [← conflicts_endZone_iff]
  simp [State.cutFlags, hwhy]

theorem placedFlags_endSplice (s : State) (l : LineId) (r : Recipe) (x : Placement) (p m : Bool) :
    (s.cutFlags l c r (.placement x) true p m).endSplice = true ↔ x.endSplice = true ∨ SpliceNear s l r := by
  rw [← conflicts_endZone_iff]
  simp [State.cutFlags, CutReason.placement?]

theorem followerFlags_endSplice (s : State) (l : LineId) (r : Recipe) (why : CutReason) (p m : Bool) :
    (s.cutFlags l c r why false p m).endSplice = true ↔ SpliceNear s l r := by
  rw [← conflicts_endZone_iff]
  simp [State.cutFlags]

theorem pairMismatch_iff (hc : (s.coilRec l).coil = some c) (hd : (s.coilRec f).coil = some d) : s.pairMismatch l f = true ↔
    (s.pos l).position - c.start + (s.line f).cfg.pairTolerance * 1000000 < (s.pos f).position - d.start ∨
      (s.pos f).position - d.start + (s.line f).cfg.pairTolerance * 1000000 < (s.pos l).position - c.start := by
  simp only [State.pairMismatch, State.coilLength, coilStart_of_some hc, coilStart_of_some hd, distance, nmPerMm,
    decide_eq_true_eq]
  omega

/-! ## The lane queues -/

theorem queuedAndGranted_queue {added : LineId → List CoilRecord} (h : QueuedAndGranted s t added) (y : LineId) :
    (t.lane y).queue.map unserved = (s.lane y).queue.map unserved ++ (added y).map unserved := by
  obtain ⟨u, rfl, -, hlane⟩ := h
  rw [evaluateGrant_unserved, hlane, List.map_append]

theorem unserved_closedRecord (s : State) (l : LineId) (c : OpenCoil) (r : Recipe) (why : CutReason) (own : Bool)
    (partner : Option (LineId × Nat)) (m : Bool) :
    unserved (s.closedRecord l c r why own partner m) = s.closedRecord l c r why own partner m := rfl

theorem withoutCutHeld_rebound (r : LineRec) : withoutCutHeld (rebound r) = rebound (withoutCutHeld r) := by
  by_cases h : r.causes.cutHeld = true
  · have h' : (rebound r).causes.cutHeld = true := h
    rw [withoutCutHeld, if_pos h', withoutCutHeld, if_pos h]
    rfl
  · have h' : ¬(rebound r).causes.cutHeld = true := h
    rw [withoutCutHeld, if_neg h', withoutCutHeld, if_neg h]

/-! ## A line that cuts alone -/

/-- The record of a line that cuts alone. -/
def aloneRecord (s : State) (l : LineId) (c : OpenCoil) (r : Recipe) (why : CutReason) : CoilRecord :=
  s.closedRecord l c r why true none false

theorem runningFollower_eq_none (h : ∀ f, s.follower l = some f → (s.line f).state = .idle) : s.runningFollower l = none :=
  Option.eq_none_iff_forall_ne_some.mpr fun f hf => (runningFollower_eq_some.mp hf).2 (h f (runningFollower_eq_some.mp hf).1)

theorem cutLines_of_alone (h : ∀ f, s.follower l = some f → (s.line f).state = .idle) : s.cutLines l = [l] := by
  unfold State.cutLines
  rw [runningFollower_eq_none h]
  rfl

theorem cutLines_of_pair (hf : s.follower l = some f) (hrun : (s.line f).state ≠ .idle) : s.cutLines l = [l, f] := by
  unfold State.cutLines
  rw [runningFollower_eq_some.mpr ⟨hf, hrun⟩]
  rfl

theorem runOpen_of_ne_idle (h : (s.line l).state ≠ .idle) : s.runOpen l = true := decide_eq_true h

/-- A cut of a line alone that is not its run's last, whatever its stage was. -/
theorem performCut_alone (hrun : (s.line l).state ≠ .idle) (hc : (s.coilRec l).coil = some c) (hr : s.recipe c.slot = some r)
    (hf : ∀ f, s.follower l = some f → (s.line f).state = .idle) (hwhy : why ≠ .endOfRun) (st : CutStage) :
    CutAlone s ((staged s l st).performCut l why) l c r (aloneRecord s l c r why) := by
  have hclosed := (recordsClosed_alone (s := staged s l st) ((staged_coil s l st l).trans hc) hr
    (runningFollower_eq_none hf) why).of_staged (List.mem_singleton_self l)
  rw [staged_closedRecord] at hclosed
  obtain ⟨w, hdone⟩ := cutSettled_done (l := l) hwhy (List.pairwise_singleton _ l) hclosed
    (fun y hy => by rw [List.mem_singleton.mp hy]; exact runOpen_of_ne_idle hrun)
  have hcut : (staged s l st).performCut l why = cutSettled (cutClosed (staged s l st) l why) [l] l why := by
    rw [performCut_eq, cutLines_of_alone (s := staged s l st) hf]
  rw [hcut]
  generalize cutSettled (cutClosed (staged s l st) l why) [l] l why = t at hdone
  have hself : s.follower l ≠ some l := fun e => hrun (hf l e)
  have hnot : ∀ y, y ≠ l → y ∉ [l] := fun y hy h => hy (List.mem_singleton.mp h)
  have hother : ∀ y, y ≠ l → s.follower l ≠ some y ∨ (s.coilRec y).pairedHold = false →
      t.line y = s.line y ∧ t.coilRec y = s.coilRec y := fun y hy hcase => by
    have hrel : ¬Releases s l y := fun h => by
      obtain ⟨hfy, hp⟩ := h.resolve_left hy
      exact hcase.elim (fun h => h hfy) fun h => by rw [hp] at h; cases h
    refine ⟨by rw [hdone.otherLine y hrel, if_neg (hnot y hy)], ?_⟩
    by_cases hfy : s.follower l = some y
    · rw [hdone.paired y (hnot y hy) hfy, coilRec_notPaired (hcase.resolve_left (not_not_intro hfy))]
    · exact hdone.otherCoil y (hnot y hy) hfy
  refine {
    closed := closedFrom_closedRecord hc r why true none false
    partner := rfl
    notPaired := ⟨rfl, rfl, beq_eq_false_iff_ne.mpr hwhy⟩
    queued := ?queued
    otherQueues := fun y hy => ?otherQueues
    granted := ?granted
    line := ?line
    applied := hdone.applied
    told := ⟨w l, hdone.written l (List.mem_singleton_self l), hdone.told.link⟩
    follower := fun y hy hfy hp => ?follower
    otherLines := hother
    nextCoil := ?nextCoil
    taken := hdone.taken l (List.mem_singleton_self l)
    otherBlocks := fun y hy => ?otherBlocks
    links := fun k => by rw [hdone.frame]; cases k <;> rfl
    channels := by rw [hdone.frame]
    completed := by rw [hdone.frame]
    surroundings := by rw [hdone.frame]; exact ⟨rfl, rfl, rfl, rfl, rfl⟩ }
  case queued =>
    rw [queuedAndGranted_queue hdone.granted l, if_pos (List.mem_singleton_self l)]
    rfl
  case otherQueues => rw [queuedAndGranted_queue hdone.granted y, if_neg (hnot y hy), List.map_nil, List.append_nil]
  case granted =>
    have := hdone.granted
    simp only [List.mem_singleton] at this
    exact this
  case line =>
    rw [hdone.released l (.inl rfl), if_pos (List.mem_singleton_self l), withoutCutHeld_rebound]
  case follower =>
    refine ⟨?_, hdone.paired y (hnot y hy) hfy⟩
    rw [hdone.released y (.inr ⟨hfy, hp⟩), if_neg (hnot y hy)]
  case nextCoil =>
    have := hdone.nextCoil l (List.mem_singleton_self l) c hc
    rwa [if_neg hself] at this
  case otherBlocks =>
    obtain ⟨hpos, hspan⟩ := hdone.others y (hnot y hy)
    refine ⟨hpos, hspan, ?_⟩
    by_cases hfy : s.follower l = some y
    · rw [hdone.paired y (hnot y hy) hfy]
    · rw [hdone.otherCoil y (hnot y hy) hfy]

/-! ## A pair -/

theorem pairRecords_own (hne : f ≠ l) : pairRecords s l f c d r q why l =
    s.closedRecord l c r why true (some (f, (s.coilRec f).number)) (s.pairMismatch l f) := if_neg hne.symm

theorem pairRecords_follower : pairRecords s l f c d r q why f =
    s.closedRecord f d q why false (some (l, (s.coilRec l).number)) (s.pairMismatch l f) := if_pos rfl

/-- What a cut of a pair has of its records, whatever it is made for. -/
theorem pairClosed_of_queued (hne : f ≠ l) (hc : (s.coilRec l).coil = some c) (hd : (s.coilRec f).coil = some d)
    (hgranted : QueuedAndGranted s t fun y => if y ∈ [l, f] then [pairRecords s l f c d r q why y] else [])
    (hcutters : ∀ y ∈ [l, f], (t.coilRec y).cutterPulse ≠ none)
    (hpos : ∀ y ∈ [l, f], (t.pos y).position = (s.pos y).position) (hchannels : t.channels = s.channels)
    (hcompleted : t.completed = s.completed) (hsurroundings : SameSurroundings s t) :
    PairClosed s t l f c d r q (pairRecords s l f c d r q why l) (pairRecords s l f c d r q why f) := by
  have hl : l ∈ [l, f] := by simp
  have hf : f ∈ [l, f] := by simp
  have hunserved : ∀ y, unserved (pairRecords s l f c d r q why y) = pairRecords s l f c d r q why y := fun y => by
    unfold pairRecords
    split
    · exact unserved_closedRecord ..
    · exact unserved_closedRecord ..
  have hqueue : ∀ y ∈ [l, f], (t.lane y).queue.map unserved =
      (s.lane y).queue.map unserved ++ [pairRecords s l f c d r q why y] := fun y hy => by
    rw [queuedAndGranted_queue hgranted y, if_pos hy, List.map_singleton, hunserved]
  have hcutter : ∀ y ∈ [l, f], t.cutterOut y = true := fun y hy => Option.isSome_iff_ne_none.mpr (hcutters y hy)
  refine {
    closed := ⟨?closed, ?closedFollower⟩
    partners := ?partners
    paired := ?paired
    follower := ?follower
    mismatch := ?mismatch
    queued := ⟨hqueue l hl, hqueue f hf⟩
    otherQueues := fun z hzl hzf => ?otherQueues
    granted := ?granted
    cutters := ⟨hcutter l hl, hcutter f hf⟩
    positions := ⟨hpos l hl, hpos f hf⟩
    channels := hchannels
    completed := hcompleted
    surroundings := hsurroundings }
  case closed => rw [pairRecords_own hne]; exact closedFrom_closedRecord hc r why true _ _
  case closedFollower => rw [pairRecords_follower]; exact closedFrom_closedRecord hd q why false _ _
  case partners => rw [pairRecords_own hne, pairRecords_follower]; exact ⟨rfl, rfl⟩
  case paired => rw [pairRecords_own hne, pairRecords_follower]; exact ⟨rfl, rfl⟩
  case follower =>
    rw [pairRecords_follower, closedRecord_flags]
    exact ⟨rfl, rfl, followerFlags_endSplice s f q why _ _⟩
  case mismatch =>
    rw [pairRecords_own hne, pairRecords_follower]
    exact ⟨rfl, pairMismatch_iff hc hd⟩
  case otherQueues =>
    have hz : z ∉ [l, f] := by simp [hzl, hzf]
    rw [queuedAndGranted_queue hgranted z, if_neg hz, List.map_nil, List.append_nil]
  case granted =>
    obtain ⟨u, ht, hpack, hlane⟩ := hgranted
    refine ⟨u, ht, hpack, fun y => (hlane y).trans ?_⟩
    by_cases hyl : y = l
    · subst hyl; simp
    · by_cases hyf : y = f
      · subst hyf; simp [hyl]
      · simp [hyl, hyf]

/-- A cut of a line and of its running follower that is not their runs' last, whatever its stage was. -/
theorem performCut_pair (hne : f ≠ l) (hrun : (s.line l).state ≠ .idle) (hc : (s.coilRec l).coil = some c)
    (hr : s.recipe c.slot = some r) (hf : s.follower l = some f) (hrunf : (s.line f).state ≠ .idle)
    (hd : (s.coilRec f).coil = some d) (hq : s.recipe d.slot = some q) (hwhy : why ≠ .endOfRun) (st : CutStage) :
    CutPair s ((staged s l st).performCut l why) l f c d r q (pairRecords s l f c d r q why l)
      (pairRecords s l f c d r q why f) := by
  have hclosed := (recordsClosed_pair (s := staged s l st) hne ((staged_coil s l st l).trans hc) hr
    (runningFollower_eq_some.mpr ⟨hf, hrunf⟩) ((staged_coil s l st f).trans hd) hq why).of_staged (by simp)
  rw [staged_pairRecords] at hclosed
  obtain ⟨w, hdone⟩ := cutSettled_done (l := l) hwhy (by simp [hne.symm]) hclosed (fun y hy => by
    rcases (List.mem_cons.trans (or_congr_right List.mem_singleton)).mp hy with rfl | rfl
    · exact runOpen_of_ne_idle hrun
    · exact runOpen_of_ne_idle hrunf)
  have hcut : (staged s l st).performCut l why = cutSettled (cutClosed (staged s l st) l why) [l, f] l why := by
    rw [performCut_eq, cutLines_of_pair (s := staged s l st) hf hrunf]
  rw [hcut]
  generalize cutSettled (cutClosed (staged s l st) l why) [l, f] l why = t at hdone
  have hl : l ∈ [l, f] := by simp
  have hf' : f ∈ [l, f] := by simp
  have hself : s.follower l ≠ some l := fun e => hne (Option.some.inj (hf.symm.trans e))
  have hnext : NextCoil s t l c (s.coilRec l).pairedHold := by
    have := hdone.nextCoil l hl c hc
    rwa [if_neg hself] at this
  have hnextFollower : NextCoil s t f d false := by
    have := hdone.nextCoil f hf' d hd
    rwa [if_pos hf] at this
  have hcutters : ∀ y ∈ [l, f], (t.coilRec y).cutterPulse ≠ none := fun y hy => by
    rcases (List.mem_cons.trans (or_congr_right List.mem_singleton)).mp hy with rfl | rfl
    · obtain ⟨-, n, -, hcoil, -⟩ := hnext; rw [hcoil]; nofun
    · obtain ⟨-, n, -, hcoil, -⟩ := hnextFollower; rw [hcoil]; nofun
  have hpos : ∀ y ∈ [l, f], (t.pos y).position = (s.pos y).position := fun y hy => by
    rcases (List.mem_cons.trans (or_congr_right List.mem_singleton)).mp hy with rfl | rfl
    · rw [hnext.1]
    · rw [hnextFollower.1]
  have hlast : (why == .endOfRun) = false := beq_eq_false_iff_ne.mpr hwhy
  refine {
    records := pairClosed_of_queued hne hc hd hdone.granted hcutters hpos (by rw [hdone.frame]) (by rw [hdone.frame])
      (by rw [hdone.frame]; exact ⟨rfl, rfl, rfl, rfl, rfl⟩)
    notLast := ?notLast
    line := ?line
    followerLine := ?followerLine
    otherLines := fun z hzl hzf => ?otherLines
    nextCoils := ⟨hnext, hnextFollower⟩
    taken := ⟨hdone.taken l hl, hdone.taken f hf'⟩
    applied := hdone.applied
    links := fun k => by rw [hdone.frame]; cases k <;> rfl
    told := ⟨w l, w f, hdone.written l hl, hdone.written f hf', hdone.told.link⟩ }
  case notLast => rw [pairRecords_own hne, pairRecords_follower]; exact ⟨hlast, hlast⟩
  case line => rw [hdone.released l (.inl rfl), if_pos hl, withoutCutHeld_rebound]
  case followerLine =>
    by_cases hp : (s.coilRec f).pairedHold = true
    · rw [if_pos hp, hdone.released f (.inr ⟨hf, hp⟩), if_pos hf', withoutCutHeld_rebound]
    · have hrel : ¬Releases s l f := fun h => hp (h.resolve_left hne).2
      rw [if_neg hp, hdone.otherLine f hrel, if_pos hf']
  case otherLines =>
    have hz : z ∉ [l, f] := by simp [hzl, hzf]
    have hfz : s.follower l ≠ some z := fun e => hzf (Option.some.inj (e.symm.trans hf))
    have hrel : ¬Releases s l z := fun h => hfz (h.resolve_left hzl).1
    obtain ⟨hpz, hspan⟩ := hdone.others z hz
    exact ⟨by rw [hdone.otherLine z hrel, if_neg hz], hpz, hspan, hdone.otherCoil z hz hfz⟩

/-- A cut performed at a placement (R134, R136, R138). -/
theorem performCut_atPlacement (p : Placement) (hrun : (s.line l).state ≠ .idle) (hc : (s.coilRec l).coil = some c)
    (hr : s.recipe c.slot = some r) (st : CutStage) :
    CutAtPlacement s ((staged s l st).performCut l (.placement p)) l p c r := by
  refine ⟨fun hf => ⟨_, performCut_alone hrun hc hr hf (by nofun) st, rfl, rfl, placedFlags_endSplice s l r p _ _⟩,
    fun f d q hf hne hrunf hd hq => ⟨_, _, performCut_pair hne hrun hc hr hf hrunf hd hq (by nofun) st, ?_⟩⟩
  rw [pairRecords_own hne]
  exact ⟨rfl, rfl, placedFlags_endSplice s l r p _ _⟩

end Sys2Proof.Proofs

/-! The placement of a cut by the splices, and the cut test: the statement O38. -/

namespace Sys2Proof.Proofs

open Sys2Proof.Machine Sys2Proof.Safety

variable {s : State} {l : LineId}

/-! ## The placement (R131) -/

/-- The points a cut can be moved to: a splice plus the end zone, from the nominal point on, in ascending order. -/
def candidates (splices : List Nat) (C E : Nat) : List Nat := (splices.map (· + E)).filter (C ≤ ·)

/-- A candidate within the placement limit that conflicts with no splice. -/
def suits (splices : List Nat) (C T E p : Nat) : Bool := !conflicts splices E p && decide (p ≤ C + T)

theorem mem_candidates {splices : List Nat} {C E q : Nat} : q ∈ candidates splices C E ↔ (∃ x ∈ splices, q = x + E) ∧ C ≤ q := by
  simp only [candidates, List.mem_filter, List.mem_map, decide_eq_true_eq, eq_comm (b := q)]

theorem candidates_ascending {splices : List Nat} (h : splices.Pairwise (· ≤ ·)) (C E : Nat) :
    (candidates splices C E).Pairwise (· ≤ ·) :=
  (List.pairwise_map.mpr (h.imp fun hle => Nat.add_le_add_right hle E)).filter _

theorem suits_iff {splices : List Nat} {C T E p : Nat} : suits splices C T E p = true ↔
    p ≤ C + T ∧ ¬∃ x ∈ splices, x < p + E ∧ p < x + E := by
  rw [suits, Bool.and_eq_true, decide_eq_true_eq, Bool.not_eq_true', ← conflicts_iff, Bool.not_eq_true, and_comm]

theorem placementFor_of_clear {splices : List Nat} {C T E : Nat} (h : conflicts splices E C = false) :
    placementFor splices C T E = ⟨C, false, false⟩ := if_pos h

theorem placementFor_of_found {splices : List Nat} {C T E p : Nat} (h : conflicts splices E C = true)
    (hp : (candidates splices C E).find? (suits splices C T E) = some p) : placementFor splices C T E = ⟨p, true, false⟩ := by
  unfold placementFor
  rw [if_neg (by rw [h]; nofun)]
  unfold candidates suits at hp
  dsimp only
  rw [hp]

theorem placementFor_of_none {splices : List Nat} {C T E : Nat} (h : conflicts splices E C = true)
    (hp : (candidates splices C E).find? (suits splices C T E) = none) : placementFor splices C T E = ⟨C, false, true⟩ := by
  unfold placementFor
  rw [if_neg (by rw [h]; nofun)]
  unfold candidates suits at hp
  dsimp only
  rw [hp]

/-- The first that suits in an ascending list is the smallest that does. -/
theorem le_of_find_ascending {ps : List Nat} {f : Nat → Bool} (hsorted : ps.Pairwise (· ≤ ·)) {p q : Nat}
    (hp : ps.find? f = some p) (hq : q ∈ ps) (hsuits : f q = true) : p ≤ q := by
  obtain ⟨-, before, after, rfl, hbefore⟩ := List.find?_eq_some_iff_append.mp hp
  rcases List.mem_append.mp hq with hmem | hmem
  · have := hbefore q hmem
    rw [hsuits] at this
    cases this
  · rcases List.mem_cons.mp hmem with rfl | hafter
    · exact Nat.le_refl q
    · exact (List.pairwise_cons.mp (List.pairwise_append.mp hsorted).2.1).1 q hafter

/-! ## The cut test (R130, R132) -/

theorem staged_holds (s : State) (l : LineId) (st : CutStage) : (staged s l st).holds l = s.holds l := by
  have hpulse : ∀ y, ((staged s l st).coilRec y).cutterPulse = (s.coilRec y).cutterPulse := fun y => by
    rw [staged_coilRec]
    split
    · rename_i hy; rw [hy]
    · rfl
  have hfollower : (staged s l st).runningFollower l = s.runningFollower l := rfl
  unfold State.holds
  rw [hfollower, hpulse]
  cases s.runningFollower l with
  | none => rfl
  | some f =>
    dsimp only
    rw [hpulse]
    rfl

/-- A cut becomes HELD from any stage alike. -/
theorem staged_holdCut (s : State) (l : LineId) (st : CutStage) (p : Placement) :
    (staged s l st).holdCut l p = s.holdCut l p := by
  have hheld : ((staged s l st).modCoil l fun k => { k with stage := .held p }) =
      s.modCoil l fun k => { k with stage := .held p } := by
    have hset : (staged s l st).coils.set l { (staged s l st).coilRec l with stage := .held p } =
        s.coils.set l { s.coilRec l with stage := .held p } := PerLine.ext_get fun y => by
      rw [PerLine.get_set, PerLine.get_set, staged_coilRec, if_pos rfl]
      split
      · rfl
      · rename_i hy
        exact (staged_coilRec s l st y).trans (if_neg hy)
    show { s with coils := (staged s l st).coils.set l { (staged s l st).coilRec l with stage := .held p } } =
      { s with coils := s.coils.set l { s.coilRec l with stage := .held p } }
    rw [hset]
  have hfollower : (staged s l st).runningFollower l = s.runningFollower l := rfl
  have hpos : (staged s l st).pos l = s.pos l := rfl
  unfold State.holdCut
  rw [hheld, staged_number, staged_holds, hfollower, hpos]

theorem testCut_of_held {p : Placement} (h : (s.coilRec l).stage = .held p) : s.testCut l = s := by
  simp only [State.testCut, h]

theorem testCut_of_placed {p : Placement} (h : (s.coilRec l).stage = .placed p) :
    s.testCut l = (staged s l (.placed p)).testDue l p := by
  rw [staged_of_stage h]
  simp only [State.testCut, h]

theorem testCut_of_none {c : OpenCoil} {r : Recipe} (h : (s.coilRec l).stage = .none) (hc : (s.coilRec l).coil = some c)
    (hr : s.recipe c.slot = some r) : s.testCut l =
      if s.placesOwnCuts l ∧ c.start + r.targetLength * 1000000 ≤ (s.pos l).position then
        let p := placementFor (s.spanRec l).splices (c.start + r.targetLength * 1000000) (r.plusTolerance * 1000000)
          (r.endZone * 1000000)
        (staged s l (.placed p)).testDue l p
      else s := by
  have hnominal : s.nominalCut l r = c.start + r.targetLength * 1000000 := by
    rw [State.nominalCut, coilStart_of_some hc, nmPerMm]
  unfold State.testCut
  rw [h, hc, coilRecipe_of_coil hc hr]
  dsimp only
  rw [hnominal, nmPerMm]
  rfl

/-- Settles O38: the placement by the splices, and each branch of the cut test. -/
theorem placementKeepsClearOfSplices : Obligations.PlacementKeepsClearOfSplices := by
  refine ⟨fun splices C T E hsorted => ?_, fun s l c r hc hr hrun => ?_⟩
  · intro near qualifies p
    have hnear : ∀ q, conflicts splices E q = true ↔ near q := conflicts_iff splices E
    have hqualifies : ∀ q, qualifies q ↔ q ∈ candidates splices C E ∧ suits splices C T E q = true := fun q => by
      rw [mem_candidates, suits_iff]
      exact ⟨fun ⟨hx, hC, hT, hno⟩ => ⟨⟨hx, hC⟩, hT, hno⟩, fun ⟨⟨hx, hC⟩, hT, hno⟩ => ⟨hx, hC, hT, hno⟩⟩
    refine ⟨fun hclear => ?_, fun hconf hsome => ?_, fun hconf hnone => ?_⟩
    · exact placementFor_of_clear (Bool.eq_false_iff.mpr (mt (hnear C).mp hclear))
    · obtain ⟨q, hq⟩ := hsome
      obtain ⟨hmem, hsuits⟩ := (hqualifies q).mp hq
      obtain ⟨y, hy⟩ := Option.isSome_iff_exists.mp (List.find?_isSome.mpr ⟨q, hmem, hsuits⟩)
      have hp : p = ⟨y, true, false⟩ := placementFor_of_found ((hnear C).mpr hconf) hy
      rw [hp]
      refine ⟨rfl, rfl, (hqualifies y).mpr ⟨List.mem_of_find?_eq_some hy, List.find?_some hy⟩, fun z hz => ?_⟩
      obtain ⟨hzmem, hzsuits⟩ := (hqualifies z).mp hz
      exact le_of_find_ascending (candidates_ascending hsorted C E) hy hzmem hzsuits
    · refine placementFor_of_none ((hnear C).mpr hconf) (List.find?_eq_none.mpr fun q hmem hsuits => ?_)
      exact hnone ⟨q, (hqualifies q).mpr ⟨hmem, hsuits⟩⟩
  · intro nominal ledByRun t
    have hled : s.placesOwnCuts l = true ↔ ¬ledByRun := by
      rw [placesOwnCuts_iff]
      exact ⟨fun h ⟨x, hx, hidle⟩ => hidle (h x hx), fun h x hx => Classical.byContradiction fun hidle => h ⟨x, hx, hidle⟩⟩
    refine ⟨fun p => testCut_of_held, fun hnone hearly => ?_, fun p hp => ?_⟩
    · refine (testCut_of_none hnone hc hr).trans (if_neg ?_)
      rintro ⟨hown, hreached⟩
      exact hearly.elim (hled.mp hown) (Nat.not_lt.mpr hreached)
    have ht : t = (staged s l (.placed p)).testDue l p := by
      rcases hp with hplaced | ⟨hnone, hown, hreached, rfl⟩
      · exact testCut_of_placed hplaced
      · exact (testCut_of_none hnone hc hr).trans (if_pos ⟨hled.mpr hown, hreached⟩)
    have hreason : HoldReason (staged s l (.placed p)) l ↔ HoldReason s l := by
      rw [← holds_any_iff, ← holds_any_iff, staged_holds]
    rw [ht]
    refine ⟨fun hearly => ?_, fun hdue hhold hne => ?_, fun hdue hfree => ?_⟩
    · rw [testDue_of_early (s := staged s l (.placed p)) hearly]
      refine ⟨rfl, (staged_coilRec ..).trans (if_pos rfl), fun x hx => (staged_coilRec ..).trans (if_neg hx)⟩
    · rw [testDue_of_held (s := staged s l (.placed p)) hdue (hreason.mpr hhold), staged_holdCut]
      obtain ⟨hstage, hline, htold, hfollower, hothers, hframe⟩ := cutHeld_holdCut p hne
      exact ⟨hstage, hline, htold, hfollower, hothers, hframe⟩
    · rw [testDue_of_free (s := staged s l (.placed p)) hdue (mt hreason.mp hfree)]
      exact performCut_atPlacement p hrun hc hr _

end Sys2Proof.Proofs

/-! The end of the runs of the lines of a cut (R10, R75, R83, R93, R104). -/

namespace Sys2Proof.Proofs

open Sys2Proof.Machine Sys2Proof.Safety

variable {s t u : State} {l : LineId} {ls : List LineId} {x : LineId → CoilRecord}

/-! ## One run's end -/

/-- The line record when its run ends. -/
def lineEnded (r : LineRec) : LineRec := { r with state := .idle, causes := r.causes.guardOnly }

/-- The coil record when its run ends. -/
def coilEnded (k : CoilRec) : CoilRec := { k with coil := none, stage := .none, pairedHold := false }

/-- The position record when its run ends. -/
def posEnded (p : PositionRec) : PositionRec := { p with slip := none, markTarget := none }

/-- A scan abandoned and its gate released (R104). -/
def scanAbandoned (r : LinkRec) : LinkRec := { r with gate := false, scan := none }

/-- A scan link serves a line (R100). -/
def LinkServes (s : State) (l : LineId) (k : ScanLink) : Prop := (s.line l).kind = .net ∧ (s.line l).cfg.scanLink = some k

theorem abandonScan_of_serves {k : ScanLink} (h : LinkServes s l k) : s.abandonScan l = s.modScanLink k scanAbandoned := by
  simp only [State.abandonScan, h.1, h.2]
  rfl

theorem abandonScan_of_none (h : ∀ k, ¬LinkServes s l k) : s.abandonScan l = s := by
  unfold State.abandonScan
  cases hkind : (s.line l).kind with
  | rope => rfl
  | net =>
    cases hlink : (s.line l).cfg.scanLink with
    | none => rfl
    | some k => exact absurd ⟨hkind, hlink⟩ (h k)

theorem modScanLink_frame (k : ScanLink) (f : LinkRec → LinkRec) (s : State) :
    s.modScanLink k f = { s with linkK1 := (s.modScanLink k f).linkK1, linkK2 := (s.modScanLink k f).linkK2 } := by
  cases k <;> rfl

theorem abandonScan_frame (s : State) (l : LineId) :
    s.abandonScan l = { s with linkK1 := (s.abandonScan l).linkK1, linkK2 := (s.abandonScan l).linkK2 } := by
  by_cases h : ∃ k, LinkServes s l k
  · obtain ⟨k, hk⟩ := h
    rw [abandonScan_of_serves hk]
    exact modScanLink_frame k _ s
  · rw [abandonScan_of_none (not_exists.mp h)]

theorem abandonScan_serving {k : ScanLink} (h : LinkServes s l k) : (s.abandonScan l).scanLink k = scanAbandoned (s.scanLink k) := by
  rw [abandonScan_of_serves h, modScanLink_scanLink_self]

theorem abandonScan_other {k : ScanLink} (h : ¬LinkServes s l k) : (s.abandonScan l).scanLink k = s.scanLink k := by
  by_cases hj : ∃ j, LinkServes s l j
  · obtain ⟨j, hj⟩ := hj
    have hne : k ≠ j := fun e => h (e ▸ hj)
    rw [abandonScan_of_serves hj, modScanLink_scanLink_of_ne s j _ hne]
  · rw [abandonScan_of_none (not_exists.mp hj)]

/-- The runs of the lines of a list ended. -/
structure RunsDone (s t : State) (ls : List LineId) : Prop where
  frame : t = { s with
    lines := t.lines, coils := t.coils, positions := t.positions, spanRecs := t.spanRecs, knots := t.knots, heads := t.heads
    linkK1 := t.linkK1, linkK2 := t.linkK2 }
  line : ∀ y, t.line y = if y ∈ ls then lineEnded (s.line y) else s.line y
  coilRec : ∀ y, t.coilRec y = if y ∈ ls then coilEnded (s.coilRec y) else s.coilRec y
  pos : ∀ y, t.pos y = if y ∈ ls then posEnded (s.pos y) else s.pos y
  spanRec : ∀ y, t.spanRec y = if y ∈ ls then (s.spanRec y).emptied else s.spanRec y
  knot : ∀ y, t.knot y = if y ∈ ls ∧ (s.line y).kind = .net then (s.knot y).atRunEnd else s.knot y
  headEnded : ∀ h, (∃ y ∈ ls, h ∈ s.headsOf y) → t.head h = (s.head h).atRunEnd
  headKept : ∀ h, (∀ y ∈ ls, h ∉ s.headsOf y) → t.head h = s.head h
  linkEnded : ∀ k, (∃ y ∈ ls, LinkServes s y k) → t.scanLink k = scanAbandoned (s.scanLink k)
  linkKept : ∀ k, (∀ y ∈ ls, ¬LinkServes s y k) → t.scanLink k = s.scanLink k

theorem endMeasures_frame (s : State) (l : LineId) : endMeasures s l = { s with
    knots := (endMeasures s l).knots, heads := (endMeasures s l).heads, linkK1 := (endMeasures s l).linkK1
    linkK2 := (endMeasures s l).linkK2 } := by
  unfold endMeasures
  dsimp only
  rw [foldl_modHead_frame]
  cases ((s.abandonScan l).line l).kind with
  | rope => dsimp only; rw [abandonScan_frame]
  | net => dsimp only; rw [abandonScan_frame]; rfl

theorem endMeasures_knot (s : State) (l y : LineId) : (endMeasures s l).knot y =
    if y = l ∧ (s.line l).kind = .net then (s.knot y).atRunEnd else s.knot y := by
  have hknot : ∀ z, (s.abandonScan l).knot z = s.knot z := fun z => by rw [abandonScan_frame]; rfl
  have hline : (s.abandonScan l).line l = s.line l := by rw [abandonScan_frame]; rfl
  unfold endMeasures
  dsimp only
  rw [foldl_modHead_frame, hline]
  cases (s.line l).kind with
  | rope => exact (hknot y).trans (by simp)
  | net =>
    show ((s.abandonScan l).modKnot l KnotRec.atRunEnd).knot y = _
    rw [modKnot_knot, hknot, hknot]
    by_cases hy : y = l
    · simp [hy]
    · simp [hy]

theorem endMeasures_head (s : State) (l : LineId) (h : HeadId) : (endMeasures s l).head h =
    if h ∈ s.headsOf l then (s.head h).atRunEnd else s.head h := by
  have hhead : ∀ z, (s.abandonScan l).head z = s.head z := fun z => by rw [abandonScan_frame]; rfl
  have hheads : (s.abandonScan l).headsOf l = s.headsOf l := headsOf_congr (fun z => by rw [hhead]) l
  unfold endMeasures
  dsimp only
  rw [foldl_modHead_head (headsOf_nodup _ _)]
  cases ((s.abandonScan l).line l).kind with
  | rope => dsimp only; rw [hheads, hhead]
  | net =>
    have hheads' : ((s.abandonScan l).modKnot l KnotRec.atRunEnd).headsOf l = s.headsOf l := hheads
    dsimp only
    rw [hheads', modKnot_head, hhead]

theorem endMeasures_scanLink (s : State) (l : LineId) (k : ScanLink) : (endMeasures s l).scanLink k = (s.abandonScan l).scanLink k := by
  unfold endMeasures
  dsimp only
  rw [foldl_modHead_frame]
  cases ((s.abandonScan l).line l).kind <;> cases k <;> rfl

theorem endRecords_line (s : State) (l y : LineId) :
    (endRecords s l).line y = if y = l then lineEnded (s.line l) else s.line y :=
  modLine_line (((s.modSpanRec l SpanRec.emptied).modPos l posEnded).modCoil l coilEnded) l lineEnded y

theorem endRecords_coilRec (s : State) (l y : LineId) :
    (endRecords s l).coilRec y = if y = l then coilEnded (s.coilRec l) else s.coilRec y :=
  modCoil_coilRec ((s.modSpanRec l SpanRec.emptied).modPos l posEnded) l coilEnded y

theorem endRecords_pos (s : State) (l y : LineId) :
    (endRecords s l).pos y = if y = l then posEnded (s.pos l) else s.pos y :=
  modPos_pos (s.modSpanRec l SpanRec.emptied) l posEnded y

theorem endRecords_spanRec (s : State) (l y : LineId) :
    (endRecords s l).spanRec y = if y = l then (s.spanRec l).emptied else s.spanRec y :=
  modSpanRec_spanRec s l SpanRec.emptied y

/-- A value at one line, seen as a value at the lines of a list of one. -/
theorem ite_mem_singleton {α : Type} {y : LineId} {g : LineId → α} {e : α → α} :
    (if y = l then e (g l) else g y) = if y ∈ [l] then e (g y) else g y := by
  by_cases hy : y = l
  · rw [if_pos hy, if_pos (List.mem_singleton.mpr hy), hy]
  · rw [if_neg hy, if_neg fun h => hy (List.mem_singleton.mp h)]

theorem endRun_done (s : State) (l : LineId) : RunsDone s (s.endRun l) [l] := by
  have hframe := endMeasures_frame s l
  have hline : ∀ y, (endMeasures s l).line y = s.line y := fun y => by rw [hframe]; rfl
  have hcoil : ∀ y, (endMeasures s l).coilRec y = s.coilRec y := fun y => by rw [hframe]; rfl
  have hpos : ∀ y, (endMeasures s l).pos y = s.pos y := fun y => by rw [hframe]; rfl
  have hspan : ∀ y, (endMeasures s l).spanRec y = s.spanRec y := fun y => by rw [hframe]; rfl
  have hknot := endMeasures_knot s l
  have hhead := endMeasures_head s l
  have hlink := endMeasures_scanLink s l
  rw [endRun_eq]
  generalize endMeasures s l = v at *
  have hlink' : ∀ k, (endRecords v l).scanLink k = v.scanLink k := fun k => by cases k <;> rfl
  refine ⟨by rw [hframe]; rfl, fun y => ?_, fun y => ?_, fun y => ?_, fun y => ?_, fun y => ?_, fun h hh => ?_, fun h hh => ?_,
    fun k hk => ?_, fun k hk => ?_⟩
  · rw [endRecords_line, hline, hline]; exact ite_mem_singleton
  · rw [endRecords_coilRec, hcoil, hcoil]; exact ite_mem_singleton
  · rw [endRecords_pos, hpos, hpos]; exact ite_mem_singleton
  · rw [endRecords_spanRec, hspan, hspan]; exact ite_mem_singleton
  · refine (hknot y).trans ?_
    simp only [List.mem_singleton]
    by_cases hy : y = l
    · subst hy; rfl
    · simp only [hy, false_and, if_false]
  · obtain ⟨y, hy, hh⟩ := hh
    rw [List.mem_singleton.mp hy] at hh
    exact (hhead h).trans (if_pos hh)
  · exact (hhead h).trans (if_neg (hh l (List.mem_singleton_self l)))
  · obtain ⟨y, hy, hk⟩ := hk
    rw [List.mem_singleton.mp hy] at hk
    rw [hlink', hlink, abandonScan_serving hk]
  · rw [hlink', hlink, abandonScan_other (hk l (List.mem_singleton_self l))]

/-! ## The runs of several lines -/

theorem headAtRunEnd_idem (r : HeadRec) : r.atRunEnd.atRunEnd = r.atRunEnd := rfl

theorem endRuns_done (hnodup : ls.Nodup) (s : State) : RunsDone s (ls.foldl State.endRun s) ls := by
  induction ls generalizing s with
  | nil =>
    refine ⟨rfl, fun _ => rfl, fun _ => rfl, fun _ => rfl, fun _ => rfl, fun _ => by simp, fun _ h => ?_, fun _ _ => rfl,
      fun _ h => ?_, fun _ _ => rfl⟩
    · obtain ⟨_, hy, -⟩ := h; cases hy
    · obtain ⟨_, hy, -⟩ := h; cases hy
  | cons y ls ih =>
    obtain ⟨hy, hls⟩ := List.nodup_cons.mp hnodup
    have hfirst := endRun_done s y
    have hrest := ih hls (s.endRun y)
    rw [List.foldl_cons]
    generalize s.endRun y = v at hfirst hrest
    generalize ls.foldl State.endRun v = t at hrest
    have hne : ∀ z ∈ ls, z ∉ [y] := fun z hz e => hy (List.mem_singleton.mp e ▸ hz)
    have hline : ∀ z ∈ ls, v.line z = s.line z := fun z hz => by rw [hfirst.line, if_neg (hne z hz)]
    have hheads : ∀ z, v.headsOf z = s.headsOf z := headsOf_congr fun h => by
      by_cases hh : h ∈ s.headsOf y
      · rw [hfirst.headEnded h ⟨y, List.mem_singleton_self y, hh⟩]; rfl
      · rw [hfirst.headKept h fun z hz => by rw [List.mem_singleton.mp hz]; exact hh]
    have hserves : ∀ z ∈ ls, ∀ k, LinkServes v z k ↔ LinkServes s z k := fun z hz k => by
      unfold LinkServes; rw [hline z hz]
    -- a value that one line's end gives, and the later ends leave
    have hsplit : ∀ {α : Type} (f g h : LineId → α) (e : LineId → α → α),
        (∀ z, g z = if z ∈ [y] then e z (f z) else f z) → (∀ z, h z = if z ∈ ls then e z (g z) else g z) →
        ∀ z, h z = if z ∈ y :: ls then e z (f z) else f z := by
      intro α f g h e hg hh z
      rw [hh, hg]
      by_cases hz : z = y
      · subst hz; simp [hy]
      · simp [hz]
    have hfirstHead : ∀ h, v.head h = if h ∈ s.headsOf y then (s.head h).atRunEnd else s.head h := fun h => by
      split
      · rename_i hh; exact hfirst.headEnded h ⟨y, List.mem_singleton_self y, hh⟩
      · rename_i hh; exact hfirst.headKept h fun z hz => by rw [List.mem_singleton.mp hz]; exact hh
    have hfirstLink : ∀ k, (LinkServes s y k → v.scanLink k = scanAbandoned (s.scanLink k)) ∧
        (¬LinkServes s y k → v.scanLink k = s.scanLink k) := fun k =>
      ⟨fun hk => hfirst.linkEnded k ⟨y, List.mem_singleton_self y, hk⟩,
        fun hk => hfirst.linkKept k fun z hz => by rw [List.mem_singleton.mp hz]; exact hk⟩
    refine ⟨by rw [hrest.frame, hfirst.frame], hsplit s.line v.line t.line (fun _ => lineEnded) hfirst.line hrest.line,
      hsplit s.coilRec v.coilRec t.coilRec (fun _ => coilEnded) hfirst.coilRec hrest.coilRec,
      hsplit s.pos v.pos t.pos (fun _ => posEnded) hfirst.pos hrest.pos,
      hsplit s.spanRec v.spanRec t.spanRec (fun _ => SpanRec.emptied) hfirst.spanRec hrest.spanRec, fun z => ?_,
      fun h hh => ?_, fun h hh => ?_, fun k hk => ?_, fun k hk => ?_⟩
    · rw [hrest.knot, hfirst.knot]
      by_cases hz : z = y
      · subst hz; simp [hy]
      · by_cases hzls : z ∈ ls
        · simp [hz, hzls, hline z hzls]
        · simp [hz, hzls]
    · by_cases hlater : ∃ z ∈ ls, h ∈ s.headsOf z
      · rw [hrest.headEnded h (by simpa only [hheads] using hlater), hfirstHead]
        split <;> rfl
      · have hthis : h ∈ s.headsOf y := by
          obtain ⟨z, hz, hhz⟩ := hh
          rcases List.mem_cons.mp hz with rfl | hzls
          · exact hhz
          · exact absurd ⟨z, hzls, hhz⟩ hlater
        rw [hrest.headKept h (fun z hz hhz => hlater ⟨z, hz, hheads z ▸ hhz⟩), hfirstHead, if_pos hthis]
    · rw [hrest.headKept h (fun z hz hhz => hh z (List.mem_cons_of_mem _ hz) (hheads z ▸ hhz)), hfirstHead,
        if_neg (hh y (List.mem_cons_self ..))]
    · by_cases hlater : ∃ z ∈ ls, LinkServes s z k
      · obtain ⟨z, hz, hzk⟩ := hlater
        rw [hrest.linkEnded k ⟨z, hz, (hserves z hz k).mpr hzk⟩]
        by_cases hthis : LinkServes s y k
        · rw [(hfirstLink k).1 hthis]; rfl
        · rw [(hfirstLink k).2 hthis]
      · have hthis : LinkServes s y k := by
          obtain ⟨z, hz, hzk⟩ := hk
          rcases List.mem_cons.mp hz with rfl | hzls
          · exact hzk
          · exact absurd ⟨z, hzls, hzk⟩ hlater
        rw [hrest.linkKept k (fun z hz hzk => hlater ⟨z, hz, (hserves z hz k).mp hzk⟩), (hfirstLink k).1 hthis]
    · rw [hrest.linkKept k (fun z hz hzk => hk z (List.mem_cons_of_mem _ hz) ((hserves z hz k).mp hzk)),
        (hfirstLink k).2 (hk y (List.mem_cons_self ..))]

/-! ## The last cut of the runs -/

/-- What the last cut of the lines of a list leaves, the cut being that of `l` (R10). -/
structure LastCut (s t : State) (ls : List LineId) (l : LineId) (x : LineId → CoilRecord) : Prop where
  frame : t = { s with
    coils := t.coils, spanRecs := t.spanRecs, lanes := t.lanes, lines := t.lines, heads := t.heads, knots := t.knots
    link := t.link, positions := t.positions, pack := t.pack, linkK1 := t.linkK1, linkK2 := t.linkK2 }
  granted : QueuedAndGranted s t fun y => if y ∈ ls then [x y] else []
  ended : RunsEnded s t ls
  released : ∀ y, y ∉ ls → Releases s l y → t.line y = withoutCutHeld (s.line y)
  paired : ∀ y, y ∉ ls → s.follower l = some y → t.coilRec y = { s.coilRec y with pairedHold := false }
  told : TellsAs t (ls.foldl (fun v y => cutTold v y (x y)) s)

theorem lineEnded_withoutCutHeld (r : LineRec) : lineEnded (withoutCutHeld r) = lineEnded r := by
  unfold withoutCutHeld
  split
  · rfl
  · rfl

/-- The columns' counts stay at the end of a run, and their spans do not (R93). -/
theorem knotAtRunEnd_column (k : KnotRec) (c : Nat) : k.atRunEnd.column c = ⟨(k.column c).misses, none⟩ := by
  unfold KnotRec.atRunEnd KnotRec.column
  rw [Vector.getElem?_map]
  cases k.columns[c]? <;> rfl

theorem emptied_listsEmpty (r : SpanRec) : ListsEmpty r.emptied := ⟨rfl, rfl, rfl, rfl, rfl⟩

/-- The coil number advanced. -/
def numbered (k : CoilRec) : CoilRec := { k with number := nextNumber k.number }

theorem numbered_foldl (hnodup : ls.Nodup) (s : State) :
    ls.foldl (fun s x => s.modCoil x numbered) s = { s with coils := (ls.foldl (fun s x => s.modCoil x numbered) s).coils } ∧
    ∀ y, (ls.foldl (fun s x => s.modCoil x numbered) s).coilRec y = if y ∈ ls then numbered (s.coilRec y) else s.coilRec y :=
  foldl_lines (get := State.coilRec) (g := fun _ => numbered) (P := fun t => t = { s with coils := t.coils })
    (fun t y ht => by rw [ht]; rfl) (fun t y z _ => modCoil_coilRec t y numbered z) hnodup rfl

theorem cutSettled_endOfRun (u : State) (ls : List LineId) (l : LineId) : cutSettled u ls l .endOfRun =
    (ls.foldl State.endRun (ls.foldl State.notifyCut
      ((ls.foldl (fun s x => s.modCoil x numbered) u).releasePair l))).evaluateGrant := rfl

theorem cutSettled_last (hl : l ∈ ls) (hnodup : ls.Nodup) (hclosed : RecordsClosed s u ls x) :
    LastCut s (cutSettled u ls l .endOfRun) ls l x := by
  rw [cutSettled_endOfRun]
  obtain ⟨hframe2, hcoil2⟩ := numbered_foldl hnodup u
  generalize ls.foldl (fun s x => s.modCoil x numbered) u = u2 at hframe2 hcoil2
  have hreleased := pairReleased_releasePair u2 l
  generalize u2.releasePair l = u3 at hreleased
  have htoldframe := foldl_notifyCut_frame ls u3
  have hlane3 : ∀ y, u3.lane y = { s.lane y with queue := (s.lane y).queue ++ if y ∈ ls then [x y] else [] } := fun y => by
    have : u3.lane y = u.lane y := by rw [hreleased.frame, hframe2]; rfl
    rw [this, hclosed.lane]
    split
    · rfl
    · rw [List.append_nil]
  have hlink := tellsAs_notifyCut (ls := ls) (x := x) (s := u3) (t := s)
    ⟨by rw [hreleased.frame, hframe2, hclosed.frame], by rw [hreleased.frame, hframe2, hclosed.frame]; rfl⟩
    fun y hy => by rw [hlane3, if_pos hy]
  generalize ls.foldl State.notifyCut u3 = u4 at htoldframe hlink
  have hdone := endRuns_done hnodup u4
  generalize ls.foldl State.endRun u4 = u5 at hdone
  have hgrant := evaluateGrant_eq u5
  have hline2 : ∀ y, u2.line y = s.line y := fun y => by rw [hframe2, hclosed.frame]; rfl
  have hfollower : u2.follower l = s.follower l := follower_congr (fun y => by rw [hline2]) l
  have hpaired2 : ∀ y, (u2.coilRec y).pairedHold = (s.coilRec y).pairedHold := fun y => by
    rw [hcoil2, hclosed.coilRec]
    by_cases hy : y ∈ ls
    · rw [if_pos hy, if_pos hy]; rfl
    · rw [if_neg hy, if_neg hy]
  have hreleases : ∀ y, Releases u2 l y ↔ Releases s l y := fun y => by unfold Releases; rw [hfollower, hpaired2]
  have hline4 : ∀ y, u4.line y = u3.line y := fun y => by rw [htoldframe]; rfl
  have hcoil4 : ∀ y, u4.coilRec y = u3.coilRec y := fun y => by rw [htoldframe]; rfl
  have hhead4 : ∀ h, u4.head h = s.head h := fun h => by rw [htoldframe, hreleased.frame, hframe2, hclosed.frame]; rfl
  have hpos4 : ∀ y, u4.pos y = s.pos y := fun y => by rw [htoldframe, hreleased.frame, hframe2, hclosed.frame]; rfl
  have hknot4 : ∀ y, u4.knot y = s.knot y := fun y => by rw [htoldframe, hreleased.frame, hframe2, hclosed.frame]; rfl
  have hspan4 : ∀ y, u4.spanRec y = u.spanRec y := fun y => by rw [htoldframe, hreleased.frame, hframe2]; rfl
  have hlinks4 : ∀ k, u4.scanLink k = s.scanLink k := fun k => by
    rw [htoldframe, hreleased.frame, hframe2, hclosed.frame]; cases k <;> rfl
  have hfields4 : ∀ y, (u4.line y).kind = (s.line y).kind ∧ (u4.line y).cfg = (s.line y).cfg := fun y => by
    rw [hline4]
    by_cases hy : Releases u2 l y
    · rw [hreleased.released y hy, hline2]
      exact ⟨(withoutCutHeld_fields _).2.2.2, (withoutCutHeld_fields _).1⟩
    · rw [hreleased.otherLine y hy, hline2]
      exact ⟨rfl, rfl⟩
  have hserves : ∀ y k, LinkServes u4 y k ↔ LinkServes s y k := fun y k => by
    unfold LinkServes; rw [(hfields4 y).1, (hfields4 y).2]
  have hheads : ∀ y, u4.headsOf y = s.headsOf y := headsOf_congr fun h => by rw [hhead4]
  have hline5 : ∀ y, u5.evaluateGrant.line y = u5.line y := fun y => by rw [hgrant]; rfl
  have hcoil5 : ∀ y, u5.evaluateGrant.coilRec y = u5.coilRec y := fun y => by rw [hgrant]; rfl
  have hhead5 : ∀ h, u5.evaluateGrant.head h = u5.head h := fun h => by rw [hgrant]; rfl
  have hknot5 : ∀ y, u5.evaluateGrant.knot y = u5.knot y := fun y => by rw [hgrant]; rfl
  have hlinks5 : ∀ k, u5.evaluateGrant.scanLink k = u5.scanLink k := fun k => by rw [hgrant]; cases k <;> rfl
  have hended : ∀ y ∈ ls, u5.evaluateGrant.line y = lineEnded (s.line y) := fun y hy => by
    rw [hline5, hdone.line, if_pos hy, hline4]
    by_cases hrel : Releases u2 l y
    · rw [hreleased.released y hrel, hline2, lineEnded_withoutCutHeld]
    · rw [hreleased.otherLine y hrel, hline2]
  have hcoils : ∀ y ∈ ls, u5.evaluateGrant.coilRec y = ⟨numberAfter (s.coilRec y).number, none, .none, false,
      some (s.now + (s.line y).cfg.cutterPulse * 1000)⟩ := fun y hy => by
    have hbefore : coilEnded (u3.coilRec y) = coilEnded (u2.coilRec y) := by
      by_cases hf : u2.follower l = some y
      · rw [hreleased.paired y hf]; rfl
      · rw [hreleased.otherCoil y hf]
    rw [hcoil5, hdone.coilRec, if_pos hy, hcoil4, hbefore, hcoil2, if_pos hy, hclosed.coilRec, if_pos hy, ← nextNumber_eq]
    rfl
  have hcoilOther : ∀ y, y ∉ ls → u5.evaluateGrant.coilRec y = u3.coilRec y ∧ u2.coilRec y = s.coilRec y := fun y hy => by
    rw [hcoil5, hdone.coilRec, if_neg hy, hcoil4, hcoil2, if_neg hy, hclosed.coilRec, if_neg hy]
    exact ⟨rfl, rfl⟩
  have hlineOther : ∀ y, y ∉ ls → u5.evaluateGrant.line y = u3.line y := fun y hy => by
    rw [hline5, hdone.line, if_neg hy, hline4]
  refine ⟨?frame, ?granted, ?ended, fun y hy hrel => ?released, fun y hy hf => ?paired, ?told⟩
  case frame => rw [hgrant, hdone.frame, htoldframe, hreleased.frame, hframe2, hclosed.frame]
  case granted =>
    refine ⟨u5, rfl, by rw [hdone.frame, htoldframe, hreleased.frame, hframe2, hclosed.frame], fun y => ?_⟩
    rw [← hlane3, hdone.frame, htoldframe]
    rfl
  case released =>
    rw [hlineOther y hy, hreleased.released y ((hreleases y).mpr hrel), hline2]
  case paired =>
    rw [(hcoilOther y hy).1, hreleased.paired y (hfollower.trans hf), (hcoilOther y hy).2]
  case told =>
    exact TellsAs.trans ⟨by rw [hgrant, hdone.frame], by rw [hgrant, hdone.frame]; rfl⟩ hlink
  case ended =>
    have hpos : ∀ y, u5.evaluateGrant.pos y = u5.pos y := fun y => by rw [hgrant]; rfl
    have hspan : ∀ y, u5.evaluateGrant.spanRec y = u5.spanRec y := fun y => by rw [hgrant]; rfl
    refine ⟨hended, hcoils, fun y hy => ?_, fun y hy => ?_, fun h y hy hassigned => ?_, fun h hnot => ?_,
      fun y hy => ⟨fun hrope => ?_, fun hnet => ?_⟩, fun y hy k hnet hlinked => ?_, fun k hnot => ?_, fun y hy => ?_,
      fun y hy hcase => ?_, ?_⟩
    · rw [hpos, hdone.pos, if_pos hy, hpos4]; rfl
    · rw [hspan, hdone.spanRec, if_pos hy]; exact emptied_listsEmpty _
    · rw [hhead5, hdone.headEnded h ⟨y, hy, by rw [hheads]; exact mem_headsOf_iff_assigned.mpr hassigned⟩, hhead4]
      rfl
    · rw [hhead5, hdone.headKept h (fun y hy hh => hnot y hy (mem_headsOf_iff_assigned.mp (hheads y ▸ hh))), hhead4]
    · have hnotnet : ¬(y ∈ ls ∧ (u4.line y).kind = .net) := fun h => by
        rw [(hfields4 y).1, hrope] at h
        exact nomatch h.2
      rw [hknot5, hdone.knot, if_neg hnotnet, hknot4]
    · have hisnet : y ∈ ls ∧ (u4.line y).kind = .net := ⟨hy, by rw [(hfields4 y).1]; exact hnet⟩
      rw [hknot5, hdone.knot, if_pos hisnet, hknot4]
      exact ⟨rfl, knotAtRunEnd_column _⟩
    · rw [hlinks5, hdone.linkEnded k ⟨y, hy, (hserves y k).mpr ⟨hnet, hlinked⟩⟩, hlinks4]
      rfl
    · refine (hlinks5 k).trans ((hdone.linkKept k fun y hy hk => ?_).trans (hlinks4 k))
      obtain ⟨hnet, hlinked⟩ := (hserves y k).mp hk
      rcases hnot y hy with h | h
      · rw [h] at hnet; cases hnet
      · exact h hlinked
    · have hnotnet : ¬(y ∈ ls ∧ (u4.line y).kind = .net) := fun h => hy h.1
      refine ⟨?_, ?_, ?_⟩
      · rw [hpos, hdone.pos, if_neg hy, hpos4]
      · rw [hspan, hdone.spanRec, if_neg hy, hspan4, hclosed.spanRec, if_neg hy]
      · rw [hknot5, hdone.knot, if_neg hnotnet, hknot4]
    · obtain ⟨hcoilNow, hcoilBefore⟩ := hcoilOther y hy
      have hyl : y ≠ l := fun e => hy (e ▸ hl)
      have hunpaired : s.follower l = some y → (s.coilRec y).pairedHold = false := fun hf =>
        hcase.resolve_left fun h => h l hl hf
      have hrel : ¬Releases u2 l y := fun h => by
        obtain ⟨hf, hp⟩ := ((hreleases y).mp h).resolve_left hyl
        rw [hunpaired hf] at hp
        cases hp
      refine ⟨by rw [hlineOther y hy, hreleased.otherLine y hrel, hline2], ?_⟩
      by_cases hf : s.follower l = some y
      · rw [hcoilNow, hreleased.paired y (hfollower.trans hf), hcoilBefore, coilRec_notPaired (hunpaired hf)]
      · rw [hcoilNow, hreleased.otherCoil y (hfollower ▸ hf), hcoilBefore]
    · exact ⟨by rw [hgrant, hdone.frame, htoldframe, hreleased.frame, hframe2, hclosed.frame],
        by rw [hgrant, hdone.frame, htoldframe, hreleased.frame, hframe2, hclosed.frame]⟩

end Sys2Proof.Proofs

/-! CUT NOW and RUN END: the statements O36 and O37. -/

namespace Sys2Proof.Proofs

open Sys2Proof.Machine Sys2Proof.Safety

variable {s t : State} {l f : LineId} {c d : OpenCoil} {r q : Recipe} {x y : CoilRecord}

/-! ## The requests (R9, R137) -/

theorem holdReason_iff_of_alone (hf : ∀ f, s.follower l = some f → (s.line f).state = .idle) : HoldReason s l ↔
    s.guard.latch = true ∨ 3 ≤ (s.lane l).queue.length ∨ (s.coilRec l).cutterPulse ≠ none := by
  unfold HoldReason
  refine or_congr_right (or_congr_right ⟨fun h => ?_, .inl⟩)
  rcases h with h | ⟨f, hfollow, hrun, -⟩
  · exact h
  · exact absurd (hf f hfollow) hrun

theorem cutRefusal_eq_none (hrun : (s.line l).state ≠ .idle)
    (hleader : ∀ y, (s.line l).cfg.leader = some y → (s.line y).state = .idle) (hfree : ¬HoldReason s l) :
    s.cutRefusal l = none := by
  have hany : (s.holds l).any = false := Bool.eq_false_iff.mpr (mt (holds_any_iff s l).mp hfree)
  simp only [HoldSet.any, Bool.or_eq_false_iff] at hany
  obtain ⟨⟨⟨⟨hguard, hfull⟩, hpulse⟩, hffull⟩, hfpulse⟩ := hany
  simp only [State.cutRefusal, runOpen_of_ne_idle hrun, leaderRunning_eq_false hleader, hguard, hfull, hpulse, hffull, hfpulse,
    Bool.true_eq_false, Bool.false_eq_true, Bool.or_self, if_false]

theorem cutRefusal_of_ready (h : CutReady s l c r) (hf : ∀ f, s.follower l = some f → (s.line f).state ≠ .idle →
    (s.lane f).queue.length < 3 ∧ (s.coilRec f).cutterPulse = none) : s.cutRefusal l = none := by
  refine cutRefusal_eq_none h.runs h.noLeader fun hhold => ?_
  rcases hhold with hlatch | hfull | hpulse | ⟨f, hfollow, hrun, hfull | hpulse⟩
  · rw [h.latchClear] at hlatch; cases hlatch
  · exact absurd h.room (Nat.not_lt.mpr hfull)
  · exact hpulse h.cutterIdle
  · exact absurd (hf f hfollow hrun).1 (Nat.not_lt.mpr hfull)
  · exact hpulse (hf f hfollow hrun).2

theorem cutNow_of_ready (h : s.cutRefusal l = none) : s.cutNow (LineId.code l) = accept (s.performCut l .onRequest)
    (encList (fun r => encCoilId r.line r.number ++ enc32 r.length ++ encCoilFlags r.flags)
      ((s.performCut l .onRequest).justClosed (s.cutLines l))) := by
  simp only [State.cutNow, withLine_code, h]

theorem runEnd_of_ready (h : s.cutRefusal l = none) : s.runEnd (LineId.code l) = accept (s.performCut l .endOfRun)
    (encList (fun r => encCoilId r.line r.number) ((s.performCut l .endOfRun).justClosed (s.cutLines l))) := by
  simp only [State.runEnd, withLine_code, h]

/-! ## The records closed, in the acceptance -/

/-- The record a cut closed stands last in its lane queue, but for what a grant counts in it. -/
theorem last_of_queued {xs : List CoilRecord} (h : (t.lane l).queue.map unserved = xs ++ [x]) :
    ∃ x', (t.lane l).queue.getLast? = some x' ∧ unserved x' = x := by
  have hlast : ((t.lane l).queue.map unserved).getLast? = some x := by rw [h, List.getLast?_concat]
  rw [List.getLast?_map] at hlast
  exact Option.map_eq_some_iff.mp hlast

/-- The acceptances name of a record what a grant does not count. -/
theorem justClosed_alone {g : CoilRecord → List Byte} (hg : ∀ z, g z = g (unserved z)) {xs : List CoilRecord}
    (h : (t.lane l).queue.map unserved = xs ++ [x]) : encList g (t.justClosed [l]) = enc8 1 ++ g x := by
  obtain ⟨x', hlast, hx⟩ := last_of_queued h
  have hclosed : t.justClosed [l] = [x'] := by simp [State.justClosed, hlast]
  rw [hclosed, ← hx, ← hg, encList, List.flatMap_singleton]
  rfl

theorem justClosed_pair {g : CoilRecord → List Byte} (hg : ∀ z, g z = g (unserved z)) {xs ys : List CoilRecord}
    (hx : (t.lane l).queue.map unserved = xs ++ [x]) (hy : (t.lane f).queue.map unserved = ys ++ [y]) :
    encList g (t.justClosed [l, f]) = enc8 2 ++ g x ++ g y := by
  obtain ⟨x', hlastx, rfl⟩ := last_of_queued hx
  obtain ⟨y', hlasty, rfl⟩ := last_of_queued hy
  have hclosed : t.justClosed [l, f] = [x', y'] := by simp [State.justClosed, hlastx, hlasty]
  rw [hclosed, ← hg, ← hg, encList, List.flatMap_cons, List.flatMap_singleton, List.append_assoc]
  rfl

/-! ## A line that cuts alone -/

theorem RunsEnded.of_entered {kind tag : Byte} {ls : List LineId} (h : RunsEnded (s.entered kind tag) t ls) :
    RunsEnded s t ls := by
  obtain ⟨lines, coils, positions, lists, heads, otherHeads, knots, links, otherLinks, otherBlocks, otherLines, recipes⟩ := h
  exact ⟨lines, coils, positions, lists, heads, otherHeads, knots, links, otherLinks, otherBlocks, otherLines, recipes⟩

/-- The last cut of the run of a line that cuts alone. -/
theorem lastCut_alone (hc : (s.coilRec l).coil = some c) (hr : s.recipe c.slot = some r)
    (hf : ∀ f, s.follower l = some f → (s.line f).state = .idle) :
    LastCut s (s.performCut l .endOfRun) [l] l fun _ => aloneRecord s l c r .endOfRun := by
  rw [performCut_eq, cutLines_of_alone hf]
  exact cutSettled_last (List.mem_singleton_self l) (List.pairwise_singleton _ l)
    (recordsClosed_alone hc hr (runningFollower_eq_none hf) .endOfRun)

/-- Settles O36: CUT NOW and RUN END of a line without a running follower. -/
theorem cutClosesCoilOfLineAlone : Obligations.CutClosesCoilOfLineAlone := by
  intro s tag l c r htakes hready hf
  have hnone : ∀ {P : LineId → Prop}, ∀ f, s.follower l = some f → (s.line f).state ≠ .idle → P f := fun f hfollow hrun =>
    absurd (hf f hfollow) hrun
  constructor
  · have hcut := performCut_alone (s := s.entered 0x25 tag) hready.runs hready.coil hready.recipe hf
      (why := .onRequest) (by nofun) ((s.entered 0x25 tag).coilRec l).stage
    rw [staged_self] at hcut
    have hrefusal : (s.entered 0x25 tag).cutRefusal l = none :=
      cutRefusal_of_ready (s := s.entered 0x25 tag) (c := c) (r := r)
        ⟨hready.runs, hready.noLeader, hready.latchClear, hready.room, hready.cutterIdle, hready.coil, hready.recipe⟩ hnone
    have haccept := cutNow_of_ready hrefusal
    rw [cutLines_of_alone (s := s.entered 0x25 tag) hf, justClosed_alone (fun _ => rfl) hcut.queued] at haccept
    exact ⟨_, _, request_accepted htakes haccept, hcut, ownFlags_short (s.entered 0x25 tag) l r false false, rfl,
      ownFlags_endSplice (s.entered 0x25 tag) l r rfl false false⟩
  · have hcut := lastCut_alone (s := s.entered 0x21 tag) hready.coil hready.recipe hf
    have hrefusal : (s.entered 0x21 tag).cutRefusal l = none :=
      cutRefusal_of_ready (s := s.entered 0x21 tag) (c := c) (r := r)
        ⟨hready.runs, hready.noLeader, hready.latchClear, hready.room, hready.cutterIdle, hready.coil, hready.recipe⟩ hnone
    have haccept := runEnd_of_ready hrefusal
    have hqueue := queuedAndGranted_queue hcut.granted
    have hown := hqueue l
    rw [if_pos (List.mem_singleton_self l)] at hown
    rw [cutLines_of_alone (s := s.entered 0x21 tag) hf, justClosed_alone (fun _ => rfl) hown] at haccept
    have hnot : ∀ y, y ≠ l → y ∉ [l] := fun y hy h => hy (List.mem_singleton.mp h)
    refine ⟨_, _, request_accepted htakes haccept, ?_, rfl, rfl, rfl, ?_, rfl, rfl, rfl, hown, fun y hy => ?_, ?_,
      RunsEnded.of_entered hcut.ended, fun y hy hfy hp => ⟨?_, hcut.paired y (hnot y hy) hfy⟩, hcut.told.link, ?_, ?_, ?_⟩
    · exact closedFrom_closedRecord (s := s) hready.coil r .endOfRun true none false
    · exact ownFlags_endSplice s l r rfl false false
    · refine (hqueue y).trans ?_
      rw [if_neg (hnot y hy), List.map_nil, List.append_nil]
      rfl
    · have hgranted := hcut.granted
      simp only [List.mem_singleton] at hgranted
      exact hgranted
    · exact hcut.released y (hnot y hy) (.inr ⟨hfy, hp⟩)
    · rw [hcut.frame]; rfl
    · rw [hcut.frame]; rfl
    · rw [hcut.frame]; exact ⟨rfl, rfl, rfl, rfl, rfl⟩

/-! ## A pair -/

/-- A line that names no leader with an open run does not follow itself while it runs. -/
theorem follower_ne_of_noLeader (hrun : (s.line l).state ≠ .idle)
    (hleader : ∀ y, (s.line l).cfg.leader = some y → (s.line y).state = .idle) (hf : s.follower l = some f) : f ≠ l := by
  rintro rfl
  have hnames : (s.line f).cfg.leader = some f := by simpa using List.find?_some hf
  exact hrun (hleader f hnames)

theorem runOpen_rebound {b : LineRec} (h : t.line l = rebound b) (hb : b.state ≠ .idle) : t.runOpen l = true :=
  runOpen_of_ne_idle (by rw [h]; exact hb)

theorem withoutCutHeld_ne_idle {b : LineRec} (h : b.state ≠ .idle) : (withoutCutHeld b).state ≠ .idle :=
  mt (withoutCutHeld_idle_iff b).mp h

/-- Settles O37: CUT NOW and RUN END of a line with a running follower. -/
theorem pairedCutClosesBothCoils : Obligations.PairedCutClosesBothCoils := by
  intro s tag l f c d r q htakes hready hf hrunf hroom hpulse hd hq
  have hne := follower_ne_of_noLeader hready.runs hready.noLeader hf
  have hfree : ∀ g, s.follower l = some g → (s.line g).state ≠ .idle →
      (s.lane g).queue.length < 3 ∧ (s.coilRec g).cutterPulse = none := fun g hg _ => by
    obtain rfl : f = g := Option.some.inj (hf.symm.trans hg)
    exact ⟨hroom, hpulse⟩
  constructor
  · have hcut := performCut_pair (s := s.entered 0x25 tag) hne hready.runs hready.coil hready.recipe hf hrunf hd hq
      (why := .onRequest) (by nofun) ((s.entered 0x25 tag).coilRec l).stage
    rw [staged_self] at hcut
    have hrefusal : (s.entered 0x25 tag).cutRefusal l = none :=
      cutRefusal_of_ready (s := s.entered 0x25 tag) (c := c) (r := r)
        ⟨hready.runs, hready.noLeader, hready.latchClear, hready.room, hready.cutterIdle, hready.coil, hready.recipe⟩ hfree
    have haccept := cutNow_of_ready hrefusal
    obtain ⟨hqueue, hqueuef⟩ := hcut.records.queued
    rw [cutLines_of_pair (s := s.entered 0x25 tag) hf hrunf, justClosed_pair (fun _ => rfl) hqueue hqueuef] at haccept
    obtain ⟨hclosed, hclosedf⟩ := hcut.records.closed
    rw [hclosed.line, hclosedf.line] at haccept
    refine ⟨_, _, _, request_accepted htakes haccept, hcut, runOpen_rebound hcut.line (withoutCutHeld_ne_idle hready.runs),
      runOpen_rebound hcut.followerLine ?_, ?_⟩
    · split
      · exact withoutCutHeld_ne_idle hrunf
      · exact hrunf
    · rw [pairRecords_own hne]
      exact ⟨ownFlags_short (s.entered 0x25 tag) l r true _, rfl, ownFlags_endSplice (s.entered 0x25 tag) l r rfl true _⟩
  · have hcut : LastCut (s.entered 0x21 tag) ((s.entered 0x21 tag).performCut l .endOfRun) [l, f] l
        (pairRecords (s.entered 0x21 tag) l f c d r q .endOfRun) := by
      rw [performCut_eq, cutLines_of_pair (s := s.entered 0x21 tag) hf hrunf]
      exact cutSettled_last (by simp) (by simp [hne.symm]) (recordsClosed_pair (s := s.entered 0x21 tag) hne hready.coil
        hready.recipe (runningFollower_eq_some.mpr ⟨hf, hrunf⟩) hd hq .endOfRun)
    have hrefusal : (s.entered 0x21 tag).cutRefusal l = none :=
      cutRefusal_of_ready (s := s.entered 0x21 tag) (c := c) (r := r)
        ⟨hready.runs, hready.noLeader, hready.latchClear, hready.room, hready.cutterIdle, hready.coil, hready.recipe⟩ hfree
    have haccept := runEnd_of_ready hrefusal
    have hrecords := pairClosed_of_queued (s := s.entered 0x21 tag) hne hready.coil hd hcut.granted
      (fun y hy => by rw [hcut.ended.coils y hy]; nofun) (fun y hy => by rw [hcut.ended.positions y hy])
      (by rw [hcut.frame]) (by rw [hcut.frame]) (by rw [hcut.frame]; exact ⟨rfl, rfl, rfl, rfl, rfl⟩)
    obtain ⟨hqueue, hqueuef⟩ := hrecords.queued
    rw [cutLines_of_pair (s := s.entered 0x21 tag) hf hrunf, justClosed_pair (fun _ => rfl) hqueue hqueuef] at haccept
    obtain ⟨hclosed, hclosedf⟩ := hrecords.closed
    rw [hclosed.line, hclosedf.line] at haccept
    refine ⟨_, _, _, request_accepted htakes haccept, hrecords, ?_, ?_, RunsEnded.of_entered hcut.ended, hcut.told.link, ?_⟩
    · rw [pairRecords_own hne]; rfl
    · rw [pairRecords_follower]; rfl
    · rw [pairRecords_own hne]
      exact ⟨rfl, rfl, ownFlags_endSplice (s.entered 0x21 tag) l r rfl true _⟩

end Sys2Proof.Proofs

/-! Held cuts tested again, and the ends of pulses: the statement O46 (R55, R133, R135). -/

namespace Sys2Proof.Proofs

open Sys2Proof.Machine Sys2Proof.Safety

variable {s t : State} {l : LineId}

/-! ## A held cut tested again (R133) -/

theorem retest_of_not_held (h : ∀ p, (s.coilRec l).stage ≠ .held p) : s.retest l = s := by
  unfold State.retest
  cases hstage : (s.coilRec l).stage with
  | none => rfl
  | placed p => rfl
  | held p => exact absurd hstage (h p)

theorem retest_of_reason {p : Placement} (h : (s.coilRec l).stage = .held p) (hhold : HoldReason s l) : s.retest l = s := by
  unfold State.retest
  rw [h]
  exact if_pos ((holds_any_iff s l).mpr hhold)

theorem retest_of_early {p : Placement} (h : (s.coilRec l).stage = .held p) (hfree : ¬HoldReason s l)
    (hearly : (s.pos l).position < p.target) : s.retest l = (staged s l (.placed p)).releasePair l := by
  unfold State.retest
  rw [h]
  exact (if_neg (mt (holds_any_iff s l).mp hfree)).trans (if_neg (Nat.not_le.mpr hearly))

theorem retest_of_due {p : Placement} (h : (s.coilRec l).stage = .held p) (hfree : ¬HoldReason s l)
    (hdue : p.target ≤ (s.pos l).position) : s.retest l = s.performCut l (.placement p) := by
  unfold State.retest
  rw [h]
  exact (if_neg (mt (holds_any_iff s l).mp hfree)).trans (if_pos hdue)

/-- A cut PLACED again, with CUT_HELD gone. -/
theorem returnedToPlaced_releasePair (s : State) (l : LineId) (p : Placement) :
    ReturnedToPlaced s ((staged s l (.placed p)).releasePair l) l p := by
  have hreleased := pairReleased_releasePair (staged s l (.placed p)) l
  generalize (staged s l (.placed p)).releasePair l = t at hreleased
  have hfollower : (staged s l (.placed p)).follower l = s.follower l := rfl
  have hstaged := staged_coilRec s l (.placed p)
  have hpaired : ∀ y, ((staged s l (.placed p)).coilRec y).pairedHold = (s.coilRec y).pairedHold := fun y => by
    rw [hstaged]
    split
    · rename_i hy; rw [hy]
    · rfl
  have hown : ∃ b, t.coilRec l = { s.coilRec l with stage := .placed p, pairedHold := b } := by
    by_cases hf : s.follower l = some l
    · exact ⟨false, by rw [hreleased.paired l hf, hstaged, if_pos rfl]⟩
    · exact ⟨(s.coilRec l).pairedHold, by rw [hreleased.otherCoil l hf, hstaged, if_pos rfl]⟩
  obtain ⟨b, hown⟩ := hown
  refine ⟨by rw [hreleased.frame]; rfl, hreleased.released l (.inl rfl), by rw [hown], by rw [hown], by rw [hown], by rw [hown],
    fun y hy hf hp => ⟨?_, ?_⟩, fun y hy hcase => ⟨?_, ?_⟩⟩
  · exact hreleased.released y (.inr ⟨hf, (hpaired y).trans hp⟩)
  · rw [hreleased.paired y hf, hstaged, if_neg hy]
  · refine hreleased.otherLine y fun h => ?_
    obtain ⟨hf, hp⟩ := h.resolve_left hy
    rw [hpaired] at hp
    exact hcase.elim (fun h => h hf) fun h => by rw [h] at hp; cases hp
  · by_cases hf : s.follower l = some y
    · rw [hreleased.paired y hf, hstaged, if_neg hy, coilRec_notPaired (hcase.resolve_left (not_not_intro hf))]
    · rw [hreleased.otherCoil y hf, hstaged, if_neg hy]

/-- A retest does what the rules name: nothing, PLACED again, or the cut. -/
theorem retested_retest (s : State) (l : LineId) : Retested s (s.retest l) l := by
  refine ⟨retest_of_not_held, fun p hp => ⟨retest_of_reason hp, fun hfree hearly => ?_, fun hfree hdue c r hrun hc hr => ?_⟩⟩
  · rw [retest_of_early hp hfree hearly]
    exact returnedToPlaced_releasePair s l p
  · rw [retest_of_due hp hfree hdue]
    have hcut := performCut_atPlacement p hrun hc hr (s.coilRec l).stage
    rwa [staged_self] at hcut

theorem retestAround_of_none (h : (s.line l).cfg.leader = none) : s.retestAround l = s.retest l := by
  simp only [State.retestAround, h]

theorem retestAround_of_leader {x : LineId} (h : (s.line l).cfg.leader = some x) :
    s.retestAround l = (s.retest l).retest x := by
  simp only [State.retestAround, h]

theorem retestedAround_retestAround (s : State) (l : LineId) : RetestedAround s (s.retestAround l) l := by
  refine ⟨fun h => ?_, fun x h => ⟨s.retest l, retested_retest s l, ?_⟩⟩
  · rw [retestAround_of_none h]
    exact retested_retest s l
  · rw [retestAround_of_leader h]
    exact retested_retest (s.retest l) x

/-- Where neither the line's cut nor its leader's is held nothing is tested. -/
theorem retestAround_of_not_held (h : ∀ p, (s.coilRec l).stage ≠ .held p)
    (hleader : ∀ x, (s.line l).cfg.leader = some x → ∀ p, (s.coilRec x).stage ≠ .held p) : s.retestAround l = s := by
  cases hx : (s.line l).cfg.leader with
  | none => rw [retestAround_of_none hx, retest_of_not_held h]
  | some x => rw [retestAround_of_leader hx, retest_of_not_held h, retest_of_not_held (hleader x hx)]

theorem retestAround_steady (s : State) (l : LineId) : Steady s (s.retestAround l) := by
  cases hx : (s.line l).cfg.leader with
  | none => rw [retestAround_of_none hx]; exact .retest s l
  | some x => rw [retestAround_of_leader hx]; exact (Steady.retest s l).trans (.retest _ x)

/-! ## The ends of pulses (R55, R135) -/

/-- Settles O46: the pulse's output is released at its end, and then the held cuts are tested again. -/
theorem pulseEndReleasesOutput : Obligations.PulseEndReleasesOutput := by
  refine fun s l e => ⟨fun hpulse => ?_, fun hpulse => ?_⟩
  · have hexec : exec (.markerPulseEnd l) s =
        done ((s.advanceTo e).modPos l fun p => { p with markerPulse := none }) := by
      show execMarkerPulseEnd l s = _
      simp only [execMarkerPulseEnd, hpulse]
    rw [advanceTo_eq] at hexec
    refine ⟨_, hexec, ?_, rfl, ?_, fun x hx => ?_, rfl⟩
    · unfold State.markerOut
      rw [modPos_pos_self]
      rfl
    · rw [modPos_pos_self]
      rfl
    · rw [modPos_pos_of_ne _ _ _ hx]
      rfl
  · have hexec : exec (.cutterPulseEnd l) s =
        done (((s.advanceTo e).modCoil l fun k => { k with cutterPulse := none }).retestAround l) := by
      show execCutterPulseEnd l s = _
      simp only [execCutterPulseEnd, hpulse]
    have hadvance := advanceTo_eq s e
    have hcoil : ∀ x, ((s.advanceTo e).modCoil l fun k => { k with cutterPulse := none }).coilRec x =
        if x = l then { s.coilRec l with cutterPulse := none } else s.coilRec x := fun x => by
      rw [modCoil_coilRec, hadvance]
      rfl
    have hu : ((s.advanceTo e).modCoil l fun k => { k with cutterPulse := none }) = { s with
        coils := ((s.advanceTo e).modCoil l fun k => { k with cutterPulse := none }).coils
        now := if s.now < e then e else s.now
        drivenDuty := (s.advanceTo e).drivenDuty } := by
      conv => lhs; rw [hadvance]
      rw [hadvance]
      rfl
    generalize (s.advanceTo e).modCoil l (fun k => { k with cutterPulse := none }) = u at hexec hcoil hu
    have hcalm := (Calm.refl u).retestAround l
    have hsteady := retestAround_steady u l
    have hstage : ∀ x, (u.coilRec x).stage = (s.coilRec x).stage := fun x => by
      rw [hcoil]
      split
      · rename_i hx; rw [hx]
      · rfl
    refine ⟨u.retestAround l, u, hexec, by rw [hcalm.now, hu], by rw [hcalm.guard, hu], by rw [hcalm.pending, hu],
      fun x => by rw [hsteady.position, hu]; rfl, by rw [hu], hcalm.now.symm, ?_, by rw [hcoil, if_pos rfl],
      fun x hx => by rw [hcoil, if_neg hx], retestedAround_retestAround u l, fun hown hleader => ?_⟩
    · unfold State.cutterOut
      rw [hcoil, if_pos rfl]
      rfl
    · refine retestAround_of_not_held (fun p => by rw [hstage]; exact hown p) fun x hx p => ?_
      rw [hstage]
      exact hleader x (by rw [hu] at hx; exact hx) p

end Sys2Proof.Proofs

/-! LINE RESET: what it discards, and what the test of its leader's held cut leaves alone: the statement O42 (R13, R133). -/

namespace Sys2Proof.Proofs

open Sys2Proof.Machine Sys2Proof.Safety

variable {s t : State} {l x : LineId} {ls : List LineId}

/-! ## What a cut of other lines leaves of a line -/

/-- A line that a cut is not of stays as it is: its record, position, coil, lists, KS and heads, the copies of its heads where
they are invalid, and its lane queue but for what a grant counts. -/
structure Untouched (l : LineId) (s t : State) : Prop where
  line : t.line l = s.line l
  pos : t.pos l = s.pos l
  coilRec : t.coilRec l = s.coilRec l
  spanRec : t.spanRec l = s.spanRec l
  knot : t.knot l = s.knot l
  queue : (t.lane l).queue.map unserved = (s.lane l).queue.map unserved
  settings : ∀ h, (t.head h).settings = (s.head h).settings
  head : ∀ h, AssignedTo s h l → t.head h = s.head h
  copy : ∀ h, AssignedTo s h l → (s.copy h).state = .invalid → t.copy h = s.copy h

namespace Untouched

variable {u : State}

theorem refl (l : LineId) (s : State) : Untouched l s s :=
  ⟨rfl, rfl, rfl, rfl, rfl, rfl, fun _ => rfl, fun _ _ => rfl, fun _ _ _ => rfl⟩

theorem assigned (a : Untouched l s t) {h : HeadId} (y : LineId) : AssignedTo t h y ↔ AssignedTo s h y := by
  unfold AssignedTo; rw [a.settings]

theorem trans (a : Untouched l s t) (b : Untouched l t u) : Untouched l s u where
  line := b.line.trans a.line
  pos := b.pos.trans a.pos
  coilRec := b.coilRec.trans a.coilRec
  spanRec := b.spanRec.trans a.spanRec
  knot := b.knot.trans a.knot
  queue := b.queue.trans a.queue
  settings h := (b.settings h).trans (a.settings h)
  head h hh := (b.head h ((a.assigned l).mpr hh)).trans (a.head h hh)
  copy h hh hv := by
    have hsame := a.copy h hh hv
    rw [b.copy h ((a.assigned l).mpr hh) (by rw [hsame]; exact hv), hsame]

theorem of_tables (hline : t.line l = s.line l) (hpos : t.pos l = s.pos l) (hcoil : t.coilRec l = s.coilRec l)
    (hspan : t.spanRec l = s.spanRec l) (hlane : t.lane l = s.lane l) (hknot : t.knot l = s.knot l) (hheads : t.heads = s.heads)
    (hcopies : t.copies = s.copies) : Untouched l s t where
  line := hline
  pos := hpos
  coilRec := hcoil
  spanRec := hspan
  knot := hknot
  queue := by rw [hlane]
  settings h := by rw [State.head, hheads]; rfl
  head h _ := by rw [State.head, hheads]; rfl
  copy h _ _ := by rw [State.copy, hcopies]; rfl

theorem modCoil {y : LineId} (hy : l ≠ y) (g : CoilRec → CoilRec) (a : Untouched l s t) : Untouched l s (t.modCoil y g) :=
  a.trans (.of_tables rfl rfl (modCoil_coilRec_of_ne t y g hy) rfl rfl rfl rfl rfl)

theorem modPos {y : LineId} (hy : l ≠ y) (g : PositionRec → PositionRec) (a : Untouched l s t) : Untouched l s (t.modPos y g) :=
  a.trans (.of_tables rfl (modPos_pos_of_ne t y g hy) rfl rfl rfl rfl rfl rfl)

theorem modSpanRec {y : LineId} (hy : l ≠ y) (g : SpanRec → SpanRec) (a : Untouched l s t) : Untouched l s (t.modSpanRec y g) :=
  a.trans (.of_tables rfl rfl rfl (modSpanRec_spanRec_of_ne t y g hy) rfl rfl rfl rfl)

theorem modLane {y : LineId} (hy : l ≠ y) (g : LaneRec → LaneRec) (a : Untouched l s t) : Untouched l s (t.modLane y g) :=
  a.trans (.of_tables rfl rfl rfl rfl (modLane_lane_of_ne t y g hy) rfl rfl rfl)

theorem notify (y : Option LineId) (b : NoticeBody) (a : Untouched l s t) : Untouched l s (t.notify y b) := by
  refine a.trans ?_
  rw [notify_eq]
  exact .of_tables rfl rfl rfl rfl rfl rfl rfl rfl

theorem removeCutHeld {y : LineId} (hy : l ≠ y) (a : Untouched l s t) : Untouched l s (t.removeCutHeld y) := by
  refine a.trans ?_
  rw [removeCutHeld_eq]
  exact .of_tables (modLine_line_of_ne t y _ hy) rfl rfl rfl rfl rfl rfl rfl

theorem closeCoil {y : LineId} (hy : l ≠ y) (why : CutReason) (own : Bool) (p : Option (LineId × Nat)) (m : Bool)
    (a : Untouched l s t) : Untouched l s (t.closeCoil y why own p m) := by
  unfold State.closeCoil
  split
  · exact (a.modSpanRec hy _).modLane hy _
  · exact a

theorem openNextCoil {y : LineId} (hy : l ≠ y) (a : Untouched l s t) : Untouched l s (t.openNextCoil y) := a.modCoil hy _

theorem settleCoil {y : LineId} (hy : l ≠ y) (a : Untouched l s t) : Untouched l s (t.settleCoil y) := by
  unfold State.settleCoil
  exact (a.modCoil hy _).modPos hy _

theorem notifyCut (y : LineId) (a : Untouched l s t) : Untouched l s (t.notifyCut y) := by
  unfold State.notifyCut
  split
  · exact a.notify _ _
  · exact a

theorem evaluateGrant (a : Untouched l s t) : Untouched l s t.evaluateGrant := by
  refine a.trans ⟨?_, ?_, ?_, ?_, ?_, evaluateGrant_unserved t l, fun h => ?_, fun h _ => ?_, fun h _ _ => ?_⟩
  all_goals
    rw [evaluateGrant_eq]
    rfl

/-- CUT_HELD leaves only the line of the cut and a follower with the paired hold. -/
theorem releasePair (hx : l ≠ x) (hunpaired : (t.coilRec l).pairedHold = false) (a : Untouched l s t) :
    Untouched l s (t.releasePair x) := by
  have hreleased := pairReleased_releasePair t x
  have hrel : ¬Releases t x l := fun h => by
    have := (h.resolve_left hx).2
    rw [hunpaired] at this
    cases this
  refine a.trans (.of_tables (hreleased.otherLine l hrel) ?_ ?_ ?_ ?_ ?_ ?_ ?_)
  · rw [hreleased.frame]; rfl
  · by_cases hf : t.follower x = some l
    · rw [hreleased.paired l hf, coilRec_notPaired hunpaired]
    · exact hreleased.otherCoil l hf
  · rw [hreleased.frame]; rfl
  · rw [hreleased.frame]; rfl
  · rw [hreleased.frame]; rfl
  · rw [hreleased.frame]
  · rw [hreleased.frame]

theorem bindPending {y : LineId} (hy : l ≠ y) (w : Nat) (b : Bool) (a : Untouched l s t) :
    Untouched l s (t.bindPending y w b) := by
  have hbind := bindPending_rebinds t y w b
  generalize t.bindPending y w b = v at hbind
  obtain ⟨hknot, hspan⟩ := hbind.others l hy
  refine a.trans ⟨by rw [hbind.line, if_neg hy], by rw [hbind.frame]; rfl, by rw [hbind.frame]; rfl, hspan, hknot,
    by rw [hbind.frame]; rfl, fun h => ?_, fun h hh => ?_, fun h _ _ => by rw [hbind.frame]; rfl⟩
  · rw [hbind.head]
    split <;> rfl
  · rw [hbind.head, if_neg]
    rintro ⟨hmem, -⟩
    obtain ⟨v, hv, rfl⟩ := mem_headsOf_iff_assigned.mp hmem
    obtain ⟨v', hv', rfl⟩ := hh
    exact hy (by rw [Option.some.inj (hv.symm.trans hv')])

/-- Invalid copies are neither written back nor marked, and the heads of other lines are not loaded. -/
theorem evictAndLoad {target : HeadId → Option Slot} (hs : List HeadId)
    (htarget : ∀ h, AssignedTo t h l → target h = none) (a : Untouched l s t) :
    Untouched l s (t.evictAndLoad target hs) := by
  obtain ⟨hline, hknot, hspan⟩ := evictAndLoad_blocks t target hs l
  have hback : ∀ h, (t.writeBackAll (t.evicted target hs)).head h = t.head h := fun h => by rw [writeBackAll_frame]; rfl
  have hcopies : ∀ h, ((t.evicted target hs).foldl State.writeBack t).copy h = t.copy h := fun h => by
    rw [foldl_writeBack_frame]; rfl
  refine a.trans ⟨hline, by rw [evictAndLoad_frame]; rfl, by rw [evictAndLoad_frame]; rfl, hspan, hknot,
    by rw [evictAndLoad_frame]; rfl, fun h => by rw [evictAndLoad_head], fun h hh => ?_, fun h hh hv => ?_⟩
  · rw [evictAndLoad_eq, (loadAll_of_not (fun _ => htarget h hh) _).2, hback]
  · rw [evictAndLoad_eq, (loadAll_of_not (fun _ => htarget h hh) _).1]
    unfold State.writeBackAll
    rw [foldl_remarkSlot_copy_of_invalid _ _ h (.inl (by rw [hcopies]; exact hv)), hcopies]

theorem applyPending (hl : l ∉ ls) (a : Untouched l s t) : Untouched l s (t.applyPending ls) := by
  have hne : ∀ y ∈ ls, l ≠ y := fun y hy e => hl (e ▸ hy)
  refine foldl_keeps (Q := Untouched l s) (fun v y hy hv => hv.bindPending (hne y hy) _ _)
    (a.evictAndLoad _ fun h hh => ?_)
  obtain ⟨v, hv, rfl⟩ := hh
  simp only [State.pendingTarget, hv, if_neg hl]

theorem performCut (p : Placement) (hl : l ∉ s.cutLines x) (hunpaired : (s.coilRec l).pairedHold = false) :
    Untouched l s (s.performCut x (.placement p)) := by
  have hne : ∀ y ∈ s.cutLines x, l ≠ y := fun y hy e => hl (e ▸ hy)
  have hx : l ≠ x := hne x (List.mem_cons_self ..)
  have hcutters : Untouched l s ((s.cutLines x).foldl State.assertCutter s) :=
    foldl_keeps (Q := Untouched l s) (fun v y hy hv => hv.modCoil (hne y hy) _) (.refl l s)
  have hclosed : Untouched l s (cutClosed s x (.placement p)) := by
    unfold cutClosed
    dsimp only
    cases hf : s.runningFollower x with
    | none =>
      have hlines : s.cutLines x = [x] := by unfold State.cutLines; rw [hf]; rfl
      rw [hlines] at hcutters
      exact hcutters.closeCoil hx _ _ _ _
    | some f =>
      have hlines : s.cutLines x = [x, f] := by unfold State.cutLines; rw [hf]; rfl
      rw [hlines] at hcutters
      exact (hcutters.closeCoil hx _ _ _ _).closeCoil (hne f (by rw [hlines]; simp)) _ _ _ _
  rw [performCut_eq]
  have happlied := (foldl_keeps (xs := s.cutLines x) (f := State.openNextCoil) (Q := Untouched l s)
    (fun v y hy hv => hv.openNextCoil (hne y hy)) hclosed).applyPending hl
  have hsettled := foldl_keeps (xs := s.cutLines x) (f := State.settleCoil) (Q := Untouched l s)
    (fun v y hy hv => hv.settleCoil (hne y hy)) happlied
  have hreleased := hsettled.releasePair hx (by rw [hsettled.coilRec]; exact hunpaired)
  exact (foldl_keeps (Q := Untouched l s) (fun v y _ hv => hv.notifyCut y) hreleased).evaluateGrant

/-- The test of a held cut of another line leaves an IDLE line without the paired hold alone. -/
theorem retest (hx : l ≠ x) (hidle : (s.line l).state = .idle) (hunpaired : (s.coilRec l).pairedHold = false) :
    Untouched l s (s.retest x) := by
  by_cases hheld : ∃ p, (s.coilRec x).stage = .held p
  · obtain ⟨p, hp⟩ := hheld
    by_cases hhold : HoldReason s x
    · rw [retest_of_reason hp hhold]
      exact .refl l s
    · by_cases hdue : p.target ≤ (s.pos x).position
      · rw [retest_of_due hp hhold hdue]
        refine performCut p (fun hmem => ?_) hunpaired
        rcases List.mem_cons.mp hmem with h | h
        · exact hx h
        · exact (runningFollower_eq_some.mp (Option.mem_toList.mp h)).2 hidle
      · rw [retest_of_early hp hhold (Nat.lt_of_not_le hdue)]
        exact ((Untouched.refl l s).modCoil hx _).releasePair hx
          (by rw [staged_coilRec, if_neg hx]; exact hunpaired)
  · rw [retest_of_not_held (not_exists.mp hheld)]
    exact .refl l s

end Untouched

/-- No cut touches the completed coil list. -/
theorem keepsCuts_completed (c : List CoilRecord) : KeepsCuts fun t => t.completed = c where
  free _ _ _ _ _ _ _ _ h := h
  notify s l b h := by rw [notify_eq]; exact h
  submit s l k c x h := by rw [submit_frame]; exact h
  setRecipe _ _ _ h := h
  setCopy _ _ _ h := h
  head _ _ _ _ h := h
  bound _ _ _ _ h := h
  removeCutHeld s l h := by rw [removeCutHeld_eq]; exact h
  pos _ _ _ _ h := h
  coil _ _ _ _ h := h
  openNextCoil _ _ h := h
  evaluateGrant s h := by rw [evaluateGrant_eq]; exact h
  closeCoil s l why own p m h := by
    unfold State.closeCoil
    split
    · exact h
    · exact h

/-- A law that every part of a cut keeps is kept by a test of a held cut. -/
theorem KeepsCuts.retest {P : State → Prop} (K : KeepsCuts P) (l : LineId) (h : P s) : P (s.retest l) := by
  unfold State.retest
  split
  · split
    · exact h
    · split
      · exact K.performCut l _ (fun e => by cases e) h
      · exact K.parts.releasePair l (K.coil _ _ _ (fun _ => rfl) h)
  · exact h

theorem retest_completed (s : State) (l : LineId) : (s.retest l).completed = s.completed :=
  (keepsCuts_completed s.completed).retest l rfl

end Sys2Proof.Proofs

/-! LINE RESET: the run discarded, and the statement O42 (R13, R83, R104, R133). -/

namespace Sys2Proof.Proofs

open Sys2Proof.Machine Sys2Proof.Safety

variable {s t : State} {l : LineId}

/-! ## The parts of LINE RESET -/

/-- A follower released from the held cut of a line that is reset (R133). -/
def FollowerFreed (s : State) (l y : LineId) : Prop :=
  (∃ p, (s.coilRec l).stage = .held p) ∧ s.follower l = some y ∧ (s.coilRec y).pairedHold = true

theorem releaseFollower_of_not (h : ∀ y, ¬FollowerFreed s l y) : s.releaseFollower l = s := by
  unfold State.releaseFollower
  cases hstage : (s.coilRec l).stage with
  | none => rfl
  | placed p => rfl
  | held p =>
    cases hf : s.follower l with
    | none => rfl
    | some f =>
      cases hp : (s.coilRec f).pairedHold with
      | false => simp only [hp, Bool.false_eq_true, if_false]
      | true => exact absurd ⟨⟨p, hstage⟩, hf, hp⟩ (h f)

theorem releaseFollower_of_freed {f : LineId} (h : FollowerFreed s l f) : s.releaseFollower l =
    (s.modLine f withoutCutHeld).modCoil f fun k => { k with pairedHold := false } := by
  obtain ⟨⟨p, hstage⟩, hf, hp⟩ := h
  unfold State.releaseFollower
  rw [hstage, hf]
  dsimp only
  rw [if_pos hp, removeCutHeld_eq]

/-- What the release of the follower leaves. -/
structure FollowerReleased (s t : State) (l : LineId) : Prop where
  frame : t = { s with lines := t.lines, coils := t.coils }
  freed : ∀ y, FollowerFreed s l y → t.line y = withoutCutHeld (s.line y) ∧ t.coilRec y = { s.coilRec y with pairedHold := false }
  other : ∀ y, ¬FollowerFreed s l y → t.line y = s.line y ∧ t.coilRec y = s.coilRec y

theorem followerReleased_releaseFollower (s : State) (l : LineId) : FollowerReleased s (s.releaseFollower l) l := by
  by_cases h : ∃ f, FollowerFreed s l f
  · obtain ⟨f, hfreed⟩ := h
    have honly : ∀ y, FollowerFreed s l y ↔ y = f := fun y =>
      ⟨fun hy => Option.some.inj (hy.2.1.symm.trans hfreed.2.1), fun hy => hy ▸ hfreed⟩
    have hline : ∀ y, (s.releaseFollower l).line y = if y = f then withoutCutHeld (s.line f) else s.line y := fun y => by
      rw [releaseFollower_of_freed hfreed]
      exact modLine_line s f withoutCutHeld y
    have hcoil : ∀ y, (s.releaseFollower l).coilRec y =
        if y = f then { s.coilRec f with pairedHold := false } else s.coilRec y := fun y => by
      rw [releaseFollower_of_freed hfreed]
      exact modCoil_coilRec (s.modLine f withoutCutHeld) f (fun k => { k with pairedHold := false }) y
    refine ⟨by rw [releaseFollower_of_freed hfreed]; rfl, fun y hy => ?_, fun y hy => ?_⟩
    · rw [hline, hcoil, (honly y).mp hy, if_pos rfl, if_pos rfl]
      exact ⟨rfl, rfl⟩
    · have hne : y ≠ f := fun e => hy ((honly y).mpr e)
      rw [hline, hcoil, if_neg hne, if_neg hne]
      exact ⟨rfl, rfl⟩
  · rw [releaseFollower_of_not (not_exists.mp h)]
    exact ⟨rfl, fun y hy => absurd ⟨y, hy⟩ h, fun _ _ => ⟨rfl, rfl⟩⟩

theorem knotReset_of_net (h : (s.line l).kind = .net) : s.knotReset l = (s.abandonScan l).modKnot l fun _ => .powerOn := by
  simp only [State.knotReset, h]

theorem knotReset_of_rope (h : (s.line l).kind = .rope) : s.knotReset l = s.abandonScan l := by
  rw [abandonScan_of_none fun k hk => by rw [hk.1] at h; cases h]
  simp only [State.knotReset, h]

theorem knotReset_frame (s : State) (l : LineId) : s.knotReset l =
    { s with knots := (s.knotReset l).knots, linkK1 := (s.knotReset l).linkK1, linkK2 := (s.knotReset l).linkK2 } := by
  cases h : (s.line l).kind with
  | rope => rw [knotReset_of_rope h, abandonScan_frame]
  | net => rw [knotReset_of_net h, abandonScan_frame]; rfl

theorem knotReset_knot (s : State) (l y : LineId) : (s.knotReset l).knot y =
    if y = l ∧ (s.line l).kind = .net then KnotRec.powerOn else s.knot y := by
  have hknot : ∀ z, (s.abandonScan l).knot z = s.knot z := fun z => by rw [abandonScan_frame]; rfl
  cases h : (s.line l).kind with
  | rope => rw [knotReset_of_rope h, hknot, if_neg (fun e => nomatch e.2)]
  | net =>
    rw [knotReset_of_net h, modKnot_knot, hknot]
    simp

theorem knotReset_scanLink (s : State) (l : LineId) (k : ScanLink) : (s.knotReset l).scanLink k = (s.abandonScan l).scanLink k := by
  cases h : (s.line l).kind with
  | rope => rw [knotReset_of_rope h]
  | net => rw [knotReset_of_net h]; cases k <;> rfl

theorem resetHead_frame (s : State) (b : Bool) (h : HeadId) : (s.modHead h (·.atLineReset b)).invalidate h =
    { s with
      heads := ((s.modHead h (·.atLineReset b)).invalidate h).heads
      copies := ((s.modHead h (·.atLineReset b)).invalidate h).copies } := rfl

/-- The heads of a list reset one after another. -/
structure HeadsReset (s t : State) (hs : List HeadId) : Prop where
  frame : t = { s with heads := t.heads, copies := t.copies }
  head : ∀ x, t.head x = if x ∈ hs then (s.head x).atLineReset s.guard.latch else s.head x
  copy : ∀ x, t.copy x = if x ∈ hs then .invalidated else s.copy x

theorem headsReset_foldl {hs : List HeadId} (hnodup : hs.Nodup) (s : State) :
    HeadsReset s (hs.foldl (fun s h => (s.modHead h (·.atLineReset s.guard.latch)).invalidate h) s) hs := by
  induction hs generalizing s with
  | nil => exact ⟨rfl, fun _ => rfl, fun _ => rfl⟩
  | cons y hs ih =>
    obtain ⟨hy, hrest⟩ := List.nodup_cons.mp hnodup
    obtain ⟨hframe, hhead, hcopy⟩ := ih hrest ((s.modHead y (·.atLineReset s.guard.latch)).invalidate y)
    have hfirst : ∀ x, ((s.modHead y (·.atLineReset s.guard.latch)).invalidate y).head x =
        if x = y then (s.head y).atLineReset s.guard.latch else s.head x := fun x =>
      modHead_head s y (·.atLineReset s.guard.latch) x
    have hfirstCopy : ∀ x, ((s.modHead y (·.atLineReset s.guard.latch)).invalidate y).copy x =
        if x = y then .invalidated else s.copy x := fun x => setCopy_copy (s.modHead y (·.atLineReset s.guard.latch)) y _ x
    refine ⟨hframe, fun x => (hhead x).trans ?_, fun x => (hcopy x).trans ?_⟩
    · rw [hfirst]
      by_cases hx : x = y
      · subst hx; simp [hy]
      · simp [hx]
    · rw [hfirstCopy]
      by_cases hx : x = y
      · subst hx; simp
      · simp [hx]

theorem resetHeads_reset (s : State) (l : LineId) : HeadsReset s (s.resetHeads l) (s.headsOf l) :=
  headsReset_foldl (headsOf_nodup s l) s

/-! ## The run discarded -/

/-- The line record after LINE RESET (R13). -/
def lineReset (r : LineRec) : LineRec :=
  { r with state := .idle, causes := r.causes.guardOnly, reverseClamp := false, warmStart := false }

/-- The position record after LINE RESET (R13). -/
def posReset (p : PositionRec) : PositionRec := { p with position := 0, slip := none, markTarget := none }

theorem discardRun_eq (s : State) (l : LineId) : discardRun s l =
    ((((((s.releaseFollower l).knotReset l).resetHeads l).modSpanRec l SpanRec.emptied).modPos l posReset).modCoil l
      coilEnded).modLine l lineReset := rfl

theorem lineReset_withoutCutHeld (r : LineRec) : lineReset (withoutCutHeld r) = lineReset r := by
  unfold withoutCutHeld
  split
  · rfl
  · rfl

/-- What LINE RESET leaves before its leader's held cut is tested again. -/
structure Discarded (s u : State) (l : LineId) : Prop where
  frame : u = { s with
    lines := u.lines, positions := u.positions, copies := u.copies, heads := u.heads, knots := u.knots
    linkK1 := u.linkK1, linkK2 := u.linkK2, spanRecs := u.spanRecs, coils := u.coils }
  line : u.line l = lineReset (s.line l)
  pos : ∀ y, u.pos y = if y = l then posReset (s.pos l) else s.pos y
  coilRec : u.coilRec l = coilEnded (s.coilRec l)
  spanRec : ∀ y, u.spanRec y = if y = l then (s.spanRec l).emptied else s.spanRec y
  knot : ∀ y, u.knot y = if y = l ∧ (s.line l).kind = .net then KnotRec.powerOn else s.knot y
  head : ∀ h, u.head h = if h ∈ s.headsOf l then (s.head h).atLineReset s.guard.latch else s.head h
  copy : ∀ h, u.copy h = if h ∈ s.headsOf l then .invalidated else s.copy h
  linkServing : ∀ k, LinkServes s l k → u.scanLink k = scanAbandoned (s.scanLink k)
  linkOther : ∀ k, ¬LinkServes s l k → u.scanLink k = s.scanLink k
  freed : ∀ y, y ≠ l → FollowerFreed s l y →
    u.line y = withoutCutHeld (s.line y) ∧ u.coilRec y = { s.coilRec y with pairedHold := false }
  otherLines : ∀ y, y ≠ l → ¬FollowerFreed s l y → u.line y = s.line y ∧ u.coilRec y = s.coilRec y

theorem discardRun_discarded (s : State) (l : LineId) : Discarded s (discardRun s l) l := by
  rw [discardRun_eq]
  have hreleased := followerReleased_releaseFollower s l
  generalize s.releaseFollower l = s1 at hreleased
  have hframe2 := knotReset_frame s1 l
  have hknot2 := knotReset_knot s1 l
  have hlink2 := knotReset_scanLink s1 l
  generalize s1.knotReset l = s2 at hframe2 hknot2 hlink2
  have hreset := resetHeads_reset s2 l
  generalize s2.resetHeads l = s3 at hreset
  have hfields : (s1.line l).kind = (s.line l).kind ∧ (s1.line l).cfg = (s.line l).cfg := by
    by_cases h : FollowerFreed s l l
    · rw [(hreleased.freed l h).1]
      exact ⟨(withoutCutHeld_fields _).2.2.2, (withoutCutHeld_fields _).1⟩
    · rw [(hreleased.other l h).1]
      exact ⟨rfl, rfl⟩
  have hserves : ∀ k, LinkServes s1 l k ↔ LinkServes s l k := fun k => by unfold LinkServes; rw [hfields.1, hfields.2]
  have hhead2 : ∀ h, s2.head h = s.head h := fun h => by rw [hframe2, hreleased.frame]; rfl
  have hcopy2 : ∀ h, s2.copy h = s.copy h := fun h => by rw [hframe2, hreleased.frame]; rfl
  have hheads : s2.headsOf l = s.headsOf l := headsOf_congr (fun h => by rw [hhead2]) l
  have hlatch : s2.guard.latch = s.guard.latch := by rw [hframe2, hreleased.frame]
  have hline3 : ∀ y, s3.line y = s1.line y := fun y => by rw [hreset.frame, hframe2]; rfl
  have hcoil3 : ∀ y, s3.coilRec y = s1.coilRec y := fun y => by rw [hreset.frame, hframe2]; rfl
  have hpos3 : ∀ y, s3.pos y = s.pos y := fun y => by rw [hreset.frame, hframe2, hreleased.frame]; rfl
  have hspan3 : ∀ y, s3.spanRec y = s.spanRec y := fun y => by rw [hreset.frame, hframe2, hreleased.frame]; rfl
  have hlink3 : ∀ k, s3.scanLink k = (s1.abandonScan l).scanLink k := fun k => by
    rw [← hlink2, hreset.frame]; cases k <;> rfl
  have hlinks1 : ∀ k, s1.scanLink k = s.scanLink k := fun k => by rw [hreleased.frame]; cases k <;> rfl
  have hlinkEnd : ∀ k, ((((s3.modSpanRec l SpanRec.emptied).modPos l posReset).modCoil l coilEnded).modLine l
      lineReset).scanLink k = s3.scanLink k := fun k => by cases k <;> rfl
  refine ⟨by rw [hreset.frame, hframe2, hreleased.frame]; rfl, ?_, fun y => ?_, ?_, fun y => ?_, fun y => ?_, fun h => ?_,
    fun h => ?_, fun k hk => ?_, fun k hk => ?_, fun y hy hfreed => ?_, fun y hy hfreed => ?_⟩
  · rw [modLine_line_self]
    show lineReset (s3.line l) = _
    rw [hline3]
    by_cases h : FollowerFreed s l l
    · rw [(hreleased.freed l h).1, lineReset_withoutCutHeld]
    · rw [(hreleased.other l h).1]
  · refine (modPos_pos (s3.modSpanRec l SpanRec.emptied) l posReset y).trans ?_
    rw [← hpos3 l, ← hpos3 y]
    rfl
  · refine (modCoil_coilRec_self ((s3.modSpanRec l SpanRec.emptied).modPos l posReset) l coilEnded).trans ?_
    show coilEnded (s3.coilRec l) = _
    rw [hcoil3]
    by_cases h : FollowerFreed s l l
    · rw [(hreleased.freed l h).2]; rfl
    · rw [(hreleased.other l h).2]
  · refine (modSpanRec_spanRec s3 l SpanRec.emptied y).trans ?_
    rw [hspan3, hspan3]
  · show s3.knot y = _
    have hknot3 : s3.knot y = s2.knot y := by rw [hreset.frame]; rfl
    have hknot1 : s1.knot y = s.knot y := by rw [hreleased.frame]; rfl
    rw [hknot3, hknot2, hfields.1, hknot1]
  · show s3.head h = _
    rw [hreset.head, hheads, hhead2, hlatch]
  · show s3.copy h = _
    rw [hreset.copy, hheads, hcopy2]
  · rw [hlinkEnd, hlink3, abandonScan_serving ((hserves k).mpr hk), hlinks1]
  · rw [hlinkEnd, hlink3, abandonScan_other (mt (hserves k).mp hk), hlinks1]
  all_goals
    refine ⟨(modLine_line_of_ne _ l lineReset hy).trans ?_, (modCoil_coilRec_of_ne
      ((s3.modSpanRec l SpanRec.emptied).modPos l posReset) l coilEnded hy).trans ?_⟩
  · exact (hline3 y).trans (hreleased.freed y hfreed).1
  · exact (hcoil3 y).trans (hreleased.freed y hfreed).2
  · exact (hline3 y).trans (hreleased.other y hfreed).1
  · exact (hcoil3 y).trans (hreleased.other y hfreed).2

/-! ## The statement -/

/-- LINE RESET is the discarding, and the test of the leader's held cut. -/
theorem resetLine_of_none (h : ((discardRun s l).line l).cfg.leader = none) : s.resetLine l = discardRun s l := by
  rw [resetLine_eq, h]

theorem resetLine_of_leader {x : LineId} (h : ((discardRun s l).line l).cfg.leader = some x) :
    s.resetLine l = (discardRun s l).retest x := by
  rw [resetLine_eq, h]

/-- The test of the leader's held cut leaves the line that was reset alone, and of the rest what no cut touches. -/
structure ResetKept (u t : State) (l : LineId) : Prop where
  untouched : Untouched l u t
  steady : Steady u t
  completed : t.completed = u.completed
  calm : Calm u t

theorem resetKept_retest {u : State} (x : LineId) (hidle : (u.line l).state = .idle) (hstage : (u.coilRec l).stage = .none)
    (hunpaired : (u.coilRec l).pairedHold = false) : ResetKept u (u.retest x) l := by
  by_cases hx : l = x
  · subst hx
    rw [retest_of_not_held fun p hp => by rw [hstage] at hp; cases hp]
    exact ⟨.refl l u, .refl u, rfl, .refl u⟩
  · exact ⟨.retest hx hidle hunpaired, .retest u x, retest_completed u x, (Calm.refl u).retest x⟩

/-- Settles O42. -/
theorem lineResetDiscardsRun : Obligations.LineResetDiscardsRun := by
  intro s tag l htakes
  have hdiscarded := discardRun_discarded (s.entered 0x24 tag) l
  have haccept : (s.entered 0x24 tag).lineReset (LineId.code l) = accept ((s.entered 0x24 tag).resetLine l) [] := by
    simp only [State.lineReset, withLine_code]
  have hnone : (s.line l).cfg.leader = none → (s.entered 0x24 tag).resetLine l = discardRun (s.entered 0x24 tag) l :=
    fun h => resetLine_of_none (by rw [hdiscarded.line]; exact h)
  have hleader : ∀ x, (s.line l).cfg.leader = some x →
      (s.entered 0x24 tag).resetLine l = (discardRun (s.entered 0x24 tag) l).retest x :=
    fun x h => resetLine_of_leader (by rw [hdiscarded.line]; exact h)
  generalize (s.entered 0x24 tag).resetLine l = t at haccept hnone hleader
  generalize discardRun (s.entered 0x24 tag) l = u at hdiscarded hnone hleader
  have hkept : ResetKept u t l := by
    cases h : (s.line l).cfg.leader with
    | none => rw [hnone h]; exact ⟨.refl l u, .refl u, rfl, .refl u⟩
    | some x =>
      rw [hleader x h]
      exact resetKept_retest x (by rw [hdiscarded.line]; rfl) (by rw [hdiscarded.coilRec]; rfl) (by rw [hdiscarded.coilRec]; rfl)
  obtain ⟨huntouched, hsteady, hcompleted, hcalm⟩ := hkept
  have hassigned : ∀ h v, (s.head h).settings = some v → v.line = l → h ∈ (s.entered 0x24 tag).headsOf l := fun h v hv hl =>
    mem_headsOf_iff_assigned.mpr ⟨v, hv, hl⟩
  refine ⟨t, u, request_accepted htakes haccept, ?_, ?_, ?_, ?_, fun hnet => ?_, fun h v hv hl => ?_, ?_, ?_, ?_, ?_,
    fun x => ?_, hdiscarded.frame, fun h hnot => ?_, fun x hx => ⟨?_, ?_, ?_⟩, fun hrope => ?_, fun k => ?_,
    fun f hf hheld hfol hp => hdiscarded.freed f hf ⟨hheld, hfol, hp⟩, fun f hf hcase => hdiscarded.otherLines f hf ?_,
    hnone, fun x hx => ?_⟩
  · rw [huntouched.line, hdiscarded.line]; rfl
  · rw [huntouched.pos, hdiscarded.pos, if_pos rfl]; rfl
  · rw [huntouched.coilRec, hdiscarded.coilRec]; rfl
  · rw [huntouched.spanRec, hdiscarded.spanRec, if_pos rfl]; exact emptied_listsEmpty _
  · rw [huntouched.knot, hdiscarded.knot]; exact if_pos ⟨rfl, hnet⟩
  · have hmem := hassigned h v hv hl
    have hhead := hdiscarded.head h
    rw [if_pos hmem] at hhead
    have hcopy := hdiscarded.copy h
    rw [if_pos hmem] at hcopy
    have hsettings : (u.head h).settings = some v := by rw [hhead]; exact hv
    have htrim : (u.head h).trim = if s.guard.latch then (s.head h).trim else 0 := by rw [hhead]; rfl
    refine ⟨(huntouched.copy h ⟨v, hsettings, hl⟩ (by rw [hcopy]; rfl)).trans hcopy, ?_⟩
    rw [huntouched.head h ⟨v, hsettings, hl⟩, ← hsettings, ← htrim, hhead]
    rfl
  · rw [huntouched.queue, hdiscarded.frame]; rfl
  · rw [hsteady.channels, hdiscarded.frame]; rfl
  · rw [hcompleted, hdiscarded.frame]; rfl
  · have hsurroundings := hcalm.surroundings
    rw [hdiscarded.frame] at hsurroundings
    exact hsurroundings
  · rw [hsteady.position, hdiscarded.pos]
    split
    · rfl
    · rfl
  · have hmem : h ∉ (s.entered 0x24 tag).headsOf l := fun hm => by
      obtain ⟨v, hv, hl⟩ := mem_headsOf_iff_assigned.mp hm
      exact hnot v hv hl
    rw [hdiscarded.head, hdiscarded.copy, if_neg hmem, if_neg hmem]
    exact ⟨rfl, rfl⟩
  · rw [hdiscarded.pos, if_neg hx]; rfl
  · rw [hdiscarded.spanRec, if_neg hx]; rfl
  · rw [hdiscarded.knot]; exact if_neg fun e => hx e.1
  · rw [hdiscarded.knot]
    refine if_neg fun e => ?_
    have hnet : (s.line l).kind = .net := e.2
    rw [hrope] at hnet
    cases hnet
  · split
    · rename_i hk; exact hdiscarded.linkServing k hk
    · rename_i hk; exact hdiscarded.linkOther k hk
  · rintro ⟨⟨p, hstage⟩, hfol, hp⟩
    rcases hcase with h | h | h
    · exact h p hstage
    · exact h hfol
    · exact Bool.false_ne_true (h.symm.trans hp)
  · rw [hleader x hx]
    exact retested_retest u x

end Sys2Proof.Proofs

/-! GUARD CLEAR: the statement O44 (R18, R133, R158). -/

namespace Sys2Proof.Proofs

open Sys2Proof.Machine Sys2Proof.Safety

variable {s t u : State} {l : LineId}

/-! ## What the tests of held cuts leave -/

/-- A head that is not FREE is granted to no lane by a cut. -/
theorem keepsCuts_pack {p : PackRec} (hp : p.state ≠ .free) : KeepsCuts fun t => t.pack = p where
  free _ _ _ _ _ _ _ _ h := h
  notify s l b h := by rw [notify_eq]; exact h
  submit s l k c x h := by rw [submit_frame]; exact h
  setRecipe _ _ _ h := h
  setCopy _ _ _ h := h
  head _ _ _ _ h := h
  bound _ _ _ _ h := h
  removeCutHeld s l h := by rw [removeCutHeld_eq]; exact h
  pos _ _ _ _ h := h
  coil _ _ _ _ h := h
  openNextCoil _ _ h := h
  evaluateGrant s h := by rw [evaluateGrant_of_not_free (by rw [h]; exact hp)]; exact h
  closeCoil s l why own p m h := by
    unfold State.closeCoil
    split
    · exact h
    · exact h

theorem withoutCutHeld_guard (r : LineRec) : (withoutCutHeld r).causes.guard = r.causes.guard := by
  unfold withoutCutHeld
  split
  · rfl
  · rfl

/-- No cut puts GUARD into a set. -/
theorem keepsCuts_noGuard : KeepsCuts fun t => ∀ l, (t.line l).causes.guard = false where
  free _ _ _ _ _ _ _ _ h := h
  notify s l b h := by rw [notify_eq]; exact h
  submit s l k c x h := by rw [submit_frame]; exact h
  setRecipe _ _ _ h := h
  setCopy _ _ _ h := h
  head _ _ _ _ h := h
  bound s l f hf h x := by
    rw [modLine_line]
    split
    · rw [(hf _).2.1]; exact h l
    · exact h x
  removeCutHeld s l h x := by
    rw [removeCutHeld_eq, modLine_line]
    split
    · rw [withoutCutHeld_guard]; exact h l
    · exact h x
  pos _ _ _ _ h := h
  coil _ _ _ _ h := h
  openNextCoil _ _ h := h
  evaluateGrant s h := by rw [evaluateGrant_eq]; exact h
  closeCoil s l why own p m h := by
    unfold State.closeCoil
    split
    · exact h
    · exact h

theorem foldl_retest_keeps {P : State → Prop} (K : KeepsCuts P) (ls : List LineId) (h : P s) : P (ls.foldl State.retest s) :=
  foldl_keeps (fun _ x _ ht => K.retest x ht) h

theorem foldl_retest_steady (ls : List LineId) (s : State) : Steady s (ls.foldl State.retest s) :=
  foldl_keeps (Q := Steady s) (fun t x _ ht => ht.trans (.retest t x)) (.refl s)

theorem foldl_retest_calm (ls : List LineId) (s : State) : Calm s (ls.foldl State.retest s) :=
  foldl_keeps (Q := Calm s) (fun _ x _ ht => ht.retest x) (.refl s)

theorem retestedAll_foldl (ls : List LineId) (s : State) : RetestedAll ls s (ls.foldl State.retest s) := by
  induction ls generalizing s with
  | nil => rfl
  | cons l ls ih => exact ⟨s.retest l, retested_retest s l, ih _⟩

/-! ## The latch and GUARD gone (R18, R158) -/

/-- GUARD gone from a line record. -/
def withoutGuard (r : LineRec) : LineRec := { r with causes := r.causes.drop .guard }

/-- The latch cleared, GUARD gone from every line, and a GUARDED head SUSPENDED. -/
structure LatchCleared (s t : State) : Prop where
  frame : t = { s with guard := t.guard, lines := t.lines, pack := t.pack, link := t.link }
  guard : t.guard = { s.guard with latch := false }
  line : ∀ l, t.line l = withoutGuard (s.line l)
  suspended : s.pack.state = .guarded → t.pack = serviceBack s.pack ∧
    t.link = (s.notify (s.pack.abeyance.map Prod.fst)
      (.suspended .guard (s.pack.abeyance.map Prod.fst) (s.pack.abeyance.map Prod.snd))).link
  other : s.pack.state ≠ .guarded → t.pack = s.pack ∧ t.link = s.link

/-- The lines without GUARD, before the packing head acts. -/
def guardDropped (s : State) : State :=
  LineId.all.foldl (fun (s : State) l => s.modLine l withoutGuard) { s with guard := { s.guard with latch := false } }

theorem guardDropped_frame (s : State) : guardDropped s =
    { s with guard := { s.guard with latch := false }, lines := (guardDropped s).lines } :=
  foldl_modLine_eq withoutGuard LineId.all { s with guard := { s.guard with latch := false } }

theorem guardDropped_line (s : State) (l : LineId) : (guardDropped s).line l = withoutGuard (s.line l) := by
  obtain ⟨-, hline⟩ := foldl_lines (s := { s with guard := { s.guard with latch := false } }) (get := State.line)
    (op := fun (s : State) l => s.modLine l withoutGuard) (g := fun _ => withoutGuard) (P := fun _ => True) (fun _ _ h => h)
    (fun t y z _ => modLine_line t y withoutGuard z) (ls := LineId.all) (by decide) trivial
  exact (hline l).trans (if_pos (by cases l <;> decide))

theorem guardReleased_latchCleared (s : State) : LatchCleared s (guardReleased s) := by
  have hreleased : guardReleased s = (guardDropped s).packGuardClear := rfl
  have hpack : (guardDropped s).pack = s.pack := by rw [guardDropped_frame]
  rw [hreleased, packGuardClear_eq, hpack]
  by_cases h : s.pack.state = .guarded
  · rw [if_pos h]
    have htells : TellsAs ((guardDropped s).modPack serviceBack) s :=
      ⟨by rw [guardDropped_frame]; rfl, by rw [guardDropped_frame]; rfl⟩
    refine ⟨by rw [notify_eq, guardDropped_frame]; rfl, by rw [notify_eq, guardDropped_frame]; rfl, fun l => ?_, fun _ => ⟨?_, ?_⟩,
      fun hnot => absurd h hnot⟩
    · rw [notify_eq]
      exact guardDropped_line s l
    · rw [notify_eq]
      show serviceBack (guardDropped s).pack = _
      rw [hpack]
    · exact (htells.notify _ _).link
  · rw [if_neg h]
    exact ⟨by rw [guardDropped_frame], by rw [guardDropped_frame], guardDropped_line s, fun hg => absurd hg h,
      fun _ => ⟨hpack, by rw [guardDropped_frame]⟩⟩

theorem withoutGuard_guard (r : LineRec) : (withoutGuard r).causes.guard = false := rfl

theorem holdsCut_iff (s : State) (l : LineId) : s.holdsCut l = true ↔ ∃ p, (s.coilRec l).stage = .held p := by
  unfold State.holdsCut
  cases h : (s.coilRec l).stage with
  | none => exact ⟨nofun, fun ⟨_, e⟩ => nomatch e⟩
  | placed p => exact ⟨nofun, fun ⟨_, e⟩ => nomatch e⟩
  | held p => exact ⟨fun _ => ⟨p, rfl⟩, fun _ => rfl⟩

/-- The lines whose held cuts are tested, in the order taken. -/
def retestOrder (s : State) : List LineId := freelyOrdered s.choices (LineId.all.filter s.holdsCut)

theorem retestOrder_nodup (s : State) : (retestOrder s).Nodup :=
  (freelyOrdered_perm _ _).nodup_iff.mpr ((by decide : LineId.all.Nodup).filter _)

theorem mem_retestOrder {s : State} {l : LineId} : l ∈ retestOrder s ↔ ∃ p, (s.coilRec l).stage = .held p := by
  unfold retestOrder
  rw [(freelyOrdered_perm _ _).mem_iff, List.mem_filter, holdsCut_iff]
  exact and_iff_right (by cases l <;> decide)

theorem retestOrder_of_none {s : State} (h : ∀ l p, (s.coilRec l).stage ≠ .held p) : retestOrder s = [] :=
  List.eq_nil_iff_forall_not_mem.mpr fun l hl => by
    obtain ⟨p, hp⟩ := mem_retestOrder.mp hl
    exact h l p hp

/-- The state in which the held cuts are tested: the latch cleared, and the choices of their order taken. -/
def beforeRetests (s : State) : State := { guardReleased s with
  choices := (guardReleased s).choices + ((LineId.all.filter (guardReleased s).holdsCut).length - 1) }

theorem clearGuard_retests (s : State) :
    s.clearGuard = ((retestOrder (guardReleased s)).foldl State.retest (beforeRetests s)).notify none .guardCleared := by
  have hlength : (retestOrder (guardReleased s)).length = (LineId.all.filter (guardReleased s).holdsCut).length :=
    (freelyOrdered_perm _ _).length_eq
  rw [clearGuard_eq, State.inAnyOrder, State.inOrder]
  show ((retestOrder (guardReleased s)).foldl State.retest { guardReleased s with
    choices := (guardReleased s).choices + ((retestOrder (guardReleased s)).length - 1) }).notify none .guardCleared = _
  rw [hlength]
  rfl

/-- Settles O44: the refusal of an active input, and the clearing with its free order of tests. -/
theorem guardClearSuspendsHead : Obligations.GuardClearSuspendsHead := by
  intro s tag htakes
  refine ⟨fun hlatch => ?_, fun hlatch hactive => ?_, fun hlatch hinput => ?_⟩
  · have haccept : (s.entered 0x2C tag).guardClear = accept (s.entered 0x2C tag) [] := if_pos hlatch
    exact request_accepted htakes haccept
  · have hset : ¬(s.entered 0x2C tag).guard.latch = false := fun h => Bool.false_ne_true (h.symm.trans hlatch)
    have hrefuse : (s.entered 0x2C tag).guardClear = .error ⟨.badState, 0⟩ := (if_neg hset).trans (if_pos hactive)
    exact request_refused htakes hrefuse
  · have hset : ¬(s.entered 0x2C tag).guard.latch = false := fun h => Bool.false_ne_true (h.symm.trans hlatch)
    have hquiet : ¬(s.entered 0x2C tag).guard.inputActive = true := fun h => Bool.false_ne_true (hinput.symm.trans h)
    have haccept : (s.entered 0x2C tag).guardClear = accept (s.entered 0x2C tag).clearGuard [] :=
      (if_neg hset).trans (if_neg hquiet)
    rw [clearGuard_retests] at haccept
    have hcleared := guardReleased_latchCleared (s.entered 0x2C tag)
    have hframe : beforeRetests (s.entered 0x2C tag) = { guardReleased (s.entered 0x2C tag) with
      choices := (beforeRetests (s.entered 0x2C tag)).choices } := rfl
    have hnodup := retestOrder_nodup (guardReleased (s.entered 0x2C tag))
    have hmem : ∀ l, l ∈ retestOrder (guardReleased (s.entered 0x2C tag)) ↔ ∃ p, (s.coilRec l).stage = .held p := fun l => by
      rw [mem_retestOrder, hcleared.frame]
      rfl
    have hchoices : (∀ l p, (s.coilRec l).stage ≠ .held p) →
        (beforeRetests (s.entered 0x2C tag)).choices = s.choices := fun h => by
      have hempty := retestOrder_of_none (s := guardReleased (s.entered 0x2C tag)) fun l p => by
        rw [hcleared.frame]; exact h l p
      have hnone : (LineId.all.filter (guardReleased (s.entered 0x2C tag)).holdsCut).length = 0 := by
        rw [← (freelyOrdered_perm (guardReleased (s.entered 0x2C tag)).choices _).length_eq]
        exact congrArg List.length hempty
      show (guardReleased (s.entered 0x2C tag)).choices + _ = s.choices
      rw [hnone, hcleared.frame]
      rfl
    generalize retestOrder (guardReleased (s.entered 0x2C tag)) = order at haccept hnodup hmem
    generalize beforeRetests (s.entered 0x2C tag) = u at haccept hframe hchoices
    generalize guardReleased (s.entered 0x2C tag) = w at hcleared hframe
    have hline : ∀ l, u.line l = withoutGuard (s.line l) := fun l => by rw [hframe]; exact hcleared.line l
    have hpack : u.pack = w.pack := by rw [hframe]
    have hguard : u.guard = { s.guard with latch := false } := by rw [hframe]; exact hcleared.guard
    have hlink : u.link = w.link := by rw [hframe]
    have hkeptPack : u.pack.state ≠ .free → ((order.foldl State.retest u).notify none .guardCleared).pack = u.pack := fun h => by
      rw [notify_eq]
      exact foldl_retest_keeps (keepsCuts_pack h) order rfl
    have hsuspended : s.pack.state = .guarded → u.pack = serviceBack s.pack := fun h =>
      hpack.trans (hcleared.suspended h).1
    have hsame : s.pack.state ≠ .guarded → u.pack = s.pack := fun h => hpack.trans (hcleared.other h).1
    refine ⟨_, request_accepted htakes haccept, ?_, fun l => ?_, fun hg => ?_, fun hg => ?_, fun l => ?_, fun hhead => ?_,
      fun hnone => ?_⟩
    · rw [notify_eq]
      exact (foldl_retest_calm order u).guard.trans hguard
    · rw [notify_eq]
      exact foldl_retest_keeps keepsCuts_noGuard order (fun x => by rw [hline]; rfl) l
    · rw [hkeptPack (by rw [hsuspended hg]; nofun), hsuspended hg]
      rfl
    · have hne : s.pack.state ≠ .guarded ∧ s.pack.state ≠ .free := by
        rcases hg with h | h
        · rw [h]; exact ⟨nofun, nofun⟩
        · rw [h]; exact ⟨nofun, nofun⟩
      rw [hkeptPack (by rw [hsame hne.1]; exact hne.2), hsame hne.1]
    · rw [notify_eq]
      refine ((foldl_retest_steady order u).position l).trans ?_
      rw [hframe, hcleared.frame]
      rfl
    · have hstopped : u.pack.state ≠ .free := by
        rcases hhead hlatch with h | h | h
        · rw [hsuspended h]; nofun
        · rw [hsame (by rw [h]; nofun), h]; nofun
        · rw [hsame (by rw [h]; nofun), h]; nofun
      refine ⟨u, order.foldl State.retest u, order, hline, hguard, (hkeptPack hstopped).symm, ?_, fun hg => ?_, fun hg => ?_,
        hnodup, hmem, retestedAll_foldl order u, rfl⟩
      · rw [hframe, hcleared.frame]
      · exact hlink.trans (hcleared.suspended hg).2
      · exact hlink.trans (hcleared.other hg).2
    · have hempty : order = [] := List.eq_nil_iff_forall_not_mem.mpr fun l hl => by
        obtain ⟨p, hp⟩ := (hmem l).mp hl
        exact hnone l p hp
      rw [hempty]
      refine ⟨fun l => ?_, ?_⟩
      · rw [notify_eq]
        exact hline l
      · have hch := hchoices hnone
        rw [List.foldl_nil, notify_eq, hframe, hch, hcleared.frame]
        rfl

end Sys2Proof.Proofs

/-! HEAD_AT_LANE, BAND_DONE and LABEL_DONE: the steps of a service and its end, and the statement O52 (R133, R151 to R153,
R155). -/

namespace Sys2Proof.Proofs

open Sys2Proof.Machine Sys2Proof.Safety

variable {s t u : State} {l : LineId} {r : CoilRecord} {rest : List CoilRecord}

/-! ## Events that the head's state does not await (R151 to R153) -/

/-- An input that takes nothing from a state leaves it, however long it is held. -/
theorem ifHeld_of_fixed {take : State → State} (h : take s = s) (held : Nat) : s.ifHeld held take = s := by
  unfold State.ifHeld
  split
  · rfl
  · exact h

theorem arrive_of_ne (h : s.pack.state ≠ .travel) : s.arrive = s := by
  unfold State.arrive
  split
  next htravel _ => exact absurd htravel h
  · rfl

theorem bandDone_of_ne (h : s.pack.state ≠ .banding) : s.bandDone = s := by
  unfold State.bandDone
  split
  next hbanding _ _ => exact absurd hbanding h
  · rfl

theorem clampSlip_of_ne (h : s.pack.state ≠ .banding) : s.clampSlip = s := by
  unfold State.clampSlip
  split
  next hbanding _ _ => exact absurd hbanding h
  · rfl

theorem labelDone_of_ne (h : s.pack.state ≠ .labelling) : s.labelDone = s := by
  unfold State.labelDone
  split
  next hlabelling _ => exact absurd hlabelling h
  · rfl

/-! ## Going on to a step (R151, R152, R155) -/

theorem proceedTo_of_pending (h : s.pack.suspendPending = true) (l : LineId) (k : PackStep) : s.proceedTo l k =
    { s with
      pack := packSuspended s.pack (some l) (some k)
      link := (s.notify (some l) (.suspended .host (some l) (some k))).link } :=
  (if_pos h).trans (suspend_eq s (some l) (some k))

theorem proceedTo_of_not_pending (h : s.pack.suspendPending = false) (l : LineId) (k : PackStep) :
    s.proceedTo l k = s.enterStep k :=
  if_neg (by rw [h]; exact Bool.false_ne_true)

/-- The travelling head is at the lane. -/
def headArrived (s : State) (l : LineId) : State :=
  { s with pack := { s.pack with position := some l, stepTimer := none } }

theorem arrive_eq {k : PackStep} (hstate : s.pack.state = .travel) (hl : s.pack.attached = some l)
    (hk : s.pack.arrivalStep = some k) : s.arrive = (headArrived s l).proceedTo l k := by
  simp only [State.arrive, hstate, hl, hk]
  rfl

/-- What an arrival leaves where a suspension is pending. -/
theorem arrive_suspended {k : PackStep} (hstate : s.pack.state = .travel) (hl : s.pack.attached = some l)
    (hk : s.pack.arrivalStep = some k) (hpending : s.pack.suspendPending = true) :
    let t := s.arrive.chooseFrame
    t.pack = { s.pack with
      position := some l, state := .suspended, step := some k, arrivalStep := none, stepTimer := none
      suspendPending := false } ∧
    t.link = (s.notify (some l) (.suspended .host (some l) (some k))).chooseFrame.link ∧
    t = { s with pack := t.pack, link := t.link } := by
  intro t
  have hafter : t = ((headArrived s l).proceedTo l k).chooseFrame := congrArg State.chooseFrame (arrive_eq hstate hl hk)
  rw [proceedTo_of_pending (s := headArrived s l) hpending] at hafter
  clear_value t
  have ht := eq_of_chooseFrame hafter
  have htells : TellsAs (headArrived s l) s := ⟨rfl, rfl⟩
  refine ⟨?_, ?_, ?_⟩
  · rw [ht]
    simp only [headArrived, packSuspended, hl]
  · rw [hafter]
    exact chooseFrame_link (htells.notify _ _).link
  · rw [ht]
    rfl

/-- The band of the front record is counted, and its timer ended (R152). -/
def bandCounted (s : State) (l : LineId) : State :=
  (s.modLane l (·.onFront fun r => { r with bandsDone := r.bandsDone + 1 })).modPack fun p => { p with stepTimer := none }

theorem bandCounted_frame (s : State) (l : LineId) : bandCounted s l =
    { s with lanes := (bandCounted s l).lanes, pack := { s.pack with stepTimer := none } } := rfl

theorem bandCounted_lane (hqueue : (s.lane l).queue = r :: rest) :
    (bandCounted s l).lane l = { s.lane l with queue := { r with bandsDone := r.bandsDone + 1 } :: rest } :=
  (modLane_lane_self s l (·.onFront fun r => { r with bandsDone := r.bandsDone + 1 })).trans (onFront_cons hqueue _)

theorem bandCounted_lane_of_ne {x : LineId} (hx : x ≠ l) : (bandCounted s l).lane x = s.lane x :=
  modLane_lane_of_ne s l (·.onFront fun r => { r with bandsDone := r.bandsDone + 1 }) hx

theorem bandDone_eq {k : Nat} (hstate : s.pack.state = .banding) (hl : s.pack.attached = some l)
    (hk : s.pack.step = some (.band k)) (hqueue : (s.lane l).queue = r :: rest) : s.bandDone =
      if k < r.bandCount then (bandCounted s l).proceedTo l (.band (k + 1))
      else if (s.lane l).labelRequired then (bandCounted s l).proceedTo l .label
      else (bandCounted s l).endService l := by
  have hlabel : ((bandCounted s l).lane l).labelRequired = (s.lane l).labelRequired := by rw [bandCounted_lane hqueue]
  simp only [State.bandDone, hstate, hl, hk, State.bandEnds, hqueue]
  rw [← hlabel]
  rfl

/-- The step that follows a band that is not the last of its service. -/
def stepAfterBand (r : CoilRecord) (k : Nat) : PackStep := if k < r.bandCount then .band (k + 1) else .label

theorem bandDone_goesOn {k : Nat} (hstate : s.pack.state = .banding) (hl : s.pack.attached = some l)
    (hk : s.pack.step = some (.band k)) (hqueue : (s.lane l).queue = r :: rest)
    (hmore : k < r.bandCount ∨ (s.lane l).labelRequired = true) :
    s.bandDone = (bandCounted s l).proceedTo l (stepAfterBand r k) := by
  rw [bandDone_eq hstate hl hk hqueue, stepAfterBand]
  by_cases hband : k < r.bandCount
  · rw [if_pos hband, if_pos hband]
  · rw [if_neg hband, if_neg hband, if_pos (hmore.resolve_left hband)]

/-- The step after a band is entered for its seconds. -/
theorem enterStep_stepAfterBand (s : State) (r : CoilRecord) (k : Nat) : s.enterStep (stepAfterBand r k) = { s with
    pack := if k < r.bandCount then packBanding s.pack s.now (k + 1) (carriedRestarts s.pack)
      else packLabelling s.pack s.now } := by
  unfold stepAfterBand
  split
  · rfl
  · rfl

/-- What a band that is not the last of its service leaves. -/
theorem bandDone_spec {k : Nat} (hstate : s.pack.state = .banding) (hl : s.pack.attached = some l)
    (hk : s.pack.step = some (.band k)) (hqueue : (s.lane l).queue = r :: rest)
    (hmore : k < r.bandCount ∨ (s.lane l).labelRequired = true) :
    let t := s.bandDone.chooseFrame
    t.lane l = { s.lane l with queue := { r with bandsDone := r.bandsDone + 1 } :: rest } ∧
    (∀ x, x ≠ l → t.lane x = s.lane x) ∧ t.pack.attached = some l ∧ t.pack.step = some (stepAfterBand r k) ∧
    (s.pack.suspendPending = true →
      t.pack.state = .suspended ∧ t.pack.stepTimer = none ∧ t.pack.restarts = s.pack.restarts ∧
      t.link = (s.notify (some l) (.suspended .host (some l) (some (stepAfterBand r k)))).chooseFrame.link) ∧
    (s.pack.suspendPending = false → t.link = s.chooseFrame.link) ∧
    (s.pack.suspendPending = false → k < r.bandCount →
      t.strapOut = true ∧ t.pack.stepTimer = some (s.now + s.pack.bandTimeout * 1000000) ∧
      t.pack.restarts = carriedRestarts s.pack ∧ t.pack.bandRepeats = false) ∧
    (s.pack.suspendPending = false → ¬k < r.bandCount →
      t.labelOut = true ∧ t.pack.stepTimer = some (s.now + s.pack.labelTimeout * 1000000) ∧
      t.pack.restarts = s.pack.restarts) ∧
    t = { s with lanes := t.lanes, pack := t.pack, link := t.link } := by
  have hlane := bandCounted_lane hqueue
  have hothers : ∀ x, x ≠ l → (bandCounted s l).lane x = s.lane x := fun x hx => bandCounted_lane_of_ne hx
  have htells : TellsAs (bandCounted s l) s := ⟨rfl, rfl⟩
  have hframe := bandCounted_frame s l
  intro t
  have hafter : t = ((bandCounted s l).proceedTo l (stepAfterBand r k)).chooseFrame :=
    congrArg State.chooseFrame (bandDone_goesOn hstate hl hk hqueue hmore)
  clear_value t
  cases hpending : s.pack.suspendPending with
  | true =>
    rw [proceedTo_of_pending (s := bandCounted s l) hpending] at hafter
    have ht := eq_of_chooseFrame hafter
    have hpack : t.pack = packSuspended (bandCounted s l).pack (some l) (some (stepAfterBand r k)) := by rw [ht]
    have hlanes : ∀ x, t.lane x = (bandCounted s l).lane x := fun x => by rw [ht]; rfl
    refine ⟨by rw [hlanes, hlane], fun x hx => by rw [hlanes, hothers x hx], by rw [hpack]; rfl, by rw [hpack]; rfl,
      fun _ => ⟨by rw [hpack]; rfl, by rw [hpack]; rfl, by rw [hpack]; rfl, ?_⟩, nofun, nofun, nofun, ?_⟩
    · rw [hafter]
      exact chooseFrame_link (htells.notify _ _).link
    · rw [ht, hframe]
  | false =>
    rw [proceedTo_of_not_pending (s := bandCounted s l) hpending, enterStep_stepAfterBand] at hafter
    have ht := eq_of_chooseFrame hafter
    have hlink : t.link = s.chooseFrame.link := by rw [hafter]; exact chooseFrame_link htells.link
    have hlanes : ∀ x, t.lane x = (bandCounted s l).lane x := fun x => by rw [ht]; rfl
    have hpack : t.pack = if k < r.bandCount then packBanding (bandCounted s l).pack s.now (k + 1) (carriedRestarts s.pack)
        else packLabelling (bandCounted s l).pack s.now := by rw [ht]; rfl
    have hgoes : t.pack.attached = some l ∧ t.pack.step = some (stepAfterBand r k) := by
      rw [hpack, stepAfterBand]
      split
      · exact ⟨hl, rfl⟩
      · exact ⟨hl, rfl⟩
    refine ⟨by rw [hlanes, hlane], fun x hx => by rw [hlanes, hothers x hx], hgoes.1, hgoes.2, nofun, fun _ => hlink,
      fun _ hband => ?_, fun _ hband => ?_, by rw [ht, hframe]⟩
    · rw [if_pos hband] at hpack
      exact ⟨by rw [State.strapOut, hpack]; rfl, by rw [hpack]; rfl, by rw [hpack]; rfl, by rw [hpack]; rfl⟩
    · rw [if_neg hband] at hpack
      exact ⟨by rw [State.labelOut, hpack]; rfl, by rw [hpack]; rfl, by rw [hpack]; rfl⟩

/-! ## The end of a service (R133, R153) -/

/-- The state in which COIL_PACKED has been sent and the lane is rearmed. -/
def packedTold (s : State) (l : LineId) (r : CoilRecord) : State :=
  (s.notify (some l) (.coilPacked r.number r.attempts r.bandsDone r.restarts (r.packTime.getD 0) s.completed.length)).modLane l
    fun q => { q with
      rearmed := !q.coilReady, enable := if q.disablePending then .disabled else q.enable, disablePending := false }

/-- The end of the service does what the rules name. -/
theorem serviceFinished_finishService (s : State) (l : LineId) (r : CoilRecord) :
    ServiceFinished s (s.finishService l r) l r := by
  have htold := notify_eq s (some l)
    (.coilPacked r.number r.attempts r.bandsDone r.restarts (r.packTime.getD 0) s.completed.length)
  have hpack : (packedTold s l r).pack = s.pack := by unfold packedTold; rw [htold]; rfl
  have hframe : packedTold s l r = { s with lanes := (packedTold s l r).lanes, link := (packedTold s l r).link } := by
    unfold packedTold; rw [htold]; rfl
  have hlane : (packedTold s l r).lane l = { s.lane l with
      rearmed := !(s.lane l).coilReady
      enable := if (s.lane l).disablePending then .disabled else (s.lane l).enable
      disablePending := false } := by
    unfold packedTold
    rw [modLane_lane_self, htold]
    rfl
  have hothers : ∀ x, x ≠ l → (packedTold s l r).lane x = s.lane x := fun x hx => by
    unfold packedTold
    rw [modLane_lane_of_ne _ _ _ hx, htold]
    rfl
  have htells : TellsAs (packedTold s l r) (s.notify (some l)
    (.coilPacked r.number r.attempts r.bandsDone r.restarts (r.packTime.getD 0) s.completed.length)) := ⟨rfl, rfl⟩
  have hfinish : s.finishService l r = if (packedTold s l r).pack.suspendPending then (packedTold s l r).suspend none none
      else (packedTold s l r).freeHead := rfl
  rw [hfinish, hpack]
  unfold ServiceFinished
  generalize packedTold s l r = v at hpack hframe hlane hothers htells
  cases hpending : s.pack.suspendPending with
  | true =>
    refine ⟨v.suspend none none, rfl, ?_, fun x hx => ?_, ?_, ?_, ?_⟩
    · rw [suspend_eq]
      exact hlane
    · rw [suspend_eq]
      exact hothers x hx
    · rw [suspend_eq, hpack]
      rfl
    · rw [suspend_eq]
      exact (htells.notify _ _).link
    · rw [suspend_eq, hframe]
  | false =>
    refine ⟨{ v with pack := packFreed v.pack }, freeHead_eq v, hlane, hothers, ?_, htells.link, by rw [hframe]⟩
    simp only [packFreed, hpack, hpending, Bool.false_eq_true, if_false]

/-- The end of a service leaves all but the lanes, the head and the link. -/
theorem serviceFinished_frame (h : ServiceFinished s t l r) : t = { s with lanes := t.lanes, pack := t.pack, link := t.link } := by
  obtain ⟨v, ht, -, -, -, -, hframe⟩ := h
  cases hpending : s.pack.suspendPending with
  | true =>
    rw [hpending, if_pos rfl] at ht
    rw [ht, hframe]
  | false =>
    rw [hpending, if_neg Bool.false_ne_true] at ht
    rw [ht, evaluateGrant_eq, hframe]

/-- A task of the end of a service. -/
def runTask (l : LineId) (r : CoilRecord) (s : State) : ServiceTask → State
  | .finish => s.finishService l r
  | .retest => s.retestAround l

/-- The record moved to the completed coil list. -/
def recordMoved (s : State) (l : LineId) (r : CoilRecord) (rest : List CoilRecord) : State :=
  { s.modLane l (fun q => { q with queue := rest }) with
    completed := s.completed ++ [r], pack := { s.pack with reserved := 0, stepTimer := none } }

theorem endService_eq (hqueue : (s.lane l).queue = r :: rest) :
    let packed : CoilRecord := { r with packTime := some s.stamp }
    let m := recordMoved s l packed rest
    s.endService l = m.inAnyOrder (if m.heldCutAt l then [ServiceTask.finish, .retest] else [.finish]) (runTask l packed) := by
  have htasks : ∀ p : CoilRecord, (fun (s : State) (t : ServiceTask) => match t with
      | .finish => s.finishService l p
      | .retest => s.retestAround l) = runTask l p := fun p => by
    funext s t
    cases t <;> rfl
  intro packed m
  simp only [State.endService, hqueue]
  exact congrArg (State.inAnyOrder m _) (htasks packed)

theorem heldCutAt_iff (s : State) (l : LineId) : s.heldCutAt l = true ↔
    (∃ p, (s.coilRec l).stage = .held p) ∨ ∃ x, (s.line l).cfg.leader = some x ∧ ∃ p, (s.coilRec x).stage = .held p := by
  unfold State.heldCutAt
  rw [Bool.or_eq_true, holdsCut_iff]
  refine or_congr_right ?_
  cases hx : (s.line l).cfg.leader with
  | none => exact ⟨nofun, fun ⟨_, h, _⟩ => nomatch h⟩
  | some x =>
    refine (holdsCut_iff s x).trans ⟨fun h => ⟨x, rfl, h⟩, fun ⟨y, hy, h⟩ => ?_⟩
    obtain rfl := Option.some.inj hy
    exact h

/-- A state from which the service of a lane ends: that of the event, but for the lane's queue and the step timer. -/
structure ServiceAtEnd (s u : State) (l : LineId) : Prop where
  lane : u.lane l = { s.lane l with queue := (u.lane l).queue }
  others : ∀ x, x ≠ l → u.lane x = s.lane x
  pack : u.pack = { s.pack with stepTimer := u.pack.stepTimer }
  frame : u = { s with lanes := u.lanes, pack := u.pack }

theorem ServiceAtEnd.refl (s : State) (l : LineId) : ServiceAtEnd s s l := ⟨rfl, fun _ _ => rfl, rfl, rfl⟩

theorem ServiceAtEnd.bandCounted (hqueue : (s.lane l).queue = r :: rest) : ServiceAtEnd s (bandCounted s l) l :=
  ⟨by rw [bandCounted_lane hqueue], fun _ hx => bandCounted_lane_of_ne hx, rfl, rfl⟩

/-- The move of a record, with any choices of an order, is that of the rules. -/
theorem ServiceAtEnd.recordPacked (a : ServiceAtEnd s u l) (r : CoilRecord) (rest : List CoilRecord) (n : Nat) :
    RecordPacked s { recordMoved u l r rest with choices := n } l r rest := by
  refine ⟨?_, ?_, fun x hx => ?_, ?_, ?_⟩
  · show u.completed ++ [r] = _
    rw [a.frame]
  · show (u.modLane l fun q => { q with queue := rest }).lane l = _
    rw [modLane_lane_self, a.lane]
  · exact (modLane_lane_of_ne u l (fun q => { q with queue := rest }) hx).trans (a.others x hx)
  · show { u.pack with reserved := 0, stepTimer := none } = _
    rw [a.pack]
  · unfold recordMoved
    rw [a.frame]
    rfl

/-- The tasks of the end of a service leave the completed coil list. -/
theorem runTask_completed (l : LineId) (r : CoilRecord) (s : State) (k : ServiceTask) :
    (runTask l r s k).completed = s.completed := by
  cases k with
  | finish =>
    show (s.finishService l r).completed = _
    rw [serviceFinished_frame (serviceFinished_finishService s l r)]
  | retest =>
    show (s.retestAround l).completed = _
    cases hx : (s.line l).cfg.leader with
    | none => rw [retestAround_of_none hx, retest_completed]
    | some x => rw [retestAround_of_leader hx, retest_completed, retest_completed]

/-- The end of a service does what the rules name: the record moved, what is left to do, and the test of the held cuts that
its room can release, in a free order. -/
theorem ServiceAtEnd.serviceEnds (a : ServiceAtEnd s u l) (hqueue : (u.lane l).queue = r :: rest) :
    let packed : CoilRecord := { r with packTime := some s.stamp }
    (u.endService l).completed = s.completed ++ [packed] ∧ ServiceEnds s (u.endService l) l packed rest := by
  intro packed
  have hstamp : u.stamp = s.stamp := by rw [a.frame]; rfl
  have hend := endService_eq hqueue
  rw [hstamp] at hend
  have hmoved : ∀ n, RecordPacked s { recordMoved u l packed rest with choices := n } l packed rest :=
    a.recordPacked packed rest
  have hchoices : (recordMoved u l packed rest).choices = s.choices := by unfold recordMoved; rw [a.frame]; rfl
  have hheld := heldCutAt_iff (recordMoved u l packed rest) l
  have hcoil : ∀ x, (recordMoved u l packed rest).coilRec x = s.coilRec x := fun x => by
    unfold recordMoved; rw [a.frame]; rfl
  have hline : (recordMoved u l packed rest).line l = s.line l := by unfold recordMoved; rw [a.frame]; rfl
  have hsame : ({ recordMoved u l packed rest with choices := (recordMoved u l packed rest).choices } : State) =
    recordMoved u l packed rest := rfl
  dsimp only at hend
  change u.endService l = (recordMoved u l packed rest).inAnyOrder _ (runTask l packed) at hend
  generalize recordMoved u l packed rest = m at *
  rw [hline] at hheld
  simp only [hcoil] at hheld
  by_cases h : m.heldCutAt l = true
  · have hone := hmoved (m.choices + 1)
    generalize hm' : ({ m with choices := m.choices + 1 } : State) = m' at hone
    rw [if_pos h] at hend
    have hcompleted := hone.1
    have hnot : ¬((∀ p, (s.coilRec l).stage ≠ .held p) ∧
        ∀ x, (s.line l).cfg.leader = some x → ∀ p, (s.coilRec x).stage ≠ .held p) := fun ⟨hown, hleader⟩ => by
      rcases hheld.mp h with ⟨p, hp⟩ | ⟨x, hx, p, hp⟩
      · exact hown p hp
      · exact hleader x hx p hp
    unfold State.inAnyOrder State.inOrder at hend
    rcases freelyOrdered_pair m.choices ServiceTask.finish ServiceTask.retest with horder | horder
    · have hrun : u.endService l = runTask l packed (runTask l packed m' .finish) .retest := by
        rw [hend, horder, ← hm']; rfl
      rw [hrun]
      refine ⟨by rw [runTask_completed, runTask_completed, hcompleted], ⟨m', runTask l packed m' .finish, hone,
        .inl ⟨serviceFinished_finishService m' l packed, retestedAround_retestAround _ l⟩⟩, fun hown hleader =>
          absurd ⟨hown, hleader⟩ hnot⟩
    · have hrun : u.endService l = runTask l packed (runTask l packed m' .retest) .finish := by
        rw [hend, horder, ← hm']; rfl
      rw [hrun]
      refine ⟨by rw [runTask_completed, runTask_completed, hcompleted], ⟨m', runTask l packed m' .retest, hone,
        .inr ⟨retestedAround_retestAround m' l, serviceFinished_finishService _ l packed⟩⟩, fun hown hleader =>
          absurd ⟨hown, hleader⟩ hnot⟩
  · have hm := hmoved m.choices
    rw [hsame] at hm
    rw [if_neg h] at hend
    have hrun : u.endService l = m.finishService l packed := hend
    have hfinished := serviceFinished_finishService m l packed
    rw [hrun]
    have hframe := serviceFinished_frame hfinished
    have hfinishedCoil : ∀ x, (m.finishService l packed).coilRec x = s.coilRec x := fun x => by
      rw [hframe]; exact hcoil x
    have hfinishedLine : (m.finishService l packed).line l = s.line l := by rw [hframe]; exact hline
    have hsteady : (m.finishService l packed).retestAround l = m.finishService l packed :=
      retestAround_of_not_held (fun p hp => h (hheld.mpr (.inl ⟨p, by rw [← hfinishedCoil]; exact hp⟩)))
        fun x hx p hp => h (hheld.mpr (.inr ⟨x, by rw [← hfinishedLine]; exact hx, p, by rw [← hfinishedCoil]; exact hp⟩))
    refine ⟨(congrArg State.completed hframe).trans hm.1, ⟨m, m.finishService l packed, hm, .inl ⟨hfinished, ?_⟩⟩,
      fun _ _ => ⟨m, hm, hchoices, hfinished⟩⟩
    have hretested := retestedAround_retestAround (m.finishService l packed) l
    rwa [hsteady] at hretested

/-- Settles O52: each event is taken in the state that awaits it, and the service's end goes through the record's move, its two
tasks in a free order, and the grant. -/
theorem serviceRunsBandsAndPacksRecord : Obligations.ServiceRunsBandsAndPacksRecord := by
  refine ⟨fun s held => ⟨fun h => ?_, fun h => ⟨?_, ?_⟩, fun h => ?_⟩, fun s l held hheld hl => ?_⟩
  · exact congrArg done (ifHeld_of_fixed (arrive_of_ne h) held)
  · exact congrArg done (ifHeld_of_fixed (bandDone_of_ne h) held)
  · exact congrArg done (ifHeld_of_fixed (clampSlip_of_ne h) held)
  · exact congrArg done (ifHeld_of_fixed (labelDone_of_ne h) held)
  have harrive : exec (.headAtLane held) s = .next s.arrive.chooseFrame := congrArg done (State.ifHeld_of_le hheld s _)
  have hband : exec (.bandDone held) s = .next s.bandDone.chooseFrame := congrArg done (State.ifHeld_of_le hheld s _)
  have hlabel : exec (.labelDone held) s = .next s.labelDone.chooseFrame := congrArg done (State.ifHeld_of_le hheld s _)
  intro suspendedFrom
  refine ⟨fun hstate k hk => ⟨_, harrive, fun hpending => ?_, fun hpending => arrive_suspended hstate hl hk hpending⟩,
    fun hstate hk hpending => ?_, fun hstate hk hpending => ⟨_, harrive, arrive_suspended hstate hl hk hpending⟩,
    fun k r rest hstate hk hqueue => ⟨fun hmore => ⟨_, hband, bandDone_spec hstate hl hk hqueue hmore⟩,
      fun hlast hnolabel => ⟨s.bandDone, hband, ?_⟩⟩, fun r rest hstate hqueue => ⟨s.labelDone, hlabel, ?_⟩⟩
  · rw [arrive_eq hstate hl hk, proceedTo_of_not_pending (s := headArrived s l) hpending, enterStep_band]
    rfl
  · rw [harrive, arrive_eq hstate hl hk, proceedTo_of_not_pending (s := headArrived s l) hpending]
    rfl
  · rw [bandDone_eq hstate hl hk hqueue, if_neg hlast, if_neg (by rw [hnolabel]; exact Bool.false_ne_true)]
    exact (ServiceAtEnd.bandCounted hqueue).serviceEnds (congrArg LaneRec.queue (bandCounted_lane hqueue))
  · have hends : s.labelDone = s.endService l := by simp only [State.labelDone, hstate, hl]
    rw [hends]
    exact (ServiceAtEnd.refl s l).serviceEnds hqueue

end Sys2Proof.Proofs

/-! RUN START: the recipe, the heads, the KS and the channels of a run that opens, and the statement O35 (R7, R8, R29, R31, R65,
R68 to R70, R83, R93, R94, R130). -/

namespace Sys2Proof.Proofs

open Sys2Proof.Machine Sys2Proof.Safety

variable {s t : State} {l : LineId} {n : Slot} {r : Recipe}

/-! ## The channels (R29, R31, R36) -/

theorem foldl_modChannel_frame (g : Channel → Channel) (cs : List ChannelId) (s : State) :
    cs.foldl (fun s c => s.modChannel c g) s =
      { s with channels := (cs.foldl (fun s c => s.modChannel c g) s).channels } :=
  foldl_keeps (Q := fun t => t = { s with channels := t.channels }) (fun t c _ ht => by rw [ht]; rfl) rfl

theorem foldl_modChannel_channel {g : Channel → Channel} {cs : List ChannelId} (hnodup : cs.Nodup) (s : State) (x : ChannelId) :
    (cs.foldl (fun s c => s.modChannel c g) s).channel x = if x ∈ cs then g (s.channel x) else s.channel x := by
  induction cs generalizing s with
  | nil => rfl
  | cons c cs ih =>
    obtain ⟨hc, hrest⟩ := List.nodup_cons.mp hnodup
    rw [List.foldl_cons, ih hrest, modChannel_channel]
    by_cases hx : x = c
    · subst hx; simp [hc]
    · simp [hx]

/-- A channel serves by its entry, the lines' configurations and the heads' settings. -/
theorem servedLine_congr {c : ChannelId} (hchannel : t.channel c = s.channel c)
    (hline : ∀ y, (t.line y).cfg = (s.line y).cfg ∧ (t.line y).kind = (s.line y).kind)
    (hhead : ∀ h, (t.head h).settings = (s.head h).settings) : t.servedLine c = s.servedLine c := by
  unfold State.servedLine
  simp only [hchannel, (hline _).1, (hline _).2, hhead]

/-! ## The KS and the scan link (R93, R94) -/

/-- A scan link at the start of a run. -/
def linkStarted (k : LinkRec) : LinkRec := { k with gate := false, scan := none, chain := .normal }

theorem knotRunStart_of_rope (h : (s.line l).kind = .rope) : s.knotRunStart l = s := by
  simp only [State.knotRunStart, h]

theorem knotRunStart_of_serves {k : ScanLink} (h : LinkServes s l k) :
    s.knotRunStart l = (s.modKnot l fun _ => .powerOn).modScanLink k linkStarted := by
  have hlink : ((s.modKnot l fun _ => .powerOn).line l).cfg.scanLink = some k := h.2
  simp only [State.knotRunStart, h.1, hlink]
  rfl

theorem knotRunStart_of_noLink (hnet : (s.line l).kind = .net) (h : (s.line l).cfg.scanLink = none) :
    s.knotRunStart l = s.modKnot l fun _ => .powerOn := by
  have hlink : ((s.modKnot l fun _ => .powerOn).line l).cfg.scanLink = none := h
  simp only [State.knotRunStart, hnet, hlink]

/-- What the start of a run leaves in the KS. -/
structure KnotStarted (s t : State) (l : LineId) : Prop where
  frame : t = { s with knots := t.knots, linkK1 := t.linkK1, linkK2 := t.linkK2 }
  knot : ∀ y, t.knot y = if y = l ∧ (s.line l).kind = .net then KnotRec.powerOn else s.knot y
  serving : ∀ k, LinkServes s l k → t.scanLink k = linkStarted (s.scanLink k)
  other : ∀ k, ¬LinkServes s l k → t.scanLink k = s.scanLink k

theorem knotStarted_knotRunStart (s : State) (l : LineId) : KnotStarted s (s.knotRunStart l) l := by
  have hlinks : ∀ k, (s.modKnot l fun _ => .powerOn).scanLink k = s.scanLink k := fun k => by cases k <;> rfl
  have hknot : ∀ y, (s.line l).kind = .net → (s.modKnot l fun _ => .powerOn).knot y =
      if y = l ∧ (s.line l).kind = .net then KnotRec.powerOn else s.knot y := fun y hnet => by
    rw [modKnot_knot]
    simp [hnet]
  cases hkind : (s.line l).kind with
  | rope =>
    rw [knotRunStart_of_rope hkind]
    exact ⟨rfl, fun y => (if_neg fun h => by rw [hkind] at h; cases h.2).symm, fun k h => (nomatch hkind.symm.trans h.1),
      fun _ _ => rfl⟩
  | net =>
    cases hlink : (s.line l).cfg.scanLink with
    | none =>
      rw [knotRunStart_of_noLink hkind hlink]
      exact ⟨rfl, fun y => hknot y hkind, fun k h => (nomatch hlink.symm.trans h.2), fun k _ => hlinks k⟩
    | some j =>
      rw [knotRunStart_of_serves ⟨hkind, hlink⟩]
      refine ⟨?_, fun y => ?_, fun k h => ?_, fun k h => ?_⟩
      · rw [modScanLink_frame]; rfl
      · rw [modScanLink_frame]; exact hknot y hkind
      · obtain rfl : k = j := Option.some.inj (h.2.symm.trans hlink)
        rw [modScanLink_scanLink_self, hlinks]
      · have hne : k ≠ j := fun e => h ⟨hkind, e ▸ hlink⟩
        rw [modScanLink_scanLink_of_ne _ _ _ hne, hlinks]

/-! ## The follower's placement (R130) -/

theorem dropPlacement_of_none {x : LineId} (h : (s.coilRec x).stage = .none) : s.dropPlacement x = s := by
  simp only [State.dropPlacement, h]

theorem dropPlacement_of_placed {x : LineId} {p : Placement} (h : (s.coilRec x).stage = .placed p) :
    s.dropPlacement x = staged s x .none := by
  simp only [State.dropPlacement, h]
  rfl

theorem dropPlacement_of_held {x : LineId} {p : Placement} (h : (s.coilRec x).stage = .held p) :
    s.dropPlacement x = (staged s x .none).modLine x withoutCutHeld := by
  rw [← removeCutHeld_eq]
  simp only [State.dropPlacement, h]
  rfl

/-- What dropping a placement leaves. -/
structure PlacementDropped (s t : State) (x : LineId) : Prop where
  frame : t = { s with coils := t.coils, lines := t.lines }
  coilRec : ∀ y, t.coilRec y = if y = x then { s.coilRec x with stage := .none } else s.coilRec y
  held : ∀ p, (s.coilRec x).stage = .held p → t.line x = withoutCutHeld (s.line x)
  kept : ∀ y, (y = x → ∀ p, (s.coilRec x).stage ≠ .held p) → t.line y = s.line y

theorem placementDropped_dropPlacement (s : State) (x : LineId) : PlacementDropped s (s.dropPlacement x) x := by
  have hstaged := staged_coilRec s x .none
  cases h : (s.coilRec x).stage with
  | none =>
    rw [dropPlacement_of_none h]
    refine ⟨rfl, fun y => ?_, fun p hp => (nomatch h.symm.trans hp), fun _ _ => rfl⟩
    split
    next hy => rw [hy, ← h]
    · rfl
  | placed p =>
    rw [dropPlacement_of_placed h]
    exact ⟨rfl, hstaged, fun q hq => (nomatch h.symm.trans hq), fun _ _ => rfl⟩
  | held p =>
    rw [dropPlacement_of_held h]
    refine ⟨rfl, hstaged, fun q _ => modLine_line_self .., fun y hy => ?_⟩
    have hne : y ≠ x := fun e => hy e p h
    exact modLine_line_of_ne (staged s x .none) x withoutCutHeld hne

/-! ## What a run is prepared with (R8, R65, R83) -/

/-- The heads of the line are loaded from the slot of the run. -/
def RunLoads (s : State) (l : LineId) (n : Slot) (h : HeadId) (m : Slot) : Prop := AssignedTo s h l ∧ m = n

theorem runLoads_iff (h : HeadId) (m : Slot) : RunLoads s l n h m ↔ h ∈ s.headsOf l ∧ some n = some m := by
  unfold RunLoads
  rw [mem_headsOf_iff_assigned, Option.some.injEq, eq_comm (a := m)]

/-- The number of copies that the loads of a run write back (R69, R70). -/
def runWritten (s : State) (l : LineId) (n : Slot) : Nat := (s.evicted (fun _ => some n) (s.headsOf l)).length

/-- What the recipe, the heads, the KS and the channels of a run that opens leave. -/
structure Prepared (s t : State) (l : LineId) (n : Slot) : Prop where
  frame : t = { s with
    slots := t.slots, copies := t.copies, lines := t.lines, heads := t.heads, knots := t.knots, linkK1 := t.linkK1
    linkK2 := t.linkK2, spanRecs := t.spanRecs, channels := t.channels, link := t.link }
  reloaded : Reloaded s t (RunLoads s l n)
  line : ∀ y, t.line y = if y = l then rebound (s.line l) else s.line y
  headLoaded : ∀ h, h ∈ s.headsOf l → t.head h = HeadRec.atRunStart { s.head h with trim := (t.head h).trim }
  headKept : ∀ h, h ∉ s.headsOf l → t.head h = s.head h
  knot : ∀ y, y ≠ l → t.knot y = s.knot y
  knotOwn : (s.line l).kind = .net → t.knot l = KnotRec.powerOn
  spanRec : ∀ y, y ≠ l → t.spanRec y = s.spanRec y
  serving : ∀ k, LinkServes s l k → t.scanLink k = linkStarted (s.scanLink k)
  otherLink : ∀ k, ¬LinkServes s l k → t.scanLink k = s.scanLink k
  served : ∀ c, s.servedLine c = some l → t.channel c = (s.channel c).atRunStart
  unserved : ∀ c, s.servedLine c ≠ some l → t.channel c = s.channel c
  told : TellsAs t (boundTold s l (runWritten s l n) true)

theorem rebound_cfg (x : LineRec) : (rebound x).cfg = x.cfg ∧ (rebound x).kind = x.kind := ⟨rfl, rfl⟩

theorem prepared_runPrepared (s : State) (l : LineId) (n : Slot) : Prepared s (runPrepared s l n) l n := by
  have hsorted : (s.headsOf l).Pairwise (· < ·) := (List.pairwise_lt_finRange 16).filter _
  have hreload := reloaded_evictAndLoad (s := s) (target := fun _ => some n) hsorted (runLoads_iff (l := l) (n := n))
  have hframe := evictAndLoad_frame s (fun _ => some n) (s.headsOf l)
  have hhead := evictAndLoad_head s (fun _ => some n) (s.headsOf l)
  unfold runPrepared
  dsimp only
  have hwritten : (s.evicted (fun _ => some n) (s.headsOf l)).length = runWritten s l n := rfl
  rw [hwritten]
  generalize s.evictAndLoad (fun _ => some n) (s.headsOf l) = v at hreload hframe hhead
  have hbound := bindPending_rebinds v l (runWritten s l n) true
  generalize v.bindPending l (runWritten s l n) true = w at hbound
  have hfoldFrame := foldl_modHead_frame HeadRec.atRunStart (s.headsOf l) w
  have hfoldHead := foldl_modHead_head (g := HeadRec.atRunStart) (headsOf_nodup s l) w
  generalize (s.headsOf l).foldl (fun s h => s.modHead h HeadRec.atRunStart) w = x at hfoldFrame hfoldHead
  have hstarted := knotStarted_knotRunStart x l
  generalize x.knotRunStart l = y at hstarted
  have hnodup : (y.channelsOf l).Nodup := (List.nodup_finRange 32).filter _
  have hchanFrame := foldl_modChannel_frame Channel.atRunStart (y.channelsOf l) y
  have hchan := foldl_modChannel_channel (g := Channel.atRunStart) hnodup y
  generalize (y.channelsOf l).foldl (fun s c => s.modChannel c Channel.atRunStart) y = z at hchanFrame hchan
  -- the records of each stage, seen from the start
  have hlinev : ∀ q, v.line q = s.line q := fun q => by rw [hframe]; rfl
  have hlinex : ∀ q, x.line q = if q = l then rebound (s.line l) else s.line q := fun q => by
    rw [← hlinev, ← hlinev, ← hbound.line, hfoldFrame]; rfl
  have hliney : ∀ q, y.line q = x.line q := fun q => by rw [hstarted.frame]; rfl
  have hserves : ∀ k, LinkServes x l k ↔ LinkServes s l k := fun k => by
    unfold LinkServes; rw [hlinex, if_pos rfl]; exact .rfl
  have hheadsv : v.headsOf l = s.headsOf l := headsOf_congr (fun h => by rw [hhead]) l
  have hlinks : ∀ k, x.scanLink k = s.scanLink k := fun k => by
    rw [hfoldFrame, hbound.frame, hframe]; cases k <;> rfl
  have hloaded : ∀ h, h ∈ s.headsOf l → x.head h = (v.head h).atRunStart := fun h hh => by
    rw [hfoldHead, if_pos hh, hbound.head]
    split <;> rfl
  have hkept : ∀ h, h ∉ s.headsOf l → x.head h = v.head h := fun h hh => by
    rw [hfoldHead, if_neg hh, hbound.head, if_neg (fun e => hh (hheadsv ▸ e.1))]
  have hheadz : ∀ h, z.head h = x.head h := fun h => by rw [hchanFrame, hstarted.frame]; rfl
  have htrim : ∀ h, (z.head h).trim = (v.head h).trim ∧ (z.head h).settings = (v.head h).settings := fun h => by
    rw [hheadz]
    by_cases hh : h ∈ s.headsOf l
    · rw [hloaded h hh]; exact ⟨rfl, rfl⟩
    · rw [hkept h hh]; exact ⟨rfl, rfl⟩
  have hsame : CopiesSame v z := by
    refine ⟨?_, ?_, fun h => (htrim h).2, fun h => (htrim h).1⟩
    · rw [hchanFrame, hstarted.frame, hfoldFrame, hbound.frame]
    · rw [hchanFrame, hstarted.frame, hfoldFrame, hbound.frame]
  have hknotv : ∀ q, v.knot q = s.knot q ∧ v.spanRec q = s.spanRec q := fun q => by rw [hframe]; exact ⟨rfl, rfl⟩
  have hknotx : ∀ q, x.knot q = w.knot q ∧ x.spanRec q = w.spanRec q := fun q => by rw [hfoldFrame]; exact ⟨rfl, rfl⟩
  have hknotz : ∀ q, z.knot q = y.knot q ∧ z.spanRec q = x.spanRec q := fun q => by
    rw [hchanFrame, hstarted.frame]; exact ⟨rfl, rfl⟩
  have hlinkz : ∀ k, z.scanLink k = y.scanLink k := fun k => by rw [hchanFrame]; cases k <;> rfl
  have hchany : ∀ c, y.channel c = s.channel c := fun c => by
    rw [hstarted.frame, hfoldFrame, hbound.frame, hframe]; rfl
  have hservedy : ∀ c, c ∈ y.channelsOf l ↔ s.servedLine c = some l := fun c => by
    rw [mem_channelsOf, servedLine_congr (hchany c) (fun q => ?_) fun h => ?_]
    · rw [hliney, hlinex]
      split
      next hq => rw [hq]; exact rebound_cfg _
      · exact ⟨rfl, rfl⟩
    · have hyz : y.head h = z.head h := by rw [hchanFrame]; rfl
      rw [hyz, (htrim h).2, hhead]
  refine ⟨by rw [hchanFrame, hstarted.frame, hfoldFrame, hbound.frame, hframe], (CopiesSame.refl s).reloaded hsame hreload,
    fun q => ?_, fun h hh => ?_, fun h hh => ?_, fun q hq => ?_, fun hnet => ?_, fun q hq => ?_, fun k hk => ?_, fun k hk => ?_,
    fun c hc => ?_, fun c hc => ?_, ?_⟩
  · rw [← hlinex, ← hliney, hchanFrame]; rfl
  · rw [(htrim h).1, hheadz, hloaded h hh, ← hhead]
  · have hnot : ∀ m, ¬RunLoads s l n h m := fun m hm => hh (mem_headsOf_iff_assigned.mpr hm.1)
    rw [hheadz, hkept h hh, hhead, hreload.trims h hnot]
  · rw [(hknotz q).1, hstarted.knot, if_neg (fun e => hq e.1), (hknotx q).1, (hbound.others q hq).1, (hknotv q).1]
  · rw [(hknotz l).1, hstarted.knot, if_pos ⟨rfl, by rw [hlinex, if_pos rfl]; exact hnet⟩]
  · rw [(hknotz q).2, (hknotx q).2, (hbound.others q hq).2, (hknotv q).2]
  · rw [hlinkz, hstarted.serving k ((hserves k).mpr hk), hlinks]
  · rw [hlinkz, hstarted.other k (fun e => hk ((hserves k).mp e)), hlinks]
  · rw [hchan, if_pos ((hservedy c).mpr hc), hchany]
  · rw [hchan, if_neg (fun e => hc ((hservedy c).mp e)), hchany]
  · have hzw : TellsAs z w :=
      ⟨by rw [hchanFrame, hstarted.frame, hfoldFrame], by rw [hchanFrame, hstarted.frame, hfoldFrame]; rfl⟩
    have hvs : TellsAs v s := ⟨by rw [hframe], by rw [hframe]; rfl⟩
    exact (hzw.trans hbound.told).trans (tellsAs_boundTold hvs (hlinev l) (by rw [hframe]; rfl))

end Sys2Proof.Proofs

/-! The records of a run that opens, the follower's placement, and the statement O35 (R7, R8, R65, R130). -/

namespace Sys2Proof.Proofs

open Sys2Proof.Machine Sys2Proof.Safety

variable {s t : State} {l : LineId} {n : Slot} {r : Recipe} {warm : Bool}

/-! ## The records of the line (R8) -/

/-- The records of a line whose run opens. -/
def lineOpened (warm : Bool) (x : LineRec) : LineRec :=
  { x with state := .running, causes := .empty, reverseClamp := false, warmStart := warm }
def coilStarted (n : Slot) (k : CoilRec) : CoilRec := { k with coil := some ⟨n, 0, 0, 0⟩, stage := .none, pairedHold := false }
def posOpened (c : LineConfig) (r : Recipe) (p : PositionRec) : PositionRec :=
  { p with position := 0, slip := c.wheelChannel.map fun _ => ⟨0, 0, 0⟩, markTarget := firstMark 0 r }

theorem runRecords_eq (s : State) (l : LineId) (n : Slot) (r : Recipe) (warm : Bool) : runRecords s l n r warm =
    (((s.modSpanRec l fun x => { x.emptied with arrival := 0 }).modCoil l (coilStarted n)).modPos l
      (posOpened (s.line l).cfg r)).modLine l (lineOpened warm) := by
  have hline : (((s.modSpanRec l fun x => { x.emptied with arrival := 0 }).modCoil l (coilStarted n)).line l) = s.line l := rfl
  have hslip : (fun p : PositionRec => { p with
      position := 0
      slip := if (s.line l).cfg.wheelChannel.isSome then some (⟨0, 0, 0⟩ : SlipWindow) else none
      markTarget := markTargetFrom 0 (some r) }) = posOpened (s.line l).cfg r := by
    funext p
    unfold posOpened
    cases (s.line l).cfg.wheelChannel <;> rfl
  rw [← hslip]
  rfl

/-- What the opening of a run leaves. -/
structure RunOpened (s t : State) (l : LineId) (n : Slot) (r : Recipe) (warm : Bool) : Prop where
  frame : t = { s with
    slots := t.slots, copies := t.copies, lines := t.lines, heads := t.heads, knots := t.knots, linkK1 := t.linkK1
    linkK2 := t.linkK2, spanRecs := t.spanRecs, channels := t.channels, link := t.link, coils := t.coils
    positions := t.positions }
  reloaded : Reloaded s t (RunLoads s l n)
  line : t.line l = lineOpened warm (rebound (s.line l))
  pos : ∀ y, t.pos y = if y = l then posOpened (s.line l).cfg r (s.pos l) else s.pos y
  coilRec : t.coilRec l = coilStarted n (s.coilRec l)
  spanRec : ∀ y, y ≠ l → t.spanRec y = s.spanRec y
  lists : ListsEmpty (t.spanRec l)
  headLoaded : ∀ h, h ∈ s.headsOf l → t.head h = HeadRec.atRunStart { s.head h with trim := (t.head h).trim }
  headKept : ∀ h, h ∉ s.headsOf l → t.head h = s.head h
  knot : ∀ y, y ≠ l → t.knot y = s.knot y
  knotOwn : (s.line l).kind = .net → t.knot l = KnotRec.powerOn
  serving : ∀ k, LinkServes s l k → t.scanLink k = linkStarted (s.scanLink k)
  otherLink : ∀ k, ¬LinkServes s l k → t.scanLink k = s.scanLink k
  served : ∀ c, s.servedLine c = some l → t.channel c = (s.channel c).atRunStart
  unserved : ∀ c, s.servedLine c ≠ some l → t.channel c = s.channel c
  followerCoil : ∀ y, y ≠ l → s.follower l = some y → t.coilRec y = { s.coilRec y with stage := .none }
  followerHeld : ∀ y, y ≠ l → s.follower l = some y → ∀ p, (s.coilRec y).stage = .held p → t.line y = withoutCutHeld (s.line y)
  followerLine : ∀ y, y ≠ l → s.follower l = some y → (∀ p, (s.coilRec y).stage ≠ .held p) → t.line y = s.line y
  others : ∀ y, y ≠ l → s.follower l ≠ some y → t.coilRec y = s.coilRec y ∧ t.line y = s.line y
  told : TellsAs t (boundTold s l (runWritten s l n) true)

/-- What the records of a run that opens change. -/
structure RecordsOpened (s t : State) (l : LineId) (n : Slot) (r : Recipe) (warm : Bool) : Prop where
  frame : t = { s with lines := t.lines, spanRecs := t.spanRecs, coils := t.coils, positions := t.positions }
  line : ∀ y, t.line y = if y = l then lineOpened warm (s.line l) else s.line y
  pos : ∀ y, t.pos y = if y = l then posOpened (s.line l).cfg r (s.pos l) else s.pos y
  coilRec : ∀ y, t.coilRec y = if y = l then coilStarted n (s.coilRec l) else s.coilRec y
  spanRec : ∀ y, t.spanRec y = if y = l then { (s.spanRec l).emptied with arrival := 0 } else s.spanRec y

theorem recordsOpened_runRecords (s : State) (l : LineId) (n : Slot) (r : Recipe) (warm : Bool) :
    RecordsOpened s (runRecords s l n r warm) l n r warm := by
  rw [runRecords_eq]
  exact ⟨rfl, fun y => modLine_line s l (lineOpened warm) y, fun y => modPos_pos s l (posOpened (s.line l).cfg r) y,
    fun y => modCoil_coilRec s l (coilStarted n) y,
    fun y => modSpanRec_spanRec s l (fun x => { x.emptied with arrival := 0 }) y⟩

/-- What dropping the placement of the line's follower leaves. -/
structure FollowerDropped (s t : State) (l : LineId) : Prop where
  frame : t = { s with coils := t.coils, lines := t.lines }
  coilRec : ∀ y, s.follower l = some y → t.coilRec y = { s.coilRec y with stage := .none }
  held : ∀ y, s.follower l = some y → ∀ p, (s.coilRec y).stage = .held p → t.line y = withoutCutHeld (s.line y)
  kept : ∀ y, s.follower l = some y → (∀ p, (s.coilRec y).stage ≠ .held p) → t.line y = s.line y
  others : ∀ y, s.follower l ≠ some y → t.coilRec y = s.coilRec y ∧ t.line y = s.line y

theorem followerDropped_of_none (h : s.follower l = none) : FollowerDropped s s l := by
  have hnot : ∀ y, s.follower l ≠ some y := fun y hy => by rw [h] at hy; cases hy
  exact ⟨rfl, fun y hy => absurd hy (hnot y), fun y hy => absurd hy (hnot y), fun y hy => absurd hy (hnot y),
    fun _ _ => ⟨rfl, rfl⟩⟩

theorem followerDropped_dropPlacement {f : LineId} (h : s.follower l = some f) : FollowerDropped s (s.dropPlacement f) l := by
  obtain ⟨hframe, hcoil, hheld, hkept⟩ := placementDropped_dropPlacement s f
  have hf : ∀ y, s.follower l = some y → y = f := fun y hy => Option.some.inj (hy.symm.trans h)
  refine ⟨hframe, fun y hy => ?_, fun y hy p hp => ?_, fun y hy hno => ?_, fun y hy => ?_⟩
  · rw [hcoil, if_pos (hf y hy), hf y hy]
  · obtain rfl := hf y hy
    exact hheld p hp
  · exact hkept y fun e => e ▸ hno
  · have hne : y ≠ f := fun e => hy (e ▸ h)
    exact ⟨by rw [hcoil, if_neg hne], hkept y fun e => absurd e hne⟩

/-- Whether the run opens with every head's learned trim (R8). -/
def warmStart (s : State) (l : LineId) (n : Slot) : Bool := !(s.headsOf l).isEmpty && (s.headsOf l).all (s.isHit n)

theorem warmStart_iff (s : State) (l : LineId) (n : Slot) : warmStart s l n = true ↔
    (∃ h u, (s.head h).settings = some u ∧ u.line = l) ∧ ∀ h u, (s.head h).settings = some u → u.line = l →
      (s.copy h).state ≠ .invalid ∧ (s.copy h).slot = some n := by
  have hmem : ∀ h, h ∈ s.headsOf l ↔ ∃ u, (s.head h).settings = some u ∧ u.line = l := fun h => mem_headsOf_iff_assigned
  have hsome : (!(s.headsOf l).isEmpty) = true ↔ ∃ h u, (s.head h).settings = some u ∧ u.line = l := by
    rw [Bool.not_eq_true', List.isEmpty_eq_false_iff_exists_mem]
    exact exists_congr hmem
  unfold warmStart
  rw [Bool.and_eq_true, hsome, List.all_eq_true]
  refine and_congr_right fun _ => ⟨fun h x u hu hul => isHit_iff.mp (h x ((hmem x).mpr ⟨u, hu, hul⟩)), fun h x hx => ?_⟩
  obtain ⟨u, hu, hul⟩ := (hmem x).mp hx
  exact isHit_iff.mpr (h x u hu hul)

/-- The opening of a run: what it is prepared with, the records, and the follower's placement. -/
theorem runOpened_openRun (s : State) (l : LineId) (n : Slot) (r : Recipe) :
    RunOpened s (s.openRun l n r) l n r (warmStart s l n) := by
  have hprepared := prepared_runPrepared s l n
  have hopen : s.openRun l n r = match (runRecords (runPrepared s l n) l n r (warmStart s l n)).follower l with
    | some f => (runRecords (runPrepared s l n) l n r (warmStart s l n)).dropPlacement f
    | none => runRecords (runPrepared s l n) l n r (warmStart s l n) := openRun_eq s l n r
  generalize warmStart s l n = warm at hopen
  generalize runPrepared s l n = z at hprepared hopen
  have hrecords := recordsOpened_runRecords z l n r warm
  generalize runRecords z l n r warm = u at hrecords hopen
  have hdropped : FollowerDropped u (s.openRun l n r) l := by
    rw [hopen]
    cases hf : u.follower l with
    | none => exact followerDropped_of_none hf
    | some f => exact followerDropped_dropPlacement hf
  generalize s.openRun l n r = t at hdropped
  have hlinez : ∀ y, (z.line y).cfg = (s.line y).cfg := fun y => by
    rw [hprepared.line]
    split
    next hy => rw [hy]; rfl
    · rfl
  have hfollower : u.follower l = s.follower l := follower_congr (fun y => by
    rw [hrecords.line]
    split
    next hy => rw [hy]; exact congrArg LineConfig.leader (hlinez l)
    · rw [hlinez]) l
  have hcoilz : ∀ y, z.coilRec y = s.coilRec y := fun y => by rw [hprepared.frame]; rfl
  have hposz : ∀ y, z.pos y = s.pos y := fun y => by rw [hprepared.frame]; rfl
  have hcoilu : ∀ y, y ≠ l → u.coilRec y = s.coilRec y := fun y hy => by rw [hrecords.coilRec, if_neg hy, hcoilz]
  have hlineu : ∀ y, y ≠ l → u.line y = s.line y := fun y hy => by
    rw [hrecords.line, if_neg hy, hprepared.line, if_neg hy]
  have hownCoil : u.coilRec l = coilStarted n (s.coilRec l) := by rw [hrecords.coilRec, if_pos rfl, hcoilz]
  have hownLine : u.line l = lineOpened warm (rebound (s.line l)) := by
    rw [hrecords.line, if_pos rfl, hprepared.line, if_pos rfl]
  have hheads : ∀ h, t.head h = z.head h := fun h => by rw [hdropped.frame, hrecords.frame]; rfl
  have hknots : ∀ y, t.knot y = z.knot y := fun y => by rw [hdropped.frame, hrecords.frame]; rfl
  have hlinks : ∀ k, t.scanLink k = z.scanLink k := fun k => by rw [hdropped.frame, hrecords.frame]; cases k <;> rfl
  have hchannels : ∀ c, t.channel c = z.channel c := fun c => by rw [hdropped.frame, hrecords.frame]; rfl
  have hspans : ∀ y, t.spanRec y = u.spanRec y := fun y => by rw [hdropped.frame]; rfl
  have hsame : CopiesSame z t := .of_heads (by rw [hdropped.frame, hrecords.frame]) (by rw [hdropped.frame, hrecords.frame])
    (by rw [hdropped.frame, hrecords.frame])
  have hself : t.coilRec l = u.coilRec l ∧ t.line l = u.line l := by
    by_cases hf : u.follower l = some l
    · refine ⟨?_, hdropped.kept l hf fun p => by rw [hownCoil]; nofun⟩
      rw [hdropped.coilRec l hf, hownCoil]
      rfl
    · exact hdropped.others l hf
  refine ⟨by rw [hdropped.frame, hrecords.frame, hprepared.frame], (CopiesSame.refl s).reloaded hsame hprepared.reloaded,
    hself.2.trans hownLine, fun y => ?_, hself.1.trans hownCoil, fun y hy => ?_, ?_, fun h hh => ?_, fun h hh => ?_,
    fun y hy => (hknots y).trans (hprepared.knot y hy), fun hnet => (hknots l).trans (hprepared.knotOwn hnet),
    fun k hk => (hlinks k).trans (hprepared.serving k hk), fun k hk => (hlinks k).trans (hprepared.otherLink k hk),
    fun c hc => (hchannels c).trans (hprepared.served c hc), fun c hc => (hchannels c).trans (hprepared.unserved c hc),
    fun y hy hf => ?_, fun y hy hf p hp => ?_, fun y hy hf hno => ?_, fun y hy hf => ?_, ?_⟩
  · have hpos : t.pos y = u.pos y := by rw [hdropped.frame]; rfl
    rw [hpos, hrecords.pos, hposz, hposz, hlinez]
  · rw [hspans, hrecords.spanRec, if_neg hy, hprepared.spanRec y hy]
  · rw [hspans, hrecords.spanRec, if_pos rfl]
    exact ⟨rfl, rfl, rfl, rfl, rfl⟩
  · rw [hheads]; exact hprepared.headLoaded h hh
  · rw [hheads]; exact hprepared.headKept h hh
  · rw [hdropped.coilRec y (hfollower.trans hf), hcoilu y hy]
  · rw [hdropped.held y (hfollower.trans hf) p (by rw [hcoilu y hy]; exact hp), hlineu y hy]
  · rw [hdropped.kept y (hfollower.trans hf) (by rw [hcoilu y hy]; exact hno), hlineu y hy]
  · obtain ⟨hcoil, hline⟩ := hdropped.others y (by rw [hfollower]; exact hf)
    exact ⟨hcoil.trans (hcoilu y hy), hline.trans (hlineu y hy)⟩
  · have htz : TellsAs t z := ⟨by rw [hdropped.frame, hrecords.frame], by rw [hdropped.frame, hrecords.frame]; rfl⟩
    exact htz.trans hprepared.told

/-! ## The checks of RUN START (R7) -/

theorem runReady_entered {kind tag : Byte} (h : Safety.RunReady s l n r) : Safety.RunReady (s.entered kind tag) l n r :=
  ⟨h.idle, h.latchClear, h.slot, h.full, h.kind, h.noLeader, h.haul, h.wheel, h.splice, h.shaft, h.heads, h.targets, h.columns,
    h.reach⟩

theorem assignedTo_some {role : Role} {c : ChannelId} : s.assignedTo l role (some c) = true ↔
    (s.channel c).role = role ∧ (s.channel c).consumer = some (.line l) := by
  simp [State.assignedTo]

/-- A channel that is not named, or is assigned to the line. -/
theorem assigned_if_named {role : Role} {ch : Option ChannelId}
    (h : ∀ c, ch = some c → (s.channel c).role = role ∧ (s.channel c).consumer = some (.line l)) :
    (ch.isNone || s.assignedTo l role ch) = true := by
  cases ch with
  | none => rfl
  | some c => exact (Bool.or_eq_true _ _).mpr (.inr (assignedTo_some.mpr (h c rfl)))

theorem channelsAssigned_of_ready (h : Safety.RunReady s l n r) : s.channelsAssigned l = true := by
  obtain ⟨c, hc, hhaul⟩ := h.haul
  have hassigned : s.assignedTo l .haul (s.line l).cfg.haulChannel = true := by rw [hc]; exact assignedTo_some.mpr hhaul
  simp only [State.channelsAssigned, hassigned, assigned_if_named h.wheel, assigned_if_named h.splice,
    assigned_if_named h.shaft, Bool.and_self]

theorem runUnfit_of_ready (h : Safety.RunReady s l n r) : s.runUnfit l r = none := by
  have hheads : ¬((s.line l).kind = .rope ∧ (s.headsOf l).isEmpty = true) := by
    rintro ⟨hrope, hempty⟩
    obtain ⟨x, u, hu, hul⟩ := h.heads hrope
    have hx : x ∈ s.headsOf l := mem_headsOf_iff_assigned.mpr ⟨u, hu, hul⟩
    rw [List.isEmpty_iff.mp hempty] at hx
    cases hx
  rw [State.runUnfit, leaderRunning_eq_false h.noLeader, channelsAssigned_of_ready h, if_neg Bool.false_ne_true,
    if_neg (fun e => Bool.false_ne_true e.symm), if_neg hheads]
  exact recipeUnfit_eq_none h.targets h.columns h.reach

theorem runSlot_of_ready (h : Safety.RunReady s l n r) : (s.line l).runSlot = some n := by
  unfold LineRec.runSlot
  rcases h.slot with hn | ⟨hnone, hn⟩
  · rw [hn]; rfl
  · rw [hnone, hn]; rfl

/-- RUN START of a line that is ready opens its run. -/
theorem runStart_of_ready (h : Safety.RunReady s l n r) : s.runStart (LineId.code l) = accept (s.openRun l n r)
    (enc32 ((s.openRun l n r).coilRec l).number ++ encBool ((s.openRun l n r).line l).warmStart) := by
  have hclosed : s.runOpen l = false := (runOpen_eq_false_iff s l).mpr h.idle
  simp only [State.runStart, withLine_code, hclosed, h.latchClear, runSlot_of_ready h, h.full, h.kind, runUnfit_of_ready h,
    Bool.false_eq_true, if_false, ne_eq, not_true_eq_false]

/-! ## What the statement reads -/

/-- The line of a run ready to open is bound to the slot of the run. -/
theorem rebound_of_ready (h : Safety.RunReady s l n r) :
    rebound (s.line l) = { s.line l with bound := some n, pendingRecipe := none } := by
  unfold rebound
  rw [← runSlot_of_ready h]
  rfl

/-- The recipe of the run is not written to by the loads from its slot (R69). -/
theorem recipe_runLoads (h : Reloaded s t (RunLoads s l n)) (hr : s.recipe n = some r) : t.recipe n = some r := by
  obtain ⟨q, hq, hfields, -, -, hothers⟩ := (h.slots n).2 r hr
  have hnone : ∀ g, ¬Evicts s (RunLoads s l n) g n := fun g ⟨_, _, m, hload, hne⟩ => hne hload.2
  have hpositions : q.positions = r.positions :=
    Vector.ext fun i hi => hothers ⟨i, hi⟩ fun g u hg => absurd hg (hnone g)
  rw [hq, hfields, hpositions]

/-- A copy that is not loaded keeps its slot and its learned trim (R67). -/
theorem copy_not_runLoads {h : HeadId} (hre : Reloaded s t (RunLoads s l n)) (hno : ∀ m, ¬RunLoads s l n h m) :
    (t.copy h).slot = (s.copy h).slot ∧ (t.copy h).learned = (s.copy h).learned := by
  by_cases hev : ∃ m, (s.copy h).state ≠ .invalid ∧ (s.copy h).slot = some m ∧ ∃ g, Evicts s (RunLoads s l n) g m
  · obtain ⟨m, hv, hm, hg⟩ := hev
    rw [hre.remarked h m hno hv hm hg]
    exact ⟨rfl, rfl⟩
  · rw [hre.kept h hno (Classical.or_iff_not_imp_left.mpr fun hv m hm g hg => hev ⟨m, hv, hm, g, hg⟩)]
    exact ⟨rfl, rfl⟩

/-- The number of copies written back at the opening of a run (R69, R70). -/
theorem countsHeads_runWritten (hlaw : ∀ h, LearnedLaw s h) :
    CountsHeads (runWritten s l n) fun h => ∃ m, Evicts s (RunLoads s l n) h m := by
  refine ⟨s.evicted (fun _ => some n) (s.headsOf l), (headsOf_nodup s l).filter _, fun h => ?_, rfl⟩
  rw [mem_evicted, mem_headsOf_iff_assigned]
  constructor
  · rintro ⟨hassigned, m, hm, hdirty, hne⟩
    obtain rfl := Option.some.inj hm
    obtain ⟨k, -, hk, -⟩ := hlaw h (by rw [hdirty]; nofun)
    exact ⟨k, hdirty, hk, n, ⟨hassigned, rfl⟩, fun e => hne (hk.trans (congrArg some e.symm))⟩
  · rintro ⟨k, hdirty, hk, m, ⟨hassigned, rfl⟩, hne⟩
    exact ⟨hassigned, m, rfl, hdirty, fun e => hne (Option.some.inj (e.symm.trans hk))⟩

/-- Settles O35: the run's opening seen through what is loaded, the records and the follower's placement. -/
theorem runStartOpensRun : Obligations.RunStartOpensRun := by
  intro s tag l n r htakes hready
  have hready' : Safety.RunReady (s.entered 0x20 tag) l n r := runReady_entered hready
  have haccept := runStart_of_ready hready'
  have hopened := runOpened_openRun (s.entered 0x20 tag) l n r
  have hwarm := warmStart_iff (s.entered 0x20 tag) l n
  generalize warmStart (s.entered 0x20 tag) l n = warm at hopened hwarm
  generalize (s.entered 0x20 tag).openRun l n r = t at haccept hopened
  have hline := hopened.line
  rw [rebound_of_ready hready'] at hline
  have hreload : Reloaded s t (RunLoads s l n) :=
    (CopiesSame.of_heads rfl rfl rfl : CopiesSame s (s.entered 0x20 tag)).reloaded (.refl t) hopened.reloaded
  have hrecipe := recipe_runLoads hreload hready.full
  have hassigned : ∀ h, h ∈ (s.entered 0x20 tag).headsOf l ↔ AssignedTo s h l := fun h => mem_headsOf_iff_assigned
  rw [hline, hopened.coilRec] at haccept
  refine ⟨t, warm, request_accepted htakes haccept, hwarm, hline, ?_, hopened.coilRec, hopened.lists, fun h u hu hul => ?_,
    fun h hno => ?_, hreload, hopened.knotOwn, hopened.knot, fun k => ?_, hopened.served, hopened.unserved,
    fun y hy => ⟨?_, hopened.spanRec y hy, ?_⟩, fun y hy hf => ⟨hopened.followerCoil y hy hf, hopened.followerLine y hy hf,
      hopened.followerHeld y hy hf⟩, hopened.others, fun hnone => ?_, fun hn hlaw => ⟨runWritten (s.entered 0x20 tag) l n,
      ?_, ?_⟩, ?_, ?_, ?_, ?_, hrecipe⟩
  · rw [hopened.pos, if_pos rfl]
    rfl
  · obtain ⟨q, hq⟩ := Option.isSome_iff_exists.mp (hready.targets h u hu hul)
    obtain ⟨htrim, hcopy⟩ := hreload.loaded h n u r q ⟨⟨u, hu, hul⟩, rfl⟩ hu hrecipe hq
    refine ⟨q, hq, ?_, hcopy⟩
    rw [hopened.headLoaded h ((hassigned h).mpr ⟨u, hu, hul⟩), htrim, ← hu]
    rfl
  · have hnot : ¬AssignedTo s h l := fun ⟨u, hu, hul⟩ => hno u hu hul
    exact ⟨hopened.headKept h (fun e => hnot ((hassigned h).mp e)), copy_not_runLoads hreload fun m hm => hnot hm.1⟩
  · split
    next hk => exact hopened.serving k hk
    next hk => exact hopened.otherLink k hk
  · rw [hopened.pos, if_neg hy]
    rfl
  · by_cases hf : s.follower l = some y
    · rw [hopened.followerCoil y hy hf]
      rfl
    · rw [(hopened.others y hy hf).1]
      rfl
  · have htold := hopened.told.link
    rw [boundTold_of_none (s := s.entered 0x20 tag) hnone] at htold
    exact htold
  · exact countsHeads_runWritten (s := s.entered 0x20 tag) hlaw
  · have htold := hopened.told.link
    rw [boundTold_of_some (s := s.entered 0x20 tag) hn] at htold
    exact htold
  · rw [hopened.frame]; rfl
  · rw [hopened.frame]; rfl
  · rw [hopened.frame]; rfl
  · rw [hopened.frame]; exact ⟨rfl, rfl, rfl, rfl, rfl⟩

end Sys2Proof.Proofs
